-- ==== Sys2Proof/Word.lean ====
section
/-! DEFINITION. The word types of the device and their plainest arithmetic (R7, R8): bytes, dwords, little-endian order,
and the part numbers that the manual counts with. -/

namespace Sys2Proof

/-- A byte. -/
abbrev Byte := BitVec 8

/-- A dword is 32 bits (R8). -/
abbrev Dword := BitVec 32

/-- A host number, which is also its port's number (R19). -/
abbrev HostId := Fin 4

/-- A queue pair of a host (R48). -/
abbrev QueueId := Fin 4

/-- A Funil link L0 to L31 (R226). -/
abbrev LinkId := Fin 32

/-- A DRAM channel: 0 is A and 1 is B. -/
abbrev ChanId := Fin 2

/-- A physical rank of a channel (R87). -/
abbrev RankId := Fin 4

/-- A subchannel of a channel. -/
abbrev SubId := Fin 2

/-- The multiplying loops, numbered as byte 12 of a clock log entry numbers them: 0 CORE, 1 MEM, 2 LINK (R390). -/
abbrev LoopId := Fin 3

/-- A power domain in the bit order of POWER_POLICY: AON, CORE, HOST, MEMA, MEMB, FORGE, LINKL, LINKH. -/
abbrev DomainId := Fin 8

/-- The bytes of a dword, least significant first (R7). -/
def dwordBytes (d : Dword) : List Byte :=
  [d.extractLsb' 0 8, d.extractLsb' 8 8, d.extractLsb' 16 8, d.extractLsb' 24 8]

/-- The `n` low bytes of a number, least significant first (R7). -/
def leBytes : Nat → Nat → List Byte
  | 0, _ => []
  | n + 1, v => BitVec.ofNat 8 v :: leBytes n (v / 256)

/-- The number that a little-endian byte string holds (R7). -/
def leNat : List Byte → Nat
  | [] => 0
  | b :: bs => b.toNat + 256 * leNat bs

/-- Division rounded up. -/
def ceilDiv (a b : Nat) : Nat := (a + b - 1) / b

/-- A count that saturates at `top`. -/
def satAdd (top a b : Nat) : Nat := min top (a + b)

end Sys2Proof
end

