-- ==== Sys2Proof/Syntax.lean ====
section
/-! DEFINITION. The commands of the block: one constructor for each row of spec/opcode_table.json, and the operand types
they carry. The first 49 rows are the opcodes of R67; a command of that kind is a packet of that opcode that a host has
placed at the head of one of its submission rings (R51, R55). The other rows are register accesses and the events of
the device's pins, links, clocks, timers and engines. -/

namespace Sys2Proof

/-- The parameter dwords P0 to P11 of a packet, bytes 8 to 55 (R55). -/
structure Params where
  p0 : Dword := 0
  p1 : Dword := 0
  p2 : Dword := 0
  p3 : Dword := 0
  p4 : Dword := 0
  p5 : Dword := 0
  p6 : Dword := 0
  p7 : Dword := 0
  p8 : Dword := 0
  p9 : Dword := 0
  p10 : Dword := 0
  p11 : Dword := 0
deriving DecidableEq, Repr

/-- A packet of R55 without its opcode, with the port and the queue that it is fetched from. -/
structure Issue where
  host : HostId := 0
  queue : QueueId := 0
  /-- byte 1 -/
  flags : Byte := 0
  /-- bytes 2-3 -/
  tag : BitVec 16 := 0
  /-- bytes 4-7 -/
  partition : Dword := 0
  /-- bytes 8-55 -/
  p : Params := {}
  /-- bytes 56-59 -/
  reserved : Dword := 0
  /-- bytes 60-63 -/
  crc : Dword := 0
deriving DecidableEq, Repr

/-- The resets of a port (R27). -/
inductive PortResetKind where
  | perst | hotReset | flr | dlDown
deriving DecidableEq, Repr

/-- What a temper step measures on one subchannel of its rank (R293, R294): the count of the interval oscillator, the movement
of the centre in 1/64 UI, and the width of the passing eye in 1/64 UI, 0 when no point passes. -/
structure CentreReading where
  count : Nat := 0
  moved : Int := 0
  eye : Nat := 64
deriving DecidableEq, Repr

/-- What a temper step finds on its rank (R293, R294, R296, R301): readings of the DRAM, and the burst that a WRITE step has
saved. -/
structure TemperResult where
  /-- OSC: upper bound of the temperature range that MR4 reports, in degrees C -/
  temp : Nat := 0
  /-- OSC: the mode register read back differs from the controller's copy -/
  mrMismatch : Bool := false
  sub0 : CentreReading := {}
  sub1 : CentreReading := {}
  /-- WRITE: raster address of the burst saved and restored -/
  saved : Nat := 0
deriving DecidableEq, Repr

/-- The three counting intervals of a rank (R346). -/
inductive HealthInterval where
  | hour | day | tenMs
deriving DecidableEq, Repr

/-- The encoder loss conditions with their codes 1 to 3 (R258); a fail-safe has been reported for some tau. -/
inductive EncoderLoss where
  | failsafe (held : Nat) | illegal | overrange
deriving DecidableEq, Repr

/-- What the link reads from a slot for its frame (R219): every word good, an uncorrectable word found before the
frame starts, or one found at a payload symbol while the frame is under way (R250). -/
inductive SlotRead where
  | good
  | badBefore (addr : BitVec 64)
  | badDuring (addr : BitVec 64) (symbol : Nat)
deriving DecidableEq, Repr

/-- Causes of a failed training of a rank, with their codes 1 to 10 (R288). -/
inductive TrainCause where
  | noResponse | density | cs | ca | writeLevel | read | dcaDfe | write | verify | baseline
deriving DecidableEq, Repr

/-- The code of a cause (R288). -/
def TrainCause.code : TrainCause → Nat
  | .noResponse => 1 | .density => 2 | .cs => 3 | .ca => 4 | .writeLevel => 5
  | .read => 6 | .dcaDfe => 7 | .write => 8 | .verify => 9 | .baseline => 10

/-- The step of R288 that has a cause. -/
def TrainCause.step : TrainCause → Nat
  | .noResponse => 1 | .density => 1 | .cs => 2 | .ca => 3 | .writeLevel => 4
  | .read => 5 | .dcaDfe => 6 | .write => 7 | .verify => 8 | .baseline => 9

/-- What step 9 of the training of a rank reads from its devices (R288, R296, R297): the temperature in degrees C, RAAIMT and
RAAMMT, and the oscillator count of each subchannel. -/
structure Baseline where
  temp : Nat := 45
  raaimt : Nat := 32
  raammt : Nat := 96
  count0 : Nat := 0
  count1 : Nat := 0
deriving DecidableEq, Repr

/-- The end of the training of a rank: passed, or failed with a cause and a mask of failing devices. -/
inductive TrainResult where
  | pass (b : Baseline)
  | fail (cause : TrainCause) (mask : BitVec 16)
deriving DecidableEq, Repr

/-- A return frame as it is received (R247): the SEQ of its header, whose RTYPE and LENGTH are those of the command and of the
payload, the payload, and the CRC. -/
structure ReturnFrame where
  seq : Byte := 0
  payload : List Byte := []
  crc : Dword := 0
deriving DecidableEq, Repr

/-- The header fields of one image slot as ROM reads them (R401), and whether the signature verifies under the key that the header names:
the keys are not in the manual. -/
structure ImageInfo where
  magic : Dword := 0x5A524657
  bodyLength : Dword := 0
  /-- PARTS: bit 0 ZR3218, bit 1 ZR1618 -/
  parts : BitVec 2 := 0b11
  signed : Bool := false
  version : Dword := 0
  keyIndex : Fin 4 := 0
  subsystemId : BitVec 16 := 0
  ranksA : Nat := 0
  ranksB : Nat := 0
  density : Nat := 16
  /-- highest speed, coded as CLK_STATUS.MEM_RATE: 0 4,800, 1 5,600, 2 6,400 MT/s -/
  speed : Fin 3 := 2
  coreMode : Fin 3 := 0
  coreDepth : Fin 11 := 0
  memMode : Fin 3 := 0
  memDepth : Fin 11 := 0
  /-- HASH_CH, HASH_BG0, HASH_BG1, HASH_BG2, HASH_BA0, HASH_BA1 -/
  masks : Vector (BitVec 17) 6 := #v[0x00820, 0x00041, 0x00082, 0x00104, 0x00208, 0x00410]
  spare : Dword := 0
deriving DecidableEq, Repr

/-- A failed attempt to train a rank at DRAM_TRAIN (R289). -/
structure TrainFail where
  chan : ChanId
  rank : RankId
  cause : TrainCause
  mask : BitVec 16
deriving DecidableEq, Repr

/-- What a start finds outside the logic that it starts (R399): the two image slots, the key fuses, the training attempts that failed, in order, and what
step 9 reads from each rank of each channel. -/
structure BootInput where
  slotA : ImageInfo := {}
  slotB : ImageInfo := {}
  /-- the fuses of the four keys: 1 revoked (R401) -/
  revoked : BitVec 4 := 0
  trainFails : List TrainFail := []
  baseline : Vector (Vector Baseline 4) 2 := Vector.replicate 2 (Vector.replicate 4 {})
deriving DecidableEq, Repr

/-- The commands, in the order of spec/opcode_table.json. -/
inductive Instr where
  /-- NOP (R67). Command that does nothing and completes. -/
  | nop (c : Issue)
  /-- IDENTIFY (R70). Command that writes one 4,096-byte identity page to host memory. -/
  | identify (c : Issue)
  /-- GET_LOG (R71). Command that returns entries of a log and, with CLEAR, removes the returned entries. -/
  | getLog (c : Issue)
  /-- SET_FEATURE (R69). Command that sets a feature value such as ownership, grants, heartbeat timeout or REQUIRE_CRC. -/
  | setFeature (c : Issue)
  /-- GET_FEATURE (R69). Command that returns the value of a feature. -/
  | getFeature (c : Issue)
  /-- ATTACH (R25). Command that attaches a LINKED host as a contributor and gives it a partition. -/
  | attach (c : Issue)
  /-- DETACH (R26). Command that, after the host's earlier commands complete, releases any steward role and returns the host to LINKED. -/
  | detach (c : Issue)
  /-- HEARTBEAT (R39). Command that counts as a heartbeat of the issuing host. -/
  | heartbeat (c : Issue)
  /-- CLAIM_STEWARD (R30). Command that claims the steward role, possibly by takeover with a fence of the old steward. -/
  | claimSteward (c : Issue)
  /-- RELEASE_STEWARD (R34). Command that makes the steward role vacant. -/
  | releaseSteward (c : Issue)
  /-- FENCE_HOST (R42). Command by which the steward fences a contributor. -/
  | fenceHost (c : Issue)
  /-- ALLOC_ASHLARS (R88). Command that allocates free ashlars to a partition. -/
  | allocAshlars (c : Issue)
  /-- FREE_ASHLARS (R89). Command that frees a run of ashlars after commands touching them complete. -/
  | freeAshlars (c : Issue)
  /-- WRITE_RAW (R101). Command that writes host bytes into raster memory. -/
  | writeRaw (c : Issue)
  /-- WRITE_COMPRESS (R112). Command that compresses line images into a new or appended strip. -/
  | writeCompress (c : Issue)
  /-- READ (R104). Command that delivers raster bytes to host memory. -/
  | read (c : Issue)
  /-- ZERO (R93). Command that zeroes a raster range, clearing map bits of whole ashlars. -/
  | zero (c : Issue)
  /-- SEAL_STRIP (R124). Command that closes an open compressed strip with a final empty block. -/
  | sealStrip (c : Issue)
  /-- GET_STRIP_INFO (R72). Command that returns a strip's lines, width, flags, size and partition. -/
  | getStripInfo (c : Issue)
  /-- DEFINE_RAW_STRIP (R123). Command that creates a sealed raw strip over raster already in a partition. -/
  | defineRawStrip (c : Issue)
  /-- FREE_STRIP (R125). Command that frees a strip record and its ashlars. -/
  | freeStrip (c : Issue)
  /-- LOAD_COURSE (R151). Command that reads, validates and loads a course table into a shadow bank. -/
  | loadCourse (c : Issue)
  /-- KEYSTONE (R175). Command that commits pending KS shadows and loaded shadow banks, or checks them with DRY_RUN. -/
  | keystone (c : Issue)
  /-- PAGE_QUEUE (R167). Command that queues all or none of an array of page descriptors. -/
  | pageQueue (c : Issue)
  /-- PAGE_CANCEL (R168). Command that removes QUEUED pages from the page queue. -/
  | pageCancel (c : Issue)
  /-- SET_LOOKAHEAD (R422). Command that loads the lookahead and floor shadow. -/
  | setLookahead (c : Issue)
  /-- RUN (R188). Command that makes the drain RUNNING. -/
  | run (c : Issue)
  /-- HALT_DRAIN (R189). Command that halts the drain at page end, next line boundary or immediately. -/
  | haltDrain (c : Issue)
  /-- LINK_CONFIG (R76). Command that loads a link's enable, rate, pitch ratio and frame lead shadows. -/
  | linkConfig (c : Issue)
  /-- LINK_TRAIN (R241). Command that trains the links of a mask through the training steps. -/
  | linkTrain (c : Issue)
  /-- WEB_CONFIG (R264). Command that loads the web loop configuration shadows. -/
  | webConfig (c : Issue)
  /-- FIRE_PHASE (R274). Command that sets a link's fire phase now or from the next page. -/
  | firePhase (c : Issue)
  /-- WAVE_BANK (R283). Command that sets fixed or automatic wave bank selection for links. -/
  | waveBank (c : Issue)
  /-- LINK_MSG (R248). Command that sends a message to a head board or takes a received one. -/
  | linkMsg (c : Issue)
  /-- RANK_RETIRE (R350). Command that starts migration of a rank onto the channel's spare. -/
  | rankRetire (c : Issue)
  /-- RANK_REINSTATE (R357). Command that tests a retired rank and makes it the new spare on a pass. -/
  | rankReinstate (c : Issue)
  /-- SCRUB_CONFIG (R345). Command that enables, pauses and sets the period and threshold of patrol scrub. -/
  | scrubConfig (c : Issue)
  /-- MIGRATE_STATUS (R350). Command that reports a channel's migration state and progress. -/
  | migrateStatus (c : Issue)
  /-- RETRAIN (R307). Command that runs drift steps or full training on the ranks of channels. -/
  | retrain (c : Issue)
  /-- POWER_POLICY (R393). Command that switches power domains and sets power-down and self-refresh policy. -/
  | powerPolicy (c : Issue)
  /-- RAW_WRITE (R338). Command that writes raw 80-bit codeword records without computing check bits. -/
  | rawWrite (c : Issue)
  /-- RAW_READ (R338). Command that returns stored codeword bits uncorrected with their decode outcome. -/
  | rawRead (c : Issue)
  /-- ECC_INJECT (R339). Command that flips codeword bits at once or arms flips for the next write. -/
  | eccInject (c : Issue)
  /-- QUENCH_DUMP (R365). Command that copies part of a stored quench dump to host memory. -/
  | quenchDump (c : Issue)
  /-- QUENCH_RELEASE (R366). Command that releases a quenched channel or device. -/
  | quenchRelease (c : Issue)
  /-- SELF_TEST (R214). Command that tests a decoder engine, a compressor engine or the forge pool. -/
  | selfTest (c : Issue)
  /-- FW_STAGE (R403). Command that programs a piece of a firmware image into the slot that did not boot. -/
  | fwStage (c : Issue)
  /-- FW_COMMIT (R79). Command that checks the staged image and names it in the boot record. -/
  | fwCommit (c : Issue)
  /-- RESET_DEVICE (R79). Command that completes and schedules a warm or full reset 1 ms later. -/
  | resetDevice (c : Issue)
  /-- PACKET_FETCH (R61). The device fetches a packet from a host's enabled queue when room and limits allow, checks it and starts it. -/
  | packetFetch (h : HostId) (q : QueueId) (packet : BitVec 512)
  /-- SQ_TAIL (R52). Doorbell write of a submission tail, accepted or ignored by ring distance. -/
  | sqTail (h : HostId) (q : QueueId) (value : Dword)
  /-- CQ_HEAD (R52). Doorbell write releasing consumed completions. -/
  | cqHead (h : HostId) (q : QueueId) (value : Dword)
  /-- QUEUE_ENABLE (R50). Write of 1 to Q_CONTROL.ENABLE that puts a queue pair in service or is refused. -/
  | queueEnable (h : HostId) (q : QueueId) (value : Dword)
  /-- QUEUE_DISABLE (R50). Write of 0 to Q_CONTROL.ENABLE that takes effect once fetched commands complete. -/
  | queueDisable (h : HostId) (q : QueueId) (value : Dword)
  /-- FENCE_ACK (R44). Write to HOST_CONTROL.FENCE_ACK that resets a fenced host's queues and makes it RECOVERING. -/
  | fenceAck (h : HostId) (value : Dword)
  /-- HEARTBEAT_REGISTER_WRITE (R39). Write to the HEARTBEAT register that counts as a heartbeat. -/
  | heartbeatRegisterWrite (h : HostId) (value : Dword)
  /-- KEYSTONE_REGISTER_WRITE (R176). Write to the KEYSTONE register that acts as a keystone and reports in KEYSTONE_STATUS. -/
  | keystoneRegisterWrite (h : HostId) (value : Dword)
  /-- APPLY (R96). Write of MAP_CONTROL.APPLY that puts hash and sparing shadows in force if raster is empty. -/
  | apply (h : HostId) (value : Dword)
  /-- MAILBOX_RING (R420). Write that records the ringing host and raises mailbox doorbell sources. -/
  | mailboxRing (h : HostId) (value : Dword)
  /-- EVENT_ROUTE_WRITE (R413). Write to an EVENT_ROUTE entry, applied from the steward's port and ignored and logged from others. -/
  | eventRouteWrite (h : HostId) (source : Fin 96) (value : Dword)
  /-- EVENT_MASK_WRITE (R416). Write to EVENT_MASK; clearing a bit whose status is set counts one raise. -/
  | eventMaskWrite (h : HostId) (reg : Fin 3) (value : Dword)
  /-- CLEAR (R349). Write of RANK_HEALTH.CLEAR that returns in-service ranks to GOOD. -/
  | clear (h : HostId) (value : Dword)
  /-- GO_MEM (R382). Write of CLK_CHANGE.GO_MEM that changes MEM to the plan by re-locking and retraining. -/
  | goMem (h : HostId) (value : Dword)
  /-- GO_CORE (R382). Write of CLK_CHANGE.GO_CORE that changes CORE to the plan by re-locking. -/
  | goCore (h : HostId) (value : Dword)
  /-- REGISTER_PAIR_READ (R419). Read of the low half of a 64-bit or paired register that latches the high half. -/
  | registerPairRead (h : HostId) (offset : BitVec 16) (wide : Bool)
  /-- REGISTER_WRITE (R9). Write to a register with no row of its own, acting by its access code. -/
  | registerWrite (h : HostId) (offset : BitVec 16) (wide : Bool) (value : BitVec 64)
  /-- BAR_ACCESS (R21). BAR0 access of unaccepted size or alignment is ignored or reads all-ones and is logged. -/
  | barAccess (h : HostId) (write : Bool) (offset : BitVec 16) (size : Nat)
  /-- UNSUPPORTED_REQUEST (R21). A memory request outside BAR0 completes with Unsupported Request. -/
  | unsupportedRequest (h : HostId) (write : Bool) (addr : BitVec 64)
  /-- PORT_RESET (R27). PERST_N, hot reset, FLR or DL_Down resets a port's queues and detaches its host. -/
  | portReset (h : HostId) (kind : PortResetKind)
  /-- PORT_LINK_UP (R24). A port's link comes up and its host enters LINKED. -/
  | portLinkUp (h : HostId)
  /-- HOST_DATA_BAD (R22). A poisoned or ECRC-failed completion stops the issuing command with ABORTED. -/
  | hostDataBad (h : HostId) (id : Nat)
  /-- COMPLETION_TIMEOUT (R22). A read request without completion in time makes its command complete TIMEOUT. -/
  | completionTimeout (h : HostId) (id : Nat)
  /-- HB_TIMEOUT (R40). An attached host without heartbeat for HB_TIMEOUT enters LATE. -/
  | hbTimeout (h : HostId)
  /-- HEARTBEAT_EXPIRY (R40). A LATE host without heartbeat for twice HB_TIMEOUT is fenced. -/
  | heartbeatExpiry (h : HostId)
  /-- TRANSFER_COMPLETE (R311). A granted window transfer finishes, and a command whose last transfer it was completes. `staging` is the
  number of the burst of the transfer for which host staging gives an uncorrectable word (R224). -/
  | transferComplete (c : ChanId) (staging : Option Nat)
  /-- FILL_COMPLETE (R91). The last burst of a fill is written, the map bit is set and waiting commands proceed. -/
  | fillComplete (ashlar : Nat)
  /-- COMPRESSOR_DISPATCH (R126). A free compressor engine takes a waiting WRITE_COMPRESS and compresses it. -/
  | compressorDispatch (n : Fin 8) (stream : List Byte) (bits : Nat)
  /-- WRITE_COMPRESS_DONE (R118). An engine finishes a command, applying the gain test and completing SUCCESS or NOSHRINK. -/
  | writeCompressDone (n : Fin 8)
  /-- COMPRESSOR_FAULT (R128). A compressor self-check or SRAM error aborts its command and takes the engine out of service. -/
  | compressorFault (n : Fin 8) (cause : Fin 4) (addr : BitVec 64)
  /-- COURSE_BOUNDARY (R180). A course ends: debt, keystone commits, hot refresh, page starts and the fill-or-rest decision for the next course. `bad`: a
  course table or the page list gives an uncorrectable word (R224, R360). -/
  | courseBoundary (bad : Bool)
  /-- FETCH_ENTRY (R140). A FETCH entry's slots arrive and it reads a link's used bursts up to its reservation. -/
  | fetchEntry (c : ChanId) (idx : Nat)
  /-- REFSB (R144). A live REFSB entry closes a bank and issues same-bank refresh or skips it. -/
  | refsb (c : ChanId) (idx : Nat)
  /-- MITIG (R145). A live MITIG entry issues RFMsb when a mitigation need is pending. -/
  | mitig (c : ChanId) (idx : Nat)
  /-- ZQCAL (R146). A live ZQCAL entry issues ZQCal Start and Latch to a rank. -/
  | zqcal (c : ChanId) (idx : Nat)
  /-- TEMPER_PAUSE (R293). A live TEMPER entry runs an OSC, READ or WRITE drift step on a rank. -/
  | temperPause (c : ChanId) (idx : Nat) (r : TemperResult)
  /-- STALL_LIMIT (R157). A hold of the slot counter reaching 200 µs abandons the held command. -/
  | stallLimit (c : ChanId) (idx : Nat)
  /-- REFRESH_CREDIT_TIMER (R158). A bank index's refresh timer subtracts one from its credit. -/
  | refreshCreditTimer (c : ChanId) (r : RankId) (u : SubId) (b : Fin 4)
  /-- FORCED_REFRESH (R160). A credit at −4 makes the guard insert a forced REFsb at the next slot. -/
  | forcedRefresh (c : ChanId) (r : RankId) (u : SubId) (b : Fin 4)
  /-- FORCED_RFM (R297). An ACT held at RAAMMT makes the guard insert a forced RFMsb. -/
  | forcedRfm (c : ChanId) (r : RankId) (u : SubId) (b : Fin 4)
  /-- ROW_CLOSE (R291). An idle or long-open row is closed on its timer. -/
  | rowClose (c : ChanId) (u : SubId) (r : RankId) (bg : Fin 8) (b : Fin 4)
  /-- POWER_DOWN_ENTRY (R302). A rank idle for 64 slots with no entry due enters power-down. -/
  | powerDownEntry (c : ChanId) (r : RankId)
  /-- SELF_REFRESH_ENTRY (R304). The idle entry delay expires and the channels begin QUIESCE toward self-refresh. -/
  | selfRefreshEntry
  /-- SELF_REFRESH_EXIT (R305). A request needing DRAM makes the channels exit self-refresh and restart the grid. -/
  | selfRefreshExit
  /-- WRITE_CRC_ALERT (R299). ALERT_n asserts and the controller replays the recent writes in order. -/
  | writeCrcAlert (c : ChanId) (u : SubId) (window : Nat)
  /-- STORM_RETRAIN_DONE (R300). The storm retrain completes and the slot counter resumes. -/
  | stormRetrainDone (c : ChanId) (u : SubId)
  /-- ARBITER_DECISION (R316). The window arbiter grants the highest-ranking eligible request. -/
  | arbiterDecision (c : ChanId)
  /-- PREEMPTION (R320). A pre-emption check or window close withdraws a holder's transfer. -/
  | preemption (c : ChanId) (issued : Nat)
  /-- TOKEN_REFILL (R324). Every 64 CCK each regulator bucket gains RATE tokens. -/
  | tokenRefill
  /-- SCRUB_PASS_START (R342). A scrub pass starts at its period, logging SCRUB_LATE if the last has not ended. -/
  | scrubPassStart (c : ChanId)
  /-- SCRUB_TRANSFER (R344). The scrubber presents a patrol or priority transfer and writes back bad bursts. -/
  | scrubTransfer (c : ChanId)
  /-- SCRUB_PASS_COMPLETE (R342). A channel completes a scrub pass and raises source 62. -/
  | scrubPassComplete (c : ChanId)
  /-- HEALTH_INTERVAL_END (R346). A rank-health counting interval ends and its count restarts. -/
  | healthIntervalEnd (c : ChanId) (r : RankId) (kind : HealthInterval)
  /-- MIGRATION_TRANSFER (R352). The migrator copies one transfer of bursts from source to target and advances the pointer. -/
  | migrationTransfer (c : ChanId)
  /-- MIGRATION_CUTOVER (R355). With every written ashlar copied, the target takes the logical rank and the source retires. -/
  | migrationCutover (c : ChanId)
  /-- DECODE_LINE_COMPLETE (R198). A decoder engine fills its line slot or runs out of input, completing or underrunning the line. -/
  | decodeLineComplete (n : LinkId) (fault : Option (BitVec 64))
  /-- LOOP_UPDATE (R272). Every 64 CCK the web loop updates and commits, skips or waits on each link's next line. -/
  | loopUpdate
  /-- ENCODER_COUNT (R257). A quadrature edge is timestamped and moves the count, possibly disarming or declaring reversal. -/
  | encoderCount (a b : Bool)
  /-- WEB_LOCK_CHANGE (R262). The web loop enters LOCKED or returns to ACQUIRE on its error counts. -/
  | webLockChange
  /-- ENCODER_LOST (R258). A fail-safe, illegal or overrange encoder loss puts the loop in COASTING or LOST. -/
  | encoderLost (cause : EncoderLoss)
  /-- ENCODER_REBASE (R278). 64 valid counts while coasting re-base the count and return the loop to LOCKED. -/
  | encoderRebase
  /-- COAST_LIMIT (R279). COAST_LIMIT expires in COASTING: loop LOST, markers withdrawn, drain halted. -/
  | coastLimit
  /-- INDEX_SLIP (R259). A Z edge is checked against INDEX_PERIOD and a slip is counted and logged. -/
  | indexSlip
  /-- MARK_SEEN (R281). A filtered MARK edge is seen and accepted, counted as chatter or outside the window. -/
  | markSeen (rising : Bool) (held : Nat)
  /-- PAGE_BOUNDARY (R171). The master position reaches a page's start line and source 75 is raised. -/
  | pageBoundary (page : BitVec 16)
  /-- FIRE_MARKER (R235). A committed FIRE marker leaves at its symbol boundary with FINE and the line byte. -/
  | fireMarker (n : LinkId)
  /-- FIRE_INSTANT (R218). A line's fire instant passes: its slot is freed, lead falls and the page may become DONE. -/
  | fireInstant (n : LinkId)
  /-- LINE_FRAME (R238). A LINE frame is sent once its slot is complete and held-frame conditions allow. -/
  | lineFrame (n : LinkId) (ue : SlotRead)
  /-- NO_DATA (R238). At the frame deadline with the slot incomplete a NO_DATA frame is sent in its place. -/
  | noData (n : LinkId)
  /-- ECHO_TRACKING (R245). After every 4,096th marker an ECHO frame is sent in a gap. -/
  | echoTracking (n : LinkId)
  /-- ECHO_REPLY (R245). An ECHO return frame arrives; the round trip updates LAT or takes the link down. -/
  | echoReply (n : LinkId) (f : ReturnFrame) (roundTrip : Nat)
  /-- STATUS_FRAME (R247). A STATUS return frame is received and checked for board errors and faults. -/
  | statusFrame (n : LinkId) (f : ReturnFrame)
  /-- MESSAGE_FRAME (R248). A MESSAGE return frame is held or dropped and source 16 + n raised. -/
  | messageFrame (n : LinkId) (f : ReturnFrame)
  /-- ACK_FRAME (R248). An ACK return frame completes the waiting LINK_MSG send. -/
  | ackFrame (n : LinkId) (f : ReturnFrame)
  /-- IDENT_FRAME (R241). An IDENT return frame gives the board's declarations in training. -/
  | identFrame (n : LinkId) (f : ReturnFrame)
  /-- TEST_FRAME (R241). A TEST return frame is checked in training step 3. -/
  | testFrame (n : LinkId) (f : ReturnFrame)
  /-- TRAINING_STEP_TIMEOUT (R241). A training step's limit expires and training fails for that link. -/
  | trainingStepTimeout (n : LinkId)
  /-- MESSAGE_GAP_TIMEOUT (R240). A message that finds no gap within 1 ms completes TIMEOUT. -/
  | messageGapTimeout (n : LinkId)
  /-- ACK_TIMEOUT (R248). A sent message without ACK after 1 ms completes TIMEOUT. -/
  | ackTimeout (n : LinkId)
  /-- LOSS_OF_SIGNAL (R252). The receive lane is below signal detect for 1 µs. -/
  | lossOfSignal (n : LinkId) (held : Nat)
  /-- CODE_ERRORS (R252). Sixteen code or disparity errors within 4,096 symbols. -/
  | codeErrors (n : LinkId) (span : Nat)
  /-- STATUS_TIMEOUT (R252). No valid return frame for 100 µs. -/
  | statusTimeout (n : LinkId)
  /-- REF_LOST (R369). No reference edge for so many nominal periods: from four on, reference lost and loops coast. -/
  | refLost (periods : Nat)
  /-- REF_PRESENT (R379). So many consecutive reference periods have been within tolerance: from 1,024 on, the reference is present and
  coasting loops resume tracking. -/
  | refPresent (periods : Nat)
  /-- LOCK_WINDOW (R372). A 2.56 µs count window ends and lock is declared, lost or monitored. -/
  | lockWindow (l : LoopId) (ppm : Int) (monitor : Int)
  /-- COAST_TRUST (R380). A loop that has coasted for 1 s causes an orderly stop. -/
  | coastTrust (l : LoopId)
  /-- MONITOR_CALIBRATION (R378). Each millisecond the ring oscillator is calibrated against the reference. -/
  | monitorCalibration
  /-- FREQ_CHANGE_TIMEOUT (R385). A changed loop without lock in 2 ms returns to the former setting or resets. -/
  | freqChangeTimeout (l : LoopId)
  /-- LOOP_LOCK_TIMEOUT (R373). A loop without lock 2 ms after its start at CLOCKS fails the start. -/
  | loopLockTimeout (l : LoopId)
  /-- DOMAIN_SWITCH (R394). A power domain finishes switching off or on and does its work. -/
  | domainSwitch (d : DomainId)
  /-- POWER_ON_RESET (R396). VDD_AON rises or falls below threshold and the device enters POR. -/
  | powerOnReset (rise : Bool) (refSel : BitVec 2)
  /-- SYS_RST_N (R396). SYS_RST_N low for 1 µs causes a full reset. -/
  | sysRstN (low : Nat)
  /-- TRST_N (R396). JTAG TRST_N resets the TAP alone. -/
  | trstN
  /-- DEVICE_RESET (R398). The scheduled warm or full reset takes effect. -/
  | deviceReset
  /-- BOOT_START (R399). After reset the start runs its boot stages to READY or enters BANKED. -/
  | bootStart (b : BootInput)
  /-- BOOT_WATCHDOG (R399). The 2 s boot watchdog expires and fails the start. -/
  | bootWatchdog
  /-- TRAP (R399). A firmware trap fails the start or resets the device. -/
  | trap
  /-- FAIL_COUNT_CLEAR (R404). RUNNING held for 10 s clears the failed-start counter. -/
  | failCountClear
  /-- SUPPLY_WARNING (R407). A rail below its warning threshold raises source 81. -/
  | supplyWarning (rail : Fin 7)
  /-- SUPPLY_STOP (R407). A rail below its fault threshold for 1 µs, or for so many nanoseconds, resets the device in full. -/
  | supplyStop (rail : Fin 7) (low : Nat)
  /-- SUPPLY_RECOVERED (R392). A rail rises above its good threshold after a warning. -/
  | supplyRecovered (rail : Fin 7)
  /-- DIE_WARNING (R406). The die rises above 105 °C and source 71 is raised. -/
  | dieWarning (temp : BitVec 16)
  /-- THERMAL_STOP (R406). At 115 °C the device stops, switching off the DRAM, pool and link domains. -/
  | thermalStop (temp : BitVec 16)
  /-- HOLDOFF_EXPIRY (R417). A vector's coalescing holdoff ends, sending a message if raises were gathered. -/
  | holdoffExpiry (h : HostId) (v : Fin 32)
  /-- PULSE_END (R423). A 1 µs EVT_OUT page or mark pulse ends and the pin is released. -/
  | pulseEnd (pin : Fin 2)
  /-- ARM (R425). Management write of 0x4D to ARM arms ACTION for 10 ms. -/
  | arm (value : Byte)
  /-- MGMT_RESET (R425). Management action 0x01 resets the device in full. -/
  | mgmtReset
  /-- MGMT_FORCE_BANKED (R425). Management action 0x02 sets the force flag and resets into BANKED. -/
  | mgmtForceBanked
  /-- MGMT_CLEAR_FORCE (R425). Management action 0x03 clears the force flag. -/
  | mgmtClearForce
  /-- MGMT_HOST_ON (R425). Management action 0x04 switches HOST on. -/
  | mgmtHostOn
  /-- MGMT_HOST_OFF (R425). Management action 0x05 switches HOST off, resetting every host. -/
  | mgmtHostOff
  /-- MGMT_SHUTDOWN (R408). Management action 0x06 brings the device to SAFE_OFF and raises source 83. -/
  | mgmtShutdown
  /-- COMMA_ALIGNMENT (R241). The receive lane shows comma alignment for 1,024 symbols, so training step SEARCH passes and IDENT_REQ is sent. -/
  | commaAlignment (n : LinkId) (symbols : Nat)
  /-- MEASURE_ECHO (R241). In training step MEASURE the device sends the next of 64 ECHO frames, one per 4,096 symbols. -/
  | measureEcho (n : LinkId)
  /-- INVALID_RETURN_FRAME (R248). A return frame that is not valid is received, discarded and counted. -/
  | invalidReturnFrame (n : LinkId)
  /-- RANK_TRAINING_DONE (R307). The training steps on a rank end, passing or failing, for RETRAIN with FULL, RANK_REINSTATE or a MEM frequency change. -/
  | rankTrainingDone (c : ChanId) (r : RankId) (result : TrainResult)
  /-- SELF_REFRESH_ENTERED (R304). Every rank has entered self-refresh and met its minimum residency, so the channel reads SELF_REFRESH or a waiting request begins exit. -/
  | selfRefreshEntered (c : ChanId)
  /-- DIE_WARNING_REARM (R406). The die temperature falls back below the warning threshold, rearming the warning and releasing an EVT_OUT HOT pin. -/
  | dieWarningRearm (temp : BitVec 16)
  /-- INDEX_FAILSAFE (R259). The Z receiver reports its fail-safe state, which is logged and is not a loss. -/
  | indexFailsafe
  /-- HOST_READ_COMPLETION (R22). A good completion for one of the device's read requests arrives with data for a packet, descriptor, table or write source. -/
  | hostReadCompletion (h : HostId) (id : Nat) (data : List Byte)deriving DecidableEq, Repr

end Sys2Proof
end

