-- ==== Sys2Proof/Config.lean ====
section
/-! DEFINITION. What a part or an implementation fixes, and the free values: constants without a body, of which nothing can
be proved, standing for what the manual leaves open. -/

namespace Sys2Proof

/-- The two parts cut from the one die (R3). -/
inductive Part where
  | zr3218 | zr1618
deriving DecidableEq, Repr

namespace Part

/-- Head links of the part (R3). -/
def links : Part → Nat
  | .zr3218 => 32
  | .zr1618 => 16

/-- Host ports of the part (R3). -/
def ports : Part → Nat
  | .zr3218 => 4
  | .zr1618 => 2

/-- DRAM channels of the part (R3). -/
def channels : Part → Nat
  | .zr3218 => 2
  | .zr1618 => 1

/-- Compressor engines of the part (R3). -/
def compressors : Part → Nat
  | .zr3218 => 8
  | .zr1618 => 4

/-- PCI Device ID (R3, R23). -/
def deviceId : Part → BitVec 16
  | .zr3218 => 0x3218
  | .zr1618 => 0x1618

/-- Commands in flight, device-wide (R3, R61). -/
def inFlight : Part → Nat
  | .zr3218 => 256
  | .zr1618 => 128

/-- JTAG IDCODE (R439). -/
def idcode : Part → Dword
  | .zr3218 => 0x132180F7
  | .zr1618 => 0x116180F7

/-- Event sources that never assert on the part (R3). -/
def neverAsserts : Part → Nat → Bool
  | .zr3218, _ => false
  | .zr1618, n =>
    (8 ≤ n && n ≤ 15) || (32 ≤ n && n ≤ 47) || (52 ≤ n && n ≤ 55) || n == 57 || n == 59 || n == 61 || n == 78 || n == 79

end Part

namespace Config

/-- The model's time is counted in tau of the fire time base, 6.25 ps (R271): so many make a microsecond. -/
def usTau : Nat := 160000

/-- Tau in a millisecond. -/
def msTau : Nat := 160000000

/-- Tau in a second. -/
def secTau : Nat := 160000000000

/-- Device Serial Number, unique to the die (R23). DESIGN CHOICE: opaque (log entry 95). -/
opaque serial : BitVec 64

/-- ROM version (R419, REVISION.ROM). DESIGN CHOICE: opaque (log entry 95). -/
opaque romVersion : Byte

/-- Whether the ECDSA P-256 signature of a staged image verifies (R79, R401). The four public keys that ROM holds and the
revocation fuses are not in the manual. DESIGN CHOICE (log entry 13). -/
opaque signatureVerifies : List Byte → Bool

/-- The draw of the RFM sampling LFSR at a given use (R297). The manual gives its width and its seed, not its polynomial. DESIGN CHOICE: a free value (log entries 11 and 53). -/
opaque lfsrDraw : Nat → Dword

/-- The bytes of a quench dump's sections whose inner layout the manual does not give (R363), by dump number and offset.
DESIGN CHOICE: free values (log entry 28). -/
opaque dumpByte : Nat → Nat → Byte

/-- A result that the manual leaves without a value for the case at hand, at a given use. DESIGN CHOICE: a free value
(log entry 11). -/
opaque openDword : Nat → Dword

/-- Whether the first read of a burst is spoiled by an error of the command bus, at a given use (R301): the manual gives the
repeat of such a read and not when one occurs. DESIGN CHOICE: a free value (log entry 89). -/
opaque commandFails : Nat → Bool

/-- The change in write DQ delay, in 1/64 UI, that a change in the oscillator's count since training stands for (R293): the manual
gives no conversion. DESIGN CHOICE: a free function (log entry 54). -/
opaque oscDelay : Int → Int

/-- The mode register whose turn it is to be read back (R301): the manual gives no order of the rotation. DESIGN CHOICE: a free
function of the place in the rotation (log entry 54). -/
opaque mrRotation : Nat → Byte

/-- The type of an error log entry for which the manual gives none: the cause of R98 (0) and the refusal of R290 (1). DESIGN CHOICE:
a free value (log entry 41). -/
opaque openType : Nat → Nat

/-- The bytes 12 to 63 of such an entry, at a given use. DESIGN CHOICE: a free value (log entry 41). -/
opaque openEntry : Nat → BitVec 416

/-- Which of the free strip records a new strip takes, at a given use (R107): the manual does not say which.
DESIGN CHOICE: a free value (log entry 81). -/
opaque openRecord : Nat → Nat

/-- The step at which a self test fails, 0 for a pass, at a given use (R129, R214, R225): the outcome of the test is the
hardware's and the manual does not fix it. DESIGN CHOICE: a free value (log entry 31). -/
opaque selfTestStep : Nat → Nat

end Config

end Sys2Proof
end

