-- ==== Sys2Proof/Machine/State.lean ====
section
/-! DEFINITION. The state of the device as plain data: everything the manual gives the machine, its value after power-on
reset, and the reasons a step can stop. Times are counted in tau of 6.25 ps (R271) since the last device reset. -/

namespace Sys2Proof.Machine

/-! ### Hosts, queues and commands -/

/-- Host states with their codes 0 to 5 (R24). -/
inductive HostState where
  | down | linked | attached | late | fenced | recovering
deriving DecidableEq, Repr

/-- The code of a host state (R24). -/
def HostState.code : HostState → Nat
  | .down => 0 | .linked => 1 | .attached => 2 | .late => 3 | .fenced => 4 | .recovering => 5

/-- A queue pair (R48, R49). IN_FLIGHT is counted from the commands in flight. -/
structure Queue where
  sqTail : Nat := 0
  cqHead : Nat := 0
  sqHead : Nat := 0
  cqTail : Nat := 0
  /-- EXPECTED_PHASE -/
  phase : Bool := true
  sqBase : BitVec 64 := 0
  cqBase : BitVec 64 := 0
  enable : Bool := false
  notifyAll : Bool := false
  vector : Fin 32 := 0
  size : Nat := 0
  configError : Bool := false
  dbError : Bool := false
  /-- a write of 0 to ENABLE waits for the commands fetched (R50) -/
  disabling : Bool := false
deriving DecidableEq, Repr

/-- One vector's coalescing (R417), with its MSI-X mask bit and table entry (R19, R416). The reset
values of the table are PRESUMED (log entry 7). -/
structure Vec where
  holdoff : Nat := 0
  count : Nat := 0
  /-- end of the holdoff that runs -/
  until_ : Option Nat := none
  gathered : Nat := 0
  /-- message address and data of the MSI-X table entry -/
  msgAddr : BitVec 64 := 0
  msgData : Dword := 0
  /-- vector control bit 0 of the MSI-X table entry -/
  masked : Bool := true
  /-- pending bit -/
  pend : Bool := false
deriving DecidableEq, Repr

/-- What configuration space sets for a port (R19, R23): MSI-X enable and function mask, the device power state, ECRC, and the
address of BAR0. The table has no configuration request: the values after a reset of the port are PRESUMED, and PORT_LINK_UP
stands for the host's set-up (log entry 8). -/
structure Pci where
  msixEnable : Bool := false
  functionMask : Bool := false
  /-- D3hot, else D0 -/
  d3hot : Bool := false
  ecrcGenerate : Bool := false
  ecrcCheck : Bool := false
  /-- BAR0, a multiple of 64 KiB -/
  bar0 : BitVec 64 := 0
deriving DecidableEq, Repr

/-- A host and its port (R20, R24). -/
structure HostRec where
  st : HostState := .down
  lastHb : Nat := 0
  /-- HB_TIMEOUT in ms (R39) -/
  hbTimeout : Nat := 100
  autoFence : Bool := true
  requireCrc : Bool := false
  fenceCause : Fin 4 := 0
  ignored : Nat := 0
  queues : Vector Queue 4 := #v[{ vector := 0 }, { vector := 1 }, { vector := 2 }, { vector := 3 }]
  /-- queue whose turn it is (R61) -/
  turn : Fin 4 := 0
  status : BitVec 96 := 0
  mask : BitVec 96 := 0
  vecs : Vector Vec 32 := Vector.replicate 32 {}
  /-- latched high halves, by offset (R284, R419) -/
  latch : List (Nat × Dword) := []
  pci : Pci := {}
deriving DecidableEq, Repr

/-- What a burst of a command asks of the DRAM. -/
inductive BurstKind where
  /-- a read -/
  | read
  /-- a write of a whole burst; bytes that the command does not cover are zeros of a fill (R91) -/
  | write
  /-- a read-modify-write (R102) -/
  | rmw
deriving DecidableEq, Repr

/-- A 64-byte burst by its raster address. -/
structure Burst where
  addr : Nat
  kind : BurstKind
deriving DecidableEq, Repr

/-- A burst read for a command and not yet delivered: its bytes, and its first failing word with whether that word is
POISON (R104). -/
structure Got where
  addr : Nat
  bytes : BitVec 512
  bad : Option (Nat × Bool) := none
  /-- outcomes of the eight words, as RAW_READ reports them (R78) -/
  raw : List (BitVec 80 × Nat) := []
deriving DecidableEq, Repr

/-- The block that a decoder is inside (R199). -/
inductive Block where
  | outside
  | stored (left : Nat)
  | fixed
  /-- code lengths of the literal/length and distance codes -/
  | dynamic (lit dist : List Nat)
deriving DecidableEq, Repr

/-- The state that a decoder engine holds between lines (R199): bit position of the first input bit not yet used, block
state with BFINAL, pending match, history with its newest byte first, and the bytes of the strip written. Bits already
taken into the accumulator and not used are those from the bit position on. -/
structure Inflate where
  bit : Nat := 0
  block : Block := .outside
  final : Bool := false
  ended : Bool := false
  matchLen : Nat := 0
  matchDist : Nat := 0
  history : List Byte := []
  written : Nat := 0
deriving DecidableEq, Repr

/-- The output of a WRITE_COMPRESS or a SEAL_STRIP (R113 to R118): the stream that the engine produces, how far its own check
has come, and where the output lies. -/
structure Output where
  /-- the stream of the command and its length in bits -/
  stream : List Byte := []
  bits : Nat := 0
  /-- the engine's check of its output (R128): decoder state, lines in the block, cost of the block in the fixed code, and the
  bit at which the block starts -/
  dec : Inflate := {}
  inBlock : Nat := 0
  fixedCost : Nat := 0
  blockAt : Nat := 0
  /-- bits of the stream after each line that has been produced and checked -/
  ends : List Nat := []
  /-- the strip as it stood: stream length in bits, END of the last line, lines -/
  tail : Nat := 0
  lastEnd : Nat := 0
  lines : Nat := 0
  /-- extents and index ashlars, with those of the strip (R115), and the ashlars that the command has taken -/
  extents : List (Nat × Nat) := []
  index : List Nat := []
  taken : List Nat := []
  /-- bytes that the output may take, and bytes taken (R118) -/
  limit : Nat := 0
  used : Nat := 0
  /-- end of the output within the limit: stream byte, and index entries of the strip -/
  streamTo : Nat := 0
  entriesTo : Nat := 0
  /-- bursts of the stream and of the index that have gone to the writeback requester (R116) -/
  sent : Nat := 0
  sentIndex : Nat := 0
  /-- all of the output has gone there -/
  ended : Bool := false
deriving DecidableEq, Repr

/-- How far a fetched command has come. -/
inductive Prog where
  /-- fetched, not started (R62, R63) -/
  | waiting
  /-- started; waits for another command, a fill or the DRAM (R89, R92, R114, R151, R304) -/
  | held
  /-- started; so many bytes of host data are to come -/
  | source (need : Nat)
  /-- started; DRAM transfers or fills are to come -/
  | raster
  /-- started; waits for or is held by a compressor engine -/
  | compress
  /-- started; ends with an event of a link, a rank, a domain, a course boundary or a halt -/
  | event
deriving DecidableEq, Repr

/-- A command in flight: fetched and not completed (R61). -/
structure Cmd where
  /-- order of fetching -/
  id : Nat
  op : Byte
  iss : Issue
  prog : Prog := .waiting
  /-- order of starting -/
  started : Nat := 0
  /-- bytes read from the host so far -/
  buf : List Byte := []
  /-- bursts not yet presented -/
  todo : List Burst := []
  got : List Got := []
  /-- bytes delivered or written -/
  bytes : Nat := 0
  /-- address of the next burst to hand to the arbiters or to deliver, and the end of the range in whole bursts -/
  next : Nat := 0
  stop : Nat := 0
  /-- words written back poisoned (R103) -/
  poisoned : Nat := 0
  /-- links, ranks or domains still at work, and those that passed or failed -/
  mask : BitVec 32 := 0
  passed : BitVec 32 := 0
  failed : BitVec 32 := 0
  /-- a failure that makes LINK_TRAIN complete TIMEOUT (R242) -/
  noAnswer : Bool := false
  out : Output := {}
deriving DecidableEq, Repr

/-- Right of a host in a partition (R38). -/
inductive Right where
  | none | read | readWrite
deriving DecidableEq, Repr

/-- A partition (R35, R38). -/
structure Partition where
  owner : Option HostId := none
  reserved : Option HostId := none
  grants : Vector Right 4 := Vector.replicate 4 .none
deriving DecidableEq, Repr

/-- The steward role (R28, R32, R33). -/
structure Role where
  holder : Option HostId := none
  /-- the last host that held the role -/
  previous : Option HostId := none
  eligible : BitVec 4 := 0xF
deriving DecidableEq, Repr

/-! ### Logs and events -/

/-- A log entry (R71): time in microseconds since reset, type, host, merge count, and bytes 12 to 63. -/
structure LogEntry where
  time : Nat
  type : Nat
  host : Nat := 255
  merged : Nat := 0
  body : BitVec 416 := 0
deriving DecidableEq, Repr

/-- The four logs (R68), oldest entry first. -/
structure Logs where
  error : List LogEntry := []
  ecc : List LogEntry := []
  course : List LogEntry := []
  dump : List LogEntry := []
deriving DecidableEq, Repr

/-- An EVENT_ROUTE entry (R413); target 4 is STEWARD. -/
structure Route where
  enable : Bool := true
  target : Fin 5 := 4
  vector : Fin 32 := 31
deriving DecidableEq, Repr

/-- The device-wide event and mailbox registers (R413, R414, R420) and the EVT_OUT pins (R423). -/
structure Events where
  routes : Vector Route 96 := Vector.replicate 96 {}
  held : BitVec 96 := 0
  /-- host that last rang each doorbell -/
  from_ : Vector (Option HostId) 8 := Vector.replicate 8 none
  data : Vector Dword 8 := Vector.replicate 8 0
  /-- EVT_OUT latches -/
  latch : Vector Bool 2 := #v[false, false]
  /-- start of the 1 us pulse that runs on the pin -/
  pulse : Vector (Option Nat) 2 := #v[none, none]
deriving DecidableEq, Repr

/-! ### Keystone settings -/

/-- LINK_CONFIG settings (R76). -/
structure LinkCfg where
  enable : Bool := false
  rate : Fin 3 := 0
  pitch : Dword := 0x00010000
  frameLead : BitVec 16 := 0
deriving DecidableEq, Repr

/-- WEB_CONFIG settings (R264). -/
structure WebCfg where
  num : BitVec 24 := 0
  den : BitVec 24 := 0
  bandwidth : BitVec 12 := 0
  pass : Bool := false
  invert : Bool := false
  coast : BitVec 12 := 0
deriving DecidableEq, Repr

/-- WAVE_BANK settings (R283). -/
structure WaveCfg where
  fixed : Bool := true
  bank : Fin 4 := 0
  up : BitVec 18 := 0
  down : BitVec 18 := 0
deriving DecidableEq, Repr

/-- The settings that a keystone commits (R175): the KS registers as dwords, and the settings of the KS commands. -/
structure Ks where
  lookahead : Dword := 0x00000038
  pool : Dword := 0x00000408
  webCtrl : Dword := 0x00000004
  passF : Dword := 0
  passR : Dword := 0
  markCtrl : Dword := 0x00000001
  markWin : Dword := 0
  rfm : Dword := 0x00200006
  class0 : Dword := 0x33333333
  class1 : Dword := 0x00006504
  arbEnable : Dword := 0x00000FFF
  reg : Vector Dword 4 := Vector.replicate 4 0x00400000
  integ : Dword := 0x00020000
  pace : Dword := 0x00000020
  clkout : Vector Dword 2 := Vector.replicate 2 0x0882625A
  evtOut : Vector Dword 2 := Vector.replicate 2 0
  link : Vector LinkCfg 32 := Vector.replicate 32 {}
  web : WebCfg := {}
  wave : Vector WaveCfg 32 := Vector.replicate 32 {}
  /-- a WEB_CONFIG has been loaded since the last keystone -/
  webSet : Bool := false
  /-- links whose WAVE_BANK has been loaded since the last keystone -/
  waveSet : BitVec 32 := 0
deriving DecidableEq, Repr

/-- Shadows, settings in force, and the keystones that wait for a course boundary (R11, R175, R421). -/
structure Keystone where
  shadow : Ks := {}
  force : Ks := {}
  /-- settings accepted and waiting for the boundary -/
  accepted : Option Ks := none
  /-- shadow banks accepted and waiting, by channel -/
  banks : Vector Bool 2 := #v[false, false]
  seq : Nat := 0
  outcome : Fin 4 := 0
  detail : Nat := 0
  /-- KEYSTONE commands that wait for the boundary, with their sequence numbers -/
  cmds : List (Nat × Nat) := []
  /-- requesters disabled at a keystone: commands that started before this number keep them taking part (R312) -/
  offAt : Vector Nat 12 := Vector.replicate 12 0
deriving DecidableEq, Repr

/-! ### Raster memory and strips -/

/-- A filling ashlar, the command whose write fills it and its requester (R91, R92). When that command has been stopped: the
bursts that it had not written, and whether the ashlar goes back unwritten at the end (R42, R119). -/
structure Fill where
  ashlar : Nat
  cmd : Nat
  req : Fin 12 := 8
  rest : Option (List Nat) := none
  back : Bool := false
deriving DecidableEq, Repr

/-- Raster memory: the map, hash and sparing settings (R82 to R96), the allocation table (R88), the ashlar map (R90) and the
stored codewords. -/
structure Raster where
  /-- 1: single-channel map (R83) -/
  single : Bool := false
  /-- channel that carries the single-channel map -/
  only : ChanId := 0
  /-- device density in Gbit (R87) -/
  density : Nat := 16
  /-- HASH_CH, HASH_BG0 to HASH_BG2, HASH_BA0, HASH_BA1: shadow and in force (R95) -/
  maskShadow : Vector (BitVec 17) 6 := #v[0x00820, 0x00041, 0x00082, 0x00104, 0x00208, 0x00410]
  mask : Vector (BitVec 17) 6 := #v[0x00820, 0x00041, 0x00082, 0x00104, 0x00208, 0x00410]
  /-- SPARE_CONTROL: shadow and in force -/
  spareShadow : Dword := 0
  spare : Dword := 0
  refused : Bool := false
  reason : Fin 4 := 0
  /-- allocated ashlars with their partition, ascending -/
  alloc : List (Nat × Fin 16) := []
  /-- written ashlars, ascending -/
  written : List Nat := []
  filling : List Fill := []
  /-- logical rank to physical rank of each channel, as the sparing set and migrations leave it (R86, R355) -/
  phys : Vector (Vector (Option RankId) 4) 2 := Vector.replicate 2 (Vector.replicate 4 none)
  /-- stored codewords: byte k of the 80-bit codeword of word w is the cell 10 w + k; an unlisted cell reads 0
  (DESIGN CHOICE, log entry 9) -/
  dram : List Host.Cell := []
deriving DecidableEq, Repr

/-- A strip record (R107, R108). -/
structure Strip where
  idx : Nat
  gen : Nat
  /-- false: the record is free and keeps its generation -/
  live : Bool := true
  raw : Bool := false
  part : Fin 16 := 0
  lines : Nat := 0
  words : Nat := 0
  sealed : Bool := false
  poisoned : Bool := false
  /-- raw strip: address of line 0 and stride -/
  addr : Nat := 0
  stride : Nat := 0
  /-- compressed strip: stream extents (first ashlar, count) and index ashlars -/
  extents : List (Nat × Nat) := []
  index : List Nat := []
  /-- compressed strip: stream length in bits (tail position), and END of the last line (R109, R120) -/
  bits : Nat := 0
  lastEnd : Nat := 0
deriving DecidableEq, Repr

/-- A compressor engine (R126 to R129). -/
structure Compressor where
  inService : Bool := true
  /-- command held -/
  job : Option Nat := none
  /-- out of service by a fault or a failed test, not by its share -/
  broken : Bool := false
  /-- a SELF_TEST that waits for the command held -/
  test : Option Nat := none
deriving DecidableEq, Repr

/-! ### Courses and pages -/

/-- A course table bank (R151, R174). -/
structure Bank where
  entries : List (BitVec 64) := []
  tableId : Dword := 0
  slots : Nat := 0
  /-- loaded since it last ceased to be active -/
  loaded : Bool := false
deriving DecidableEq, Repr

/-- Drain states (R188). -/
inductive Drain where
  | halted | running | halting
deriving DecidableEq, Repr

/-- Page states (R165); a DONE page has left the queue. -/
inductive PageState where
  | queued | filling | firing
deriving DecidableEq, Repr

/-- One link's part of a page: the record of R166 and what has become of its lines. -/
structure PageLink where
  strip : Dword := 0
  firstLine : Nat := 0
  lines : Nat := 0
  phaseLines : BitVec 32 := 0
  phaseFrac : BitVec 16 := 0
  blank : Bool := false
  phaseValid : Bool := false
  /-- fire phase and pitch for the page, in 1/65,536 line, fixed when the fill starts (R172, R270) -/
  phase : Int := 0
  pitch : Nat := 65536
  /-- link line count of the link's first line of the page (R233) -/
  base : Nat := 0
  /-- lines taken, next line to commit or skip, next line to frame -/
  taken : Nat := 0
  commit : Nat := 0
  frame : Nat := 0
  /-- lines skipped while an earlier line's marker had not left: a withdrawal does not bring them back -/
  passed : List Nat := []
deriving DecidableEq, Repr

/-- A page in the queue (R165, R166, R170). -/
structure Page where
  id : BitVec 16
  reverse : Bool := false
  haltAfter : Bool := false
  length : Nat := 1
  gap : Nat := 0
  tableA : Dword := 0
  tableB : Dword := 0
  links : Vector PageLink 32 := Vector.replicate 32 {}
  st : PageState := .queued
  /-- start line S in the travel coordinate -/
  start : Int := 0
  /-- the position has reached S -/
  passed : Bool := false
deriving DecidableEq, Repr

/-- The course sequencer and the drain (R132, R165 to R190). -/
structure Seq where
  /-- courses have started since DRAM_TRAIN -/
  started : Bool := false
  number : Nat := 0
  /-- the course under way: fill, short, and its start -/
  fill : Bool := false
  short : Bool := false
  begun : Nat := 0
  /-- the last completed course (COURSE_STATUS) -/
  lastFill : Bool := false
  lastShort : Bool := false
  overrunOpen : Bool := false
  wait : Nat := 0
  debt : Nat := 0
  drain : Drain := .halted
  haltMode : Fin 3 := 0
  haltCmds : List Nat := []
  /-- mode 1: the integer positions below and above, in lines, at the first of which the halt completes -/
  haltAt : Option (Int × Int) := none
  /-- for HALT_DRAIN: lines that every link of the last page to fire has fired or skipped, and that page, since RUN -/
  lastLine : Option (Nat × BitVec 16) := none
  /-- results of the last halt, RESULT0 and RESULT1 -/
  haltR0 : Dword := 0xFFFFFFFF
  haltR1 : Dword := 0xFFFFFFFF
  /-- source 74 may be raised, and the smallest lead when it was last tested (R181) -/
  leadArmed : Bool := true
  lastLead : Option Nat := none
  /-- S + LENGTH of the last page whose fill started since the last RUN -/
  prevEnd : Option Int := none
  /-- the predecessor's fill completed at the last boundary and no halt ended it (R170) -/
  joinable : Bool := false
  /-- the next page is the first of a pass (R266) -/
  firstOfPass : Bool := true
  pages : List Page := []
deriving DecidableEq, Repr

/-! ### Decoding -/

/-- Decoder engine states with codes 0 to 3 (R215). -/
inductive EngineState where
  | serving | spare | out | absent
deriving DecidableEq, Repr

/-- A decoder engine: its state, the decoder state it holds, and its input buffer of stream bursts (R195, R196). A burst is
its number, its bytes, and the first bad word of it. -/
structure Engine where
  st : EngineState := .serving
  dec : Inflate := {}
  input : List (Nat × BitVec 512) := []
deriving DecidableEq, Repr

/-- Causes of a poisoned line with codes 1 to 8 (R207). -/
inductive PoisonCause where
  | underrun | streamEnd | streamError | outputLimit | ueData | poisonData | engineFault | slotUe
deriving DecidableEq, Repr

/-- The code of a cause of a poisoned line (R207). -/
def PoisonCause.code : PoisonCause → Nat
  | .underrun => 1 | .streamEnd => 2 | .streamError => 3 | .outputLimit => 4
  | .ueData => 5 | .poisonData => 6 | .engineFault => 7 | .slotUe => 8

/-- What a used burst is read for (R140, R193, R194). -/
inductive Use where
  /-- stream burst b of a compressed strip -/
  | stream (b : Nat)
  /-- burst k of a raw line -/
  | raw (k : Nat)
  /-- index burst j of the strip of a page; `prime` when it is read before the link's first fill -/
  | index (page : BitVec 16) (j : Nat) (prime : Bool)
deriving DecidableEq, Repr

/-- A used burst of the course: its address and its use. -/
structure Used where
  addr : Nat
  use : Use
deriving DecidableEq, Repr

/-- A line slot of a link's ring, with its slot record (R218). -/
structure Slot where
  page : BitVec 16
  line : Nat
  words : Nat
  complete : Bool := false
  /-- the POISON flag of the slot record -/
  poison : Bool := false
  image : List Byte := []
deriving DecidableEq, Repr

/-- The fetch state and the line under way of a link (R191, R198). -/
structure Fetch where
  strip : Dword := 0
  page : BitVec 16 := 0xFFFF
  nextLine : Nat := 0
  nextBurst : Nat := 0
  /-- index buffer: (index burst, its eight entries) -/
  index : List (Nat × List (BitVec 64)) := []
  /-- index words that decoded bad, by line, with POISON or not and the word's address -/
  badIndex : List (Nat × Bool × Nat) := []
  /-- index bursts that were due and not read, oldest first (R193) -/
  owed : List Nat := []
  /-- page whose first index burst has been primed, with its entries and its bad words -/
  primed : Option (BitVec 16 × List (BitVec 64) × List (Nat × Bool × Nat)) := none
  /-- bursts to be read in this course, by channel and subchannel -/
  want : List Used := []
  /-- bursts of the line that will not be read (R142, R157, R192) -/
  missing : List Nat := []
  /-- stream byte offsets and raster addresses of bad words read, with POISON or not -/
  badWords : List (Nat × Nat × Bool) := []
  /-- the line under way -/
  busy : Bool := false
  /-- the rest of the link's lines of the page are poisoned (R208) -/
  poisoning : Bool := false
  /-- at the last course boundary the engine had not finished the link's previous line (R215) -/
  late : Bool := false
  /-- the last course in which the link took no line only because its engine was late (R201) -/
  lateCourse : Option Nat := none
deriving DecidableEq, Repr

/-! ### Links -/

/-- Link states with codes 0 to 5 (R251). -/
inductive LinkState where
  | absent | disabled | untrained | up | down | rejoin
deriving DecidableEq, Repr

/-- The code of a link state (R251). -/
def LinkState.code : LinkState → Nat
  | .absent => 0 | .disabled => 1 | .untrained => 2 | .up => 3 | .down => 4 | .rejoin => 5

/-- Training steps of a link (R241). -/
inductive TrainStep where
  | idle | search | ident | test | status | measure
deriving DecidableEq, Repr

/-- What a head board declares in IDENT (R247). -/
structure Board where
  identity : Dword := 0
  rates : Byte := 0
  buffers : Nat := 0
  maxWords : Nat := 0
  minFrameLead : Nat := 0
  fireLatency : Nat := 0
  turnaround : Nat := 0
deriving DecidableEq, Repr

/-- A committed FIRE marker (R235, R272): symbol boundary and fire instant in tau, fine delay. -/
structure Marker where
  page : BitVec 16
  line : Nat
  count : Nat
  boundary : Nat
  fine : Nat
  instant : Nat
  sent : Bool := false
deriving DecidableEq, Repr

/-- A LINK_MSG being sent (R240, R248). -/
structure Sending where
  cmd : Nat
  start : Nat
  seq : Option Byte := none
  sentAt : Nat := 0
deriving DecidableEq, Repr

/-- A Funil link and what the drain keeps for it. -/
structure Link where
  st : LinkState := .disabled
  /-- cause of the last fall to DOWN (R252), and of the last failed training (R241) -/
  downCause : Nat := 0
  trainCause : Nat := 0
  /-- lane rate in force; 3 for none -/
  rate : Fin 4 := 3
  board : Board := {}
  step : TrainStep := .idle
  /-- LINK_TRAIN under way on the link, with its start -/
  trainCmd : Option Nat := none
  stepStart : Nat := 0
  testFrames : Nat := 0
  testBad : Bool := false
  echoes : Nat := 0
  /-- round trips in 1/256 symbol, newest first -/
  trips : List Nat := []
  lat : Nat := 0
  latTrained : Nat := 0
  /-- next frame's SEQ (R232) -/
  seq : Byte := 0
  /-- link line count of the link's next line (R233) -/
  count : Nat := 0
  /-- link line counts of frames held at the board (R238) -/
  held : List Nat := []
  /-- markers sent since the last ECHO (R245) -/
  sinceEcho : Nat := 0
  /-- SEQs of the IDENT_REQ and ECHO frames whose replies are to come, oldest first (R247) -/
  awaited : List Byte := []
  markers : List Marker := []
  /-- boundary of the last marker sent (R230) -/
  lastMark : Option Nat := none
  inbox : List (List Byte) := []
  sending : Option Sending := none
  badReturns : Nat := 0
  lastReturn : Nat := 0
  lastStatus : BitVec 128 := 0
  /-- markers sent since training, and the STATUS frames of the last 256 markers: discarded frames, markers sent by then -/
  marked : Nat := 0
  statuses : List (Nat × Nat) := []
  /-- time at which the lane has carried its last frame and two idles -/
  laneFree : Nat := 0
  noData : Nat := 0
  aborted : Nat := 0
  /-- wave bank of the last LINE frame, and whether automatic mode has sent one since it took force -/
  bank : Fin 4 := 0
  autoStarted : Bool := false
  /-- fire phase in force, and one that binds to the next page (R172), in 1/65,536 line -/
  phase : Int := 0
  phaseNext : Option Int := none
  engine : Option (Fin 34) := none
  fetch : Fetch := {}
  slots : List Slot := []
deriving DecidableEq, Repr

/-! ### The web loop -/

/-- Web loop states with codes 0 to 4 (R260). -/
inductive WebState where
  | off | acquire | locked | coasting | lost
deriving DecidableEq, Repr

/-- The code of a web loop state (R260). -/
def WebState.code : WebState → Nat
  | .off => 0 | .acquire => 1 | .locked => 2 | .coasting => 3 | .lost => 4

/-- A course of the position in time: position, velocity and acceleration at a moment (R261). -/
structure Motion where
  p : Int := 0
  v : Int := 0
  a : Int := 0
  at_ : Nat := 0
deriving DecidableEq, Repr

/-- The web loop, the encoder and the MARK input (R257 to R284). Positions are in 1/65,536 line. -/
structure Web where
  st : WebState := .off
  /-- the loop's estimate since its last correction (R261) -/
  est : Motion := {}
  /-- the position while it does not follow the estimate: in OFF, ACQUIRE and LOST (R260) -/
  held : Int := 0
  /-- how the position moved before, newest first, each until a time: as far back as the MARK filter reaches (R280) -/
  past : List (Nat × Motion) := []
  /-- levels of A and B, and the times of their last edges (R257, R258) -/
  inA : Bool := false
  inB : Bool := false
  edgeA : Option Nat := none
  edgeB : Option Nat := none
  /-- two edges have come less than 2 ns apart, which has not been declared yet (R258) -/
  illegal : Bool := false
  /-- times of the counts of the last microsecond, newest first (R258) -/
  recent : List Nat := []
  /-- encoder count, and the position that a count of `countBase` stands for -/
  count : Int := 0
  countBase : Int := 0
  posBase : Int := 0
  /-- counts since the loop's last update: their times and the boundaries that they crossed (R261) -/
  stamps : List (Nat × Int) := []
  /-- time of the loop's last update -/
  updated : Nat := 0
  /-- time of the last count, or of the entry into ACQUIRE; consecutive counts within 1/8 count and beyond 1/2 count (R262) -/
  lastCount : Nat := 0
  lockRun : Nat := 0
  offRun : Nat := 0
  /-- high-water mark H (R276) -/
  hwm : Int := 0
  armed : Bool := false
  reverse : Bool := false
  /-- furthest count reached in the declared direction (R275) -/
  furthest : Int := 0
  lossCause : Nat := 0
  /-- settings in force, and a change that waits for a halt (R264) -/
  cfg : WebCfg := {}
  pending : Option WebCfg := none
  coastFrom : Nat := 0
  /-- valid counts since the encoder came back -/
  valid : Nat := 0
  /-- count at the last Z edge (R259) -/
  indexRef : Option Int := none
  /-- position of the last accepted mark, absolute and in the travel coordinate -/
  markPos : Int := 0
  markLast : Option Int := none
  chatterRaised : Bool := false
  /-- WEB_COUNT and MARK_COUNT -/
  skipped : Nat := 0
  slips : Nat := 0
  outside : Nat := 0
  accepted : Nat := 0
  chatter : Nat := 0
  /-- start line of the page whose boundary last passed -/
  lastStart : Option Int := none
deriving DecidableEq, Repr

/-! ### DRAM channels -/

/-- Channel states with codes 0 to 9 (R308). -/
inductive ChanState where
  | absent | untrained | training | service | quiesce | sreIssued | selfRefresh | exiting | quenched | domainOff
deriving DecidableEq, Repr

/-- The code of a channel state (R308). -/
def ChanState.code : ChanState → Nat
  | .absent => 0 | .untrained => 1 | .training => 2 | .service => 3 | .quiesce => 4
  | .sreIssued => 5 | .selfRefresh => 6 | .exiting => 7 | .quenched => 8 | .domainOff => 9

/-- Rank states with codes 0 to 5 (R308). -/
inductive RankState where
  | notFitted | failed | inService | spare | retired | degraded
deriving DecidableEq, Repr

/-- The code of a rank state (R308). -/
def RankState.code : RankState → Nat
  | .notFitted => 0 | .failed => 1 | .inService => 2 | .spare => 3 | .retired => 4 | .degraded => 5

/-- Rank health with codes 0 to 3 (R347). -/
inductive Health where
  | good | ceHigh | retireDue | failing
deriving DecidableEq, Repr

/-- The code of a rank's health (R347). -/
def Health.code : Health → Nat
  | .good => 0 | .ceHigh => 1 | .retireDue => 2 | .failing => 3

/-- Refresh credit, activate count, mitigation need, and window activates of each port, of one subchannel and bank index
(R158, R297, R298). -/
structure BankIdx where
  credit : Int := 0
  /-- time at which the refresh timer subtracts next (R158) -/
  timer : Nat := 0
  /-- end of a REFsb or RFMsb in progress (R149, R155) -/
  busyTo : Nat := 0
  /-- activates by bank group; RAA is the largest -/
  raas : Vector Nat 8 := Vector.replicate 8 0
  need : Bool := false
  acts : Vector Nat 4 := Vector.replicate 4 0
deriving DecidableEq, Repr

/-- What training and drift steps have set for one subchannel of a rank (R288, R293): the read and write centres and the write
DQ delay in 1/64 UI against those of training, and the oscillator count at training. -/
structure Centring where
  read : Int := 0
  write : Int := 0
  delay : Int := 0
  count : Nat := 0
deriving DecidableEq, Repr

/-- A physical rank. -/
structure Rank where
  st : RankState := .notFitted
  temp : Nat := 0
  /-- consecutive readings of 80 degrees or less, at most 4 (R296) -/
  cool : Nat := 4
  over95 : Bool := false
  /-- the rank has read above 85 degrees since the last course boundary (R296) -/
  sawHot : Bool := false
  /-- RAAIMT and RAAMMT of the rank's devices (R297) -/
  raaimt : Nat := 0
  raammt : Nat := 0
  centring : Vector Centring 2 := Vector.replicate 2 {}
  /-- mode registers read back so far: the rotation's place (R301) -/
  mrTurn : Nat := 0
  /-- time before which ZQCal Latch may not issue, and that before which no command goes to the rank after it (R149) -/
  zqReady : Nat := 0
  zqTo : Nat := 0
  powerDown : Bool := false
  selfRefresh : Bool := false
  /-- slots that the channel had run at the last command to the rank (R302) -/
  lastUse : Nat := 0
  lastMismatch : Option Nat := none
  health : Health := .good
  ceHour : Nat := 0
  ueDay : Nat := 0
  ueTen : Nat := 0
  /-- CE_HIGH has raised its source in this interval -/
  ceRaised : Bool := false
  /-- starts of the counting intervals of 3,600 s, 86,400 s and 10 ms (R346) -/
  hourFrom : Nat := 0
  dayFrom : Nat := 0
  tenFrom : Nat := 0
  banks : Vector BankIdx 8 := Vector.replicate 8 {}
deriving DecidableEq, Repr

/-- An open row (R291). -/
structure Row where
  rank : RankId
  sub : SubId
  group : Fin 8
  bank : Fin 4
  row : Nat
  /-- time of its activate, and slots that the channel had run at its last access -/
  opened : Nat
  used : Nat
deriving DecidableEq, Repr

/-- What a transfer is for: a command in flight, a fill whose command has stopped (R92), the scrubber, or the migrator. -/
inductive Src where
  | cmd (id : Nat) | fill (ashlar : Nat) | scrub | mig
deriving DecidableEq, Repr

/-- A transfer (R311) presented to or granted by an arbiter. -/
structure Xfer where
  src : Src
  bursts : List Burst
  /-- time at which it was presented, and the slots that the channel had run by then (R317) -/
  presented : Nat
  born : Nat := 0
  /-- when it was first granted, for one that has been pre-empted (R320, R323) -/
  granted : Option Nat := none
  /-- the read half of this read-modify-write has issued, so its write half follows (R321) -/
  half : Bool := false
  /-- bursts that have taken effect while the guard holds the next -/
  done : Nat := 0
  /-- value of the slot counter at which its window closes (R314) -/
  closes : Nat := 0
deriving DecidableEq, Repr

/-- The window arbiter of a channel (R310 to R320). A requester presents the first transfer of its list; behind it wait the
rest of one that was trimmed, and the one presented before another was withdrawn (R314, R320). -/
structure Arb where
  reqs : Vector (List Xfer) 12 := Vector.replicate 12 []
  holder : Option (Fin 12 × Xfer) := none
  parked : Option (Fin 12) := none
  /-- time at which the last transfer ended -/
  freed : Nat := 0
  preemptions : Nat := 0
  overlapped : Bool := true
deriving DecidableEq, Repr

/-- The scrubber of a channel (R342 to R345). -/
structure Scrub where
  enable : Bool := true
  period : Nat := 3600
  threshold : Nat := 1024
  active : Bool := false
  late : Bool := false
  next : Nat := 0
  nextBurst : Nat := 0
  startedAt : Nat := 0
  /-- bursts left in the pass -/
  left : Nat := 0
  /-- the time from which the transfers of the pass come at even intervals, and the bursts left then: at the start of the pass, or
  where it resumed (R343, R345) -/
  paceFrom : Nat := 0
  count : Nat := 0
  prio : List Nat := []
  /-- bursts read that are to be written back (R344) -/
  back : List Nat := []
deriving DecidableEq, Repr

/-- Migration states with codes 0 to 3 (R350). -/
inductive MigState where
  | idle | copying | done | stopped
deriving DecidableEq, Repr

/-- The code of a migration state (R350). -/
def MigState.code : MigState → Nat
  | .idle => 0 | .copying => 1 | .done => 2 | .stopped => 3

/-- The migrator of a channel (R350 to R356). -/
structure Mig where
  st : MigState := .idle
  source : RankId := 0
  target : RankId := 0
  logical : RankId := 0
  /-- copy pointer: ashlar number and burst index -/
  ashlar : Nat := 0
  burst : Nat := 0
  poisoned : Nat := 0
  /-- transfers presented in this course (R353) -/
  paced : Nat := 0
  /-- bursts in transit: presented to be read from the source, and then to be written to the target (R352) -/
  transit : List Nat := []
  /-- the bursts in transit have been read, and how many of their words were uncorrectable -/
  hasRead : Bool := false
  bad : Nat := 0
  /-- a retirement that waits for a steward (R348) -/
  due : Option RankId := none
deriving DecidableEq, Repr

/-- A write burst that the controller keeps for replay (R299). -/
structure Kept where
  addr : Nat
  words : List (BitVec 80)
deriving DecidableEq, Repr

/-- The command trace and the write-CRC state of one subchannel (R299, R300, R363). -/
structure SubRec where
  /-- records of the last 512 commands, newest first (R364) -/
  trace : List (BitVec 128) := []
  kept : List Kept := []
  /-- writes to be replayed that the guard still holds, oldest first (R299) -/
  replay : List Kept := []
  alerts : List Nat := []
  stormAt : Option Nat := none
  storm : Bool := false
deriving DecidableEq, Repr

/-- An uncorrectable burst that the device remembers (R346): its address, its physical rank, and whether it has counted in
the present intervals of 86,400 s and of 10 ms. -/
structure Seen where
  addr : Nat
  rank : RankId
  day : Bool := true
  ten : Bool := true
deriving DecidableEq, Repr

/-- What trains ranks of a channel while the device runs: RETRAIN with FULL (R307), RANK_REINSTATE (R357), a change of MEM
(R382), or the switch-on of its domain (R393). -/
inductive TrainFor where
  | retrain (cmd : Nat) | reinstate (cmd : Nat) | speed | domain
deriving DecidableEq, Repr

/-- A DRAM channel with its controller. -/
structure Chan where
  st : ChanState := .untrained
  hot : Bool := false
  mts : Nat := 0
  ranks : Vector Rank 4 := Vector.replicate 4 {}
  subs : Vector SubRec 2 := Vector.replicate 2 {}
  rows : List Row := []
  banks : Vector Bank 2 := Vector.replicate 2 {}
  active : Fin 2 := 0
  /-- the slot counter (R131, R156): MCK of the course that it had run at a time from which it runs on; that time lies ahead
  while a hold of known length lasts -/
  base : Nat := 0
  from_ : Nat := 0
  /-- slots of earlier courses, by which requests age (R317) -/
  slotBase : Nat := 0
  /-- entries of the course that have still to act, in START order, and the slots that the course skips (R183) -/
  due : List Nat := []
  skipped : List Nat := []
  /-- ZQCAL entries whose Latch is still to issue (R146) -/
  latch : List Nat := []
  /-- overlay entries that block banks of a subchannel in this course, since they have issued a command (R136, R145, R159) -/
  blocks : List (Nat × SubId) := []
  /-- for each FETCH entry that was given bursts in this course, how many on the fuller subchannel (R141) -/
  given : List (Nat × Nat) := []
  /-- bursts that the FETCH entry under way has read, by subchannel -/
  fetched : Vector Nat 2 := #v[0, 0]
  /-- slot, in MCK of the counter, at which the guard inserts a forced command (R160, R297) -/
  forcedAt : Option Nat := none
  /-- bank indices for which an activate is held at RAAMMT (R297), and the time to which the last forced command holds the
  counter (R160) -/
  rfmDue : List (RankId × SubId × Fin 4) := []
  forcedTo : Nat := 0
  /-- DRAM_CRC -/
  replays : Nat := 0
  storms : Nat := 0
  mismatches : Nat := 0
  /-- ECC_COUNT -/
  eccCorrected : Nat := 0
  eccUncorrectable : Nat := 0
  arb : Arb := {}
  scrub : Scrub := {}
  mig : Mig := {}
  /-- armed injection: word address and flips by position (R340) -/
  armed : Option (Nat × BitVec 80) := none
  /-- last 256 addresses of uncorrectable bursts (R346) -/
  ueSeen : List Seen := []
  /-- training of ranks that is under way, and the ranks left -/
  service : Option (TrainFor × List RankId) := none
deriving DecidableEq, Repr

/-- A regulator's bucket (R324). -/
structure Bucket where
  tokens : Nat := 0
  passed : Nat := 0
deriving DecidableEq, Repr

/-- The self-refresh sequence of the device (R304, R305) and DRAM_SR. -/
structure SelfRef where
  /-- since when the conditions of R304 hold -/
  idleFrom : Nat := 0
  /-- the entry of R304 for idleness is under way or in force -/
  idle : Bool := false
  /-- a request waits for exit (R304) -/
  wanted : Bool := false
  entries : Nat := 0
  aborts : Nat := 0
deriving DecidableEq, Repr

/-- A quench dump (R362, R363): its index, scope, cause, channel mask, header of 64 bytes, and its number since power-on. -/
structure Dump where
  index : Nat
  scope : Nat
  cause : Nat
  mask : Nat
  header : BitVec 512
  serial : Nat
  /-- the decode records at capture, oldest first -/
  records : List (BitVec 256) := []
  /-- the command traces at capture, of A0, A1, B0 and B1, oldest record first -/
  traces : List (List (BitVec 128)) := []
deriving DecidableEq, Repr

/-- Quench state (R360 to R367). -/
structure Quench where
  device : Bool := false
  chans : Vector Bool 2 := #v[false, false]
  cause : Nat := 0
  /-- dumps captured since AON gained power -/
  captured : Nat := 0
  dumps : List Dump := []
  /-- the last 256 decode records other than CLEAN, oldest first -/
  recent : List (BitVec 256) := []
deriving DecidableEq, Repr

/-! ### Clocks, power, start-up -/

/-- Loop states with codes 0 to 5 (R374). -/
inductive LoopState where
  | off | acquire | locked | coasting | relock | stopped
deriving DecidableEq, Repr

/-- The code of a loop state (R374). -/
def LoopState.code : LoopState → Nat
  | .off => 0 | .acquire => 1 | .locked => 2 | .coasting => 3 | .relock => 4 | .stopped => 5

/-- A multiplying loop (R371, R372, R378). -/
structure Loop where
  st : LoopState := .off
  inTol : Nat := 0
  missed : Nat := 0
  monBad : Nat := 0
  coastFrom : Nat := 0
  /-- CLK_MON error in 0.01 % -/
  err : Int := 0
  /-- start of the window of 2.56 us that runs (R372) -/
  window : Nat := 0
  /-- when the spread profile last started, and the place in it, in tau, from which it did; none while it does not run (R375, R379) -/
  spread : Option (Nat × Nat) := none
deriving DecidableEq, Repr

/-- The settings of the loops: CLK_PLAN and CLK_STATUS hold one each (R389). MEM_RATE 3 is none. -/
structure ClkSet where
  memRate : Fin 4 := 3
  coreDepth : Fin 11 := 0
  coreMode : Fin 3 := 0
  memDepth : Fin 11 := 0
  memMode : Fin 3 := 0
deriving DecidableEq, Repr

/-- A frequency change under way (R382, R385): its loop, the former settings, its time, whether the loop has locked, and
whether the device is on its way back. -/
structure Change where
  loop : LoopId
  former : ClkSet
  target : ClkSet
  start : Nat
  locked : Bool := false
  back : Bool := false
deriving DecidableEq, Repr

/-- Clock synthesis (R368 to R389). -/
structure Clk where
  refSel : BitVec 2 := 0
  refOk : Bool := false
  loops : Vector Loop 3 := Vector.replicate 3 {}
  plan : ClkSet := {}
  force : ClkSet := {}
  change : Option Change := none
  refused : Bool := false
  reason : Nat := 0
  /-- an orderly stop has run (R380) -/
  stopped : Bool := false
  calibrated : Nat := 0
  /-- ends of the holds of CLKOUT0 and CLKOUT1 at their low states (R388) -/
  outHeld : Vector Nat 2 := #v[0, 0]
deriving DecidableEq, Repr

/-- The boot record copy of R401. -/
structure BootRec where
  seq : Nat := 0
  slotB : Bool := false
  valid : Bool := false
deriving DecidableEq, Repr

/-- Start-up, resets and images (R391 to R410). -/
structure Boot where
  /-- boot stage code (R399) -/
  stage : Nat := 0
  cause : Nat := 0
  fails : Nat := 0
  lastReset : Nat := 0
  force : Bool := false
  slotB : Bool := false
  fellBack : Bool := false
  /-- versions of the images in slots A and B; none when the slot holds no valid image -/
  versionA : Option Dword := none
  versionB : Option Dword := none
  /-- the running image (R401) -/
  image : ImageInfo := {}
  recs : Vector BootRec 2 := Vector.replicate 2 {}
  /-- the bytes of the staged image, none where no piece has come, and whether the last piece has come (R79) -/
  staged : List (Option Byte) := []
  stagedAll : Bool := false
  /-- start of RUNNING (R404) -/
  runningFrom : Option Nat := none
  /-- a scheduled RESET_DEVICE: its time and whether it is full (R79) -/
  resetAt : Option (Nat × Bool) := none
  /-- raster memory may be kept by the start that follows (R98, R398), and the last reset was a warm one -/
  keep : Bool := false
  warm : Bool := false
  /-- records that AON keeps for the RESET entry (R410): stage at failure and version that ran -/
  failStage : Nat := 0
  ranVersion : Dword := 0
  ranSlotB : Bool := false
deriving DecidableEq, Repr

/-- Power domains, rails and die temperature (R391 to R394, R406). -/
structure Power where
  /-- domains powered, in the bit order of POWER_POLICY -/
  on : BitVec 8 := 0x01
  /-- switches to do, in order -/
  todo : List (DomainId × Bool) := []
  /-- POWER_POLICY that waits for them -/
  cmd : Option Nat := none
  /-- cause of byte 14 of a DOMAIN entry -/
  cause : Nat := 0
  pdIdle : Bool := false
  srIdle : Bool := false
  srDelay : Nat := 1
  dieTemp : BitVec 16 := 0
  dieWarn : Bool := false
  thermalStop : Bool := false
  /-- rails under warning -/
  warned : Vector Bool 7 := Vector.replicate 7 false
  /-- time at which ARM received 0x4D (R425) -/
  armed : Option Nat := none
deriving DecidableEq, Repr

/-! ### Outputs -/

/-- What the device puts out: posted writes and messages to hosts, answers to register reads, frames and markers. -/
inductive Out where
  /-- data written to host memory -/
  | hostWrite (h : HostId) (addr : Nat) (data : List Byte)
  /-- a completion entry of R59 written at an index of a queue's completion ring -/
  | completion (h : HostId) (q : QueueId) (index : Nat) (entry : BitVec 128)
  /-- an MSI-X message -/
  | msix (h : HostId) (v : Fin 32)
  /-- data of a completed register read -/
  | readData (h : HostId) (data : BitVec 64)
  /-- a BAR0 write that completes normally with no effect -/
  | ack (h : HostId)
  /-- an Unsupported Request completion -/
  | unsupported (h : HostId)
  /-- a frame on a transmit lane (R231): its 16-byte header, its payload and its CRC -/
  | frame (n : LinkId) (header : BitVec 128) (payload : List Byte) (crc : Dword)
  /-- a frame ended early by K29.7 (R250): its header and the payload symbols that have gone out -/
  | abortedFrame (n : LinkId) (header : BitVec 128) (payload : List Byte)
  /-- a FIRE marker: boundary in tau, FINE, LINE[7:0] -/
  | marker (n : LinkId) (boundary fine : Nat) (line : Byte)
  /-- bytes programmed into the flash slot that did not boot -/
  | flash (slotB : Bool) (offset : Nat) (data : List Byte)
  /-- a DRAM command other than an access to a row, coded as in R364 -/
  | dramCmd (c : ChanId) (code : Nat) (r : RankId) (u : SubId) (b : Nat)
deriving DecidableEq, Repr

/-- The state of the device. -/
structure State where
  part : Part
  /-- commands waiting to be taken by a step, first in, first out -/
  pending : List Instr
  /-- time in tau since the last device reset -/
  time : Nat
  /-- the model's own counter: how many free values have been used (DESIGN CHOICE, log entry 11) -/
  free : Nat
  hosts : Vector HostRec 4
  role : Role
  parts : Vector Partition 16
  cmds : List Cmd
  nextId : Nat
  logs : Logs
  events : Events
  ks : Keystone
  raster : Raster
  strips : List Strip
  comps : Vector Compressor 8
  /-- host served last by the compressors (R126) -/
  compTurn : HostId
  /-- output bursts of the engines that are to be presented, in the order in which they were produced (R311) -/
  writeback : List (Nat × Burst)
  seq : Seq
  engines : Vector Engine 34
  /-- anvil extension in force, the staging of each port in quarters of 64 KiB, and the compressor shares in force (R221, R223) -/
  anvilExtra : Nat
  staging : Vector Nat 4
  shares : Nat
  links : Vector Link 32
  web : Web
  chans : Vector Chan 2
  buckets : Vector Bucket 4
  sr : SelfRef
  quench : Quench
  /-- end of the last token period (R324) -/
  refilled : Nat
  /-- INTEG_CTRL.TEST (R341) -/
  integTest : Bool
  clk : Clk
  boot : Boot
  power : Power
  /-- register reads of 4 or 8 bytes that wait while CCK is gated (R382), oldest first -/
  reads : List (HostId × BitVec 16 × Bool)
  /-- outputs, newest first -/
  out : List Out
deriving DecidableEq, Repr

/-- Reasons for a fault. -/
inductive Fault where
  /-- No command of the block raises it: the manual names no event at which the machine stops for good. It keeps the
  type of the host's interface inhabited; safe. -/
  | none
deriving DecidableEq, Repr

/-- Reasons for a refusal. -/
inductive Refusal where
  /-- An arm of exec without a meaning raises it, with its mnemonic; safe. -/
  | notModelled (mnemonic : String)
deriving DecidableEq, Repr

/-- Partition h is reserved for host h for every port that the part has, and nothing is owned (R35). -/
def resetParts (part : Part) : Vector Partition 16 :=
  Vector.ofFn fun i : Fin 16 =>
    if h : i.val < 4 then
      if i.val < part.ports then { reserved := some ⟨i.val, h⟩ } else {}
    else {}

/-- Engine Dn serves link Ln; D32 and D33 are spares; D16 to D31 are absent on the ZR1618 (R196). -/
def resetEngines (part : Part) : Vector Engine 34 :=
  Vector.ofFn fun i : Fin 34 =>
    if 32 ≤ i.val then { st := .spare } else if i.val < part.links then { st := .serving } else { st := .absent }

/-- Every link that the part has is DISABLED and served by its own engine (R196, R251). -/
def resetLinks (part : Part) : Vector Link 32 :=
  Vector.ofFn fun i : Fin 32 =>
    if i.val < part.links then
      { st := .disabled, engine := some ⟨i.val, by omega⟩ }
    else { st := .absent }

/-- Channel A, and channel B where the part has it, untrained (R308). -/
def resetChans (part : Part) : Vector Chan 2 :=
  match part with
  | .zr3218 => #v[{}, {}]
  | .zr1618 => #v[{ arb := { overlapped := false } }, { st := .absent, arb := { overlapped := false } }]

/-- Compressor engines that the part has are in service (R126, R196). -/
def resetComps (part : Part) : Vector Compressor 8 :=
  Vector.ofFn fun i : Fin 8 => { inService := decide (i.val < part.compressors) }

/-- KS settings after reset; ARB_ENABLE lacks the absent requesters on the ZR1618 (R327). -/
def resetKs (part : Part) : Ks :=
  match part with
  | .zr3218 => {}
  | .zr1618 => { arbEnable := 0x00000F0F }

/-- Eligibility after reset: every port that the part has (R33). -/
def resetRole (part : Part) : Role :=
  match part with
  | .zr3218 => {}
  | .zr1618 => { eligible := 0b0011 }

/-- A part with everything at its reset value: boot stage POR, every port DOWN, nothing trained (R396, R399). -/
def State.init (part : Part) : State where
  part := part
  pending := []
  time := 0
  free := 0
  hosts := Vector.replicate 4 {}
  role := resetRole part
  parts := resetParts part
  cmds := []
  nextId := 0
  logs := {}
  events := {}
  ks := { shadow := resetKs part, force := resetKs part }
  raster := {}
  strips := []
  comps := resetComps part
  compTurn := 3
  writeback := []
  seq := {}
  engines := resetEngines part
  anvilExtra := 0
  staging := Vector.replicate 4 4
  shares := 8
  links := resetLinks part
  web := {}
  chans := resetChans part
  buckets := Vector.replicate 4 {}
  sr := {}
  quench := {}
  refilled := 0
  integTest := false
  clk := {}
  boot := {}
  power := {}
  reads := []
  out := []

/-- The device right after power-on reset. DESIGN CHOICE: the ZR3218 (log entry 4), with every
register to which the manual gives no reset value at the value of log entry 6. -/
def State.reset : State := State.init .zr3218

end Sys2Proof.Machine
end

