-- ==== Sys2Proof/Machine/Ops.lean ====
section
/-! DEFINITION. The named operations over the state's parts: reading and changing one host, queue, link, channel, rank or
command; the log; the outputs. -/

namespace Sys2Proof.Machine

/-- A vector with one element replaced. -/
def vset {α : Type} {n : Nat} (v : Vector α n) (i : Fin n) (x : α) : Vector α n := v.set i.val x i.isLt

/-- A vector with one element changed by a function. -/
def vmod {α : Type} {n : Nat} (v : Vector α n) (i : Fin n) (f : α → α) : Vector α n := vset v i (f v[i])

namespace State

/-- Microseconds since device reset (R71). -/
def us (s : State) : Nat := s.time / Config.usTau

/-- Change a host's record. -/
def updHost (s : State) (h : HostId) (f : HostRec → HostRec) : State := { s with hosts := vmod s.hosts h f }

/-- Change a queue of a host. -/
def updQueue (s : State) (h : HostId) (q : QueueId) (f : Queue → Queue) : State :=
  s.updHost h fun r => { r with queues := vmod r.queues q f }

/-- Change a link. -/
def updLink (s : State) (n : LinkId) (f : Link → Link) : State := { s with links := vmod s.links n f }

/-- Change the fetch state of a link. -/
def updFetch (s : State) (n : LinkId) (f : Fetch → Fetch) : State := s.updLink n fun l => { l with fetch := f l.fetch }

/-- Change a channel. -/
def updChan (s : State) (c : ChanId) (f : Chan → Chan) : State := { s with chans := vmod s.chans c f }

/-- Change a physical rank of a channel. -/
def updRank (s : State) (c : ChanId) (r : RankId) (f : Rank → Rank) : State :=
  s.updChan c fun ch => { ch with ranks := vmod ch.ranks r f }

/-- Change the scrubber of a channel. -/
def updScrub (s : State) (c : ChanId) (f : Scrub → Scrub) : State := s.updChan c fun ch => { ch with scrub := f ch.scrub }

/-- Change the migrator of a channel. -/
def updMig (s : State) (c : ChanId) (f : Mig → Mig) : State := s.updChan c fun ch => { ch with mig := f ch.mig }

/-- Change a decoder engine. -/
def updEngine (s : State) (e : Fin 34) (f : Engine → Engine) : State := { s with engines := vmod s.engines e f }

/-- Change a compressor engine. -/
def updComp (s : State) (n : Fin 8) (f : Compressor → Compressor) : State := { s with comps := vmod s.comps n f }

/-- Change a multiplying loop. -/
def updLoop (s : State) (l : LoopId) (f : Loop → Loop) : State :=
  { s with clk := { s.clk with loops := vmod s.clk.loops l f } }

/-- Change the sequencer. -/
def updSeq (s : State) (f : Seq → Seq) : State := { s with seq := f s.seq }

/-- Change the web loop. -/
def updWeb (s : State) (f : Web → Web) : State := { s with web := f s.web }

/-- Change raster memory. -/
def updRaster (s : State) (f : Raster → Raster) : State := { s with raster := f s.raster }

/-- Change the start-up state. -/
def updBoot (s : State) (f : Boot → Boot) : State := { s with boot := f s.boot }

/-- Change the power state. -/
def updPower (s : State) (f : Power → Power) : State := { s with power := f s.power }

/-- Change the clock state. -/
def updClk (s : State) (f : Clk → Clk) : State := { s with clk := f s.clk }

/-- Put out an output. -/
def emit (s : State) (o : Out) : State := { s with out := o :: s.out }

/-- Use a free value: the counter advances. -/
def useFree (s : State) : State := { s with free := s.free + 1 }

/-- The record of a queue. -/
def queue (s : State) (h : HostId) (q : QueueId) : Queue := s.hosts[h].queues[q]

/-- Change the command in flight of an id. -/
def updCmd (s : State) (id : Nat) (f : Cmd → Cmd) : State :=
  { s with cmds := s.cmds.map fun c => if c.id = id then f c else c }

/-- The command in flight of an id. -/
def findCmd (s : State) (id : Nat) : Option Cmd := s.cmds.find? fun c => c.id = id

/-- Take the command of an id out of flight. -/
def dropCmd (s : State) (id : Nat) : State := { s with cmds := s.cmds.filter fun c => c.id ≠ id }

/-- Commands in flight of a host (R61). -/
def hostFlight (s : State) (h : HostId) : Nat := (s.cmds.filter fun c => c.iss.host = h).length

/-- Commands in flight of a queue: Q_STATUS.IN_FLIGHT (R49). -/
def queueFlight (s : State) (h : HostId) (q : QueueId) : Nat :=
  (s.cmds.filter fun c => c.iss.host = h && c.iss.queue = q).length

/-- A domain is powered (R13). -/
def domainOn (s : State) (d : Nat) : Bool := s.power.on.getLsbD d

/-- The host is the steward (R28). -/
def isSteward (s : State) (h : HostId) : Bool := s.role.holder == some h

/-- The host is ATTACHED or LATE (R24). -/
def attached (s : State) (h : HostId) : Bool := s.hosts[h].st == .attached || s.hosts[h].st == .late

/-- The channel is in use under the map in force (R166). -/
def inUse (s : State) (c : ChanId) : Bool := !s.raster.single || s.raster.only == c

/-- The channels in use, in order. -/
def chansInUse (s : State) : List ChanId := [0, 1].filter s.inUse

/-- The channel whose table sets the course length: A, or the one in use (R133). -/
def lead (s : State) : ChanId := if s.raster.single then s.raster.only else 0

/-- The active table of a channel. -/
def table (s : State) (c : ChanId) : Bank := s.chans[c].banks[s.chans[c].active]

/-- Courses run: some channel in use is trained, out of self-refresh and out of quench (R178). -/
def coursesRun (s : State) : Bool :=
  s.chansInUse.any fun c => s.chans[c].st == .service || s.chans[c].st == .quiesce

/-- The drain is HALTED (R188). -/
def drainHalted (s : State) : Bool := s.seq.drain == .halted

/-- Nominal MCK frequency in MHz at a data rate (R5). -/
def mckMHz (mts : Nat) : Nat := mts / 2

/-- Symbol length of a link in tau (R271): 256, 320 or 512. -/
def symbolTau : Nat → Nat
  | 2 => 256
  | 1 => 320
  | _ => 512

end State

/-! ### Log entries (R71) -/

/-- A field of the bytes 12 to 63 of a log entry: its first byte, its width in bytes, its value. -/
def fld (off len val : Nat) : Nat := (val % 256 ^ len) * 256 ^ (off - 12)

/-- The bytes 12 to 63 from their fields. -/
def body (fs : List Nat) : BitVec 416 := BitVec.ofNat 416 fs.sum

namespace State

/-- Bytes 40 to 47 of an entry: the course number, or all-ones before the first course (R449). -/
def courseFld (s : State) : Nat := fld 40 8 (if s.seq.started then s.seq.number else 2 ^ 64 - 1)

/-- Write an entry to the error log (LOG 0). -/
def logErr (s : State) (type host : Nat) (fs : List Nat) : State :=
  { s with logs := { s.logs with
      error := s.logs.error ++ [{ time := s.us, type := type, host := host, body := body (s.courseFld :: fs) }] } }

/-- Count into the last entry of the type that meets a test, or write a new one. -/
def mergeInto (l : List LogEntry) (test : LogEntry → Bool) (e : LogEntry) : List LogEntry :=
  match (l.reverse.findIdx? test) with
  | some k => l.modify (l.length - 1 - k) fun x => { x with merged := satAdd 255 x.merged 1 }
  | none => l ++ [e]

/-- Write an error log entry that merges with one of the same type and host less than 1 ms old (R449). -/
def logErrMs (s : State) (type host : Nat) (fs : List Nat) : State :=
  { s with logs := { s.logs with
      error := mergeInto s.logs.error (fun x => x.type == type && x.host == host && s.us ≤ x.time + 1000)
        { time := s.us, type := type, host := host, body := body (s.courseFld :: fs) } } }

/-- Write a link's entry (R256): one of the same type and link whose lines reach up to this line counts it instead.
DEDUCED: only entries of one cause are entries of one type in this, and an entry without a line has no consecutive one
(log entry 107). -/
def logLinkRun (s : State) (type : Nat) (fs : List Nat) : State :=
  let e : LogEntry := { time := s.us, type := type, body := body (s.courseFld :: fs) }
  let line (x : LogEntry) : Nat := (x.body.extractLsb' 32 32).toNat
  let joins (x : LogEntry) : Bool :=
    x.type == type && x.body.extractLsb' 0 16 == e.body.extractLsb' 0 16 && line x != 2 ^ 32 - 1 &&
      (line x + x.merged + 1) % 2 ^ 32 == line e
  { s with logs := { s.logs with error := mergeInto s.logs.error joins e } }

/-- Write a course log entry (LOG 2, R161): channel, subchannel, rank, bank, slot, entry index, value, TABLE_ID. Entries of
one type with the same channel, subchannel, rank and bank in one course are merged, but for PAGE_DROPPED, of which R169 asks
one entry for each page. DESIGN CHOICE: a merged entry keeps the slot, the entry index and the value of its first event, and
counts the others (log entry 113). -/
def logCourse (s : State) (type ch sub rank bank slot idx value tid : Nat) : State :=
  let b := body [fld 12 1 ch, fld 13 1 sub, fld 14 1 rank, fld 15 1 bank, fld 16 8 s.seq.number, fld 24 2 slot,
    fld 26 2 idx, fld 28 4 value, fld 32 4 tid]
  { s with logs := { s.logs with
      course := mergeInto s.logs.course
        (fun x => x.type == type && type != 0x0207 && x.body.extractLsb' 0 96 == b.extractLsb' 0 96)
        { time := s.us, type := type, body := b } } }

end State

end Sys2Proof.Machine
end

