-- ==== Sys2Proof/Machine/Inflate.lean ====
section
/-! DEFINITION. The DEFLATE decoder of R121 and R199: codes, block headers, and the run of an engine over its input until a
line is full, input is missing, the stream ends or a construct is a stream error. The input is a bit string given as a
function of the bit position, with the position of the first bit that has not come. -/

namespace Sys2Proof.Machine

/-- Input of a decoder: its bits, and the position of the first bit that is not there. -/
structure Input where
  bit : Nat → Bool
  limit : Nat

/-- The outcome of reading a part of the stream. -/
inductive Read (α : Type) where
  | ok (value : α) (pos : Nat)
  | short
  | error

/-- Bit `k` of a byte list, least significant bit of the first byte first (RFC 1951). -/
def bitOf (bs : List Byte) (k : Nat) : Bool := ((bs[k / 8]?).getD 0).getLsbD (k % 8)

namespace Input

/-- The input made of a byte list from bit 0 up. -/
def ofList (bs : List Byte) (limit : Nat) : Input := { bit := bitOf bs, limit := limit }

/-- The value of `n` bits from a position, least significant first. -/
def value (i : Input) (p : Nat) : Nat → Nat
  | 0 => 0
  | n + 1 => (if i.bit p then 1 else 0) + 2 * i.value (p + 1) n

/-- Read `n` bits. -/
def take (i : Input) (p n : Nat) : Read Nat := if p + n ≤ i.limit then .ok (i.value p n) (p + n) else .short

end Input

/-! ### Codes -/

/-- How many codes have a length. -/
def countLen (lens : List Nat) (n : Nat) : Nat := (lens.filter (· = n)).length

/-- The sum of 2^(15 - length) over the codes: 2^15 for a complete code. -/
def kraft (lens : List Nat) : Nat := (lens.map fun n => if n = 0 then 0 else 2 ^ (15 - n)).sum

/-- Read one symbol of a canonical code (RFC 1951): `fuel` bits are left to a length of 15. -/
def symbolLoop (i : Input) (lens : List Nat) : Nat → Nat → Nat → Nat → Nat → Read Nat
  | 0, _, _, _, _ => .error
  | fuel + 1, len, code, first, p =>
    match i.take p 1 with
    | .short => .short
    | .error => .error
    | .ok b q =>
      let c := code + b
      let n := countLen lens len
      if c < first + n then
        match ((lens.zipIdx).filter fun x => x.1 = len)[c - first]? with
        | some x => .ok x.2 q
        | none => .error
      else symbolLoop i lens fuel (len + 1) (2 * c) (2 * (first + n)) q

/-- Read one symbol. -/
def symbol (i : Input) (lens : List Nat) (p : Nat) : Read Nat := symbolLoop i lens 15 1 0 0 p

/-- Code lengths of the fixed literal/length code. -/
def fixedLit : List Nat :=
  List.replicate 144 8 ++ List.replicate 112 9 ++ List.replicate 24 7 ++ List.replicate 8 8

/-- Code lengths of the fixed distance code. -/
def fixedDist : List Nat := List.replicate 32 5

/-- Base and extra bits of length codes 257 to 285. -/
def lengthTable : List (Nat × Nat) :=
  [(3, 0), (4, 0), (5, 0), (6, 0), (7, 0), (8, 0), (9, 0), (10, 0), (11, 1), (13, 1), (15, 1), (17, 1), (19, 2), (23, 2),
    (27, 2), (31, 2), (35, 3), (43, 3), (51, 3), (59, 3), (67, 4), (83, 4), (99, 4), (115, 4), (131, 5), (163, 5),
    (195, 5), (227, 5), (258, 0)]

/-- Base and extra bits of distance codes 0 to 29. -/
def distTable : List (Nat × Nat) :=
  [(1, 0), (2, 0), (3, 0), (4, 0), (5, 1), (7, 1), (9, 2), (13, 2), (17, 3), (25, 3), (33, 4), (49, 4), (65, 5), (97, 5),
    (129, 6), (193, 6), (257, 7), (385, 7), (513, 8), (769, 8), (1025, 9), (1537, 9), (2049, 10), (3073, 10),
    (4097, 11), (6145, 11), (8193, 12), (12289, 12), (16385, 13), (24577, 13)]

/-- The order of the code length codes. -/
def codeLengthOrder : List Nat := [16, 17, 18, 0, 8, 7, 9, 6, 10, 5, 11, 4, 12, 3, 13, 2, 14, 1, 15]

/-! ### Block headers -/

/-- Read the code lengths of a dynamic block with the code-length code (R121). -/
def lengthsLoop (i : Input) (cl : List Nat) (total : Nat) : Nat → List Nat → Nat → Read (List Nat)
  | 0, _, _ => .error
  | fuel + 1, acc, p =>
    if acc.length = total then .ok acc p
    else if total < acc.length then .error
    else
      let rep (v base bits : Nat) (q : Nat) : Read (List Nat) :=
        match i.take q bits with
        | .ok x r => lengthsLoop i cl total fuel (acc ++ List.replicate (base + x) v) r
        | .short => .short
        | .error => .error
      match symbol i cl p with
      | .short => .short
      | .error => .error
      | .ok s q =>
        if s < 16 then lengthsLoop i cl total fuel (acc ++ [s]) q
        else if s = 16 then
          match acc.getLast? with
          | none => .error
          | some v => rep v 3 2 q
        else if s = 17 then rep 0 3 3 q
        else rep 0 11 7 q

/-- Read the code-length code lengths: so many of three bits each. -/
def read3 (i : Input) : Nat → Nat → Read (List Nat)
  | 0, p => .ok [] p
  | n + 1, p =>
    match i.take p 3 with
    | .ok x q => match read3 i n q with
      | .ok xs r => .ok (x :: xs) r
      | .short => .short
      | .error => .error
    | .short => .short
    | .error => .error

/-- Put code-length code lengths into the order of their symbols. -/
def orderLengths (xs : List Nat) : List Nat :=
  (List.range 19).map fun s => match codeLengthOrder.findIdx? (· = s) with
    | some k => xs.getD k 0
    | none => 0

/-- A distance code that R121 accepts: complete, a single code of length 1, or no code. -/
def distOk (lens : List Nat) : Bool :=
  let used := lens.filter (· ≠ 0)
  used == [] || used == [1] || kraft lens == 2 ^ 15

/-- Read the header of a dynamic block after its first three bits (R121). -/
def dynamicHeader (i : Input) (p : Nat) : Read Block :=
  match i.take p 14 with
  | .short => .short
  | .error => .error
  | .ok h q =>
    let hlit := h % 32 + 257
    let hdist := h / 32 % 32 + 1
    let hclen := h / 1024 + 4
    if 286 < hlit then .error
    else match read3 i hclen q with
      | .short => .short
      | .error => .error
      | .ok xs r =>
        let cl := orderLengths xs
        if kraft cl ≠ 2 ^ 15 then .error
        else match lengthsLoop i cl (hlit + hdist) (hlit + hdist + 1) [] r with
          | .short => .short
          | .error => .error
          | .ok ls t =>
            let lit := ls.take hlit
            let dist := ls.drop hlit
            if kraft lit = 2 ^ 15 ∧ distOk dist = true then .ok (.dynamic lit dist) t else .error

/-- Read the header of a stored block after its first three bits (R121). -/
def storedHeader (i : Input) (p : Nat) : Read Block :=
  match i.take ((p + 7) / 8 * 8) 32 with
  | .short => .short
  | .error => .error
  | .ok v q => if v % 65536 + v / 65536 = 65535 then .ok (.stored (v % 65536)) q else .error

/-- Read a block header: BFINAL, the block, and the position after it. -/
def blockHeader (i : Input) (p : Nat) : Read (Bool × Block) :=
  match i.take p 3 with
  | .short => .short
  | .error => .error
  | .ok h q =>
    let r := match h / 2 with
      | 0 => storedHeader i q
      | 1 => .ok .fixed q
      | 2 => dynamicHeader i q
      | _ => .error
    match r with
    | .ok b t => .ok (h % 2 == 1, b) t
    | .short => .short
    | .error => .error

/-! ### Symbols of a block -/

/-- A symbol of a Huffman block with what follows it. -/
inductive Token where
  | literal (b : Byte)
  | copy (len dist : Nat)
  | endOfBlock
deriving DecidableEq, Repr

/-- Read a length, its extra bits, its distance and the extra bits of that (R121). -/
def readCopy (i : Input) (dist : List Nat) (s p : Nat) : Read Token :=
  match lengthTable[s - 257]? with
  | none => .error
  | some (lb, le) =>
    match i.take p le with
    | .short => .short
    | .error => .error
    | .ok x q =>
      if dist.all (· = 0) then .error
      else match symbol i dist q with
        | .short => .short
        | .error => .error
        | .ok d r => match distTable[d]? with
          | none => .error
          | some (db, de) => match i.take r de with
            | .ok y t => .ok (.copy (lb + x) (db + y)) t
            | .short => .short
            | .error => .error

/-- Read a token of a Huffman block. -/
def readToken (i : Input) (lit dist : List Nat) (p : Nat) : Read Token :=
  match symbol i lit p with
  | .short => .short
  | .error => .error
  | .ok s q =>
    if s < 256 then .ok (.literal (BitVec.ofNat 8 s)) q
    else if s = 256 then .ok .endOfBlock q
    else readCopy i dist s q

/-! ### The engine -/

/-- Why a run of an engine ends. -/
inductive RunEnd where
  /-- the line is full -/
  | full
  /-- input is missing -/
  | short
  /-- the last block has ended -/
  | streamEnd
  /-- a construct that R121 calls a stream error -/
  | error
deriving DecidableEq, Repr

/-- Write one byte of output into the history (R199). -/
def Inflate.put (d : Inflate) (b : Byte) : Inflate :=
  { d with history := (b :: d.history).take 32768, written := d.written + 1 }

/-- One piece of an engine's work that writes at most one byte (R199): the state after it and the byte, or why it ends. -/
def Inflate.once (d : Inflate) (i : Input) : Except RunEnd (Inflate × Option Byte) :=
  if 0 < d.matchLen then
    let b := d.history.getD (d.matchDist - 1) 0
    .ok ({ d with matchLen := d.matchLen - 1 }.put b, some b)
  else
    let token (lit dist : List Nat) : Except RunEnd (Inflate × Option Byte) :=
      match readToken i lit dist d.bit with
      | .short => .error .short
      | .error => .error .error
      | .ok t q => match t with
        | .literal b => .ok ({ d with bit := q }.put b, some b)
        | .endOfBlock => .ok ({ d with bit := q, block := .outside, ended := d.final }, none)
        | .copy len dist =>
          if d.written < dist then .error .error
          else .ok ({ d with bit := q, matchLen := len, matchDist := dist }, none)
    match d.block with
    | .stored 0 => .ok ({ d with block := .outside, ended := d.final }, none)
    | .stored (left + 1) => match i.take d.bit 8 with
      | .ok v q =>
        let b := BitVec.ofNat 8 v
        .ok ({ d with bit := q, block := .stored left }.put b, some b)
      | _ => .error .short
    | .fixed => token fixedLit fixedDist
    | .dynamic lit dist => token lit dist
    | .outside =>
      if d.ended then .error .streamEnd
      else match blockHeader i d.bit with
        | .short => .error .short
        | .error => .error .error
        | .ok (f, b) q => .ok ({ d with bit := q, final := f, block := b }, none)

/-- Run an engine until so many bytes are written (R198): the state where it stops, the bytes, and why. -/
def Inflate.run (i : Input) : Nat → Inflate → Nat → List Byte → Inflate × List Byte × RunEnd
  | 0, d, _, out => (d, out, .short)
  | fuel + 1, d, need, out =>
    if need = 0 then (d, out, .full)
    else match d.once i with
      | .error e => (d, out, e)
      | .ok (d1, some b) => Inflate.run i fuel d1 (need - 1) (out ++ [b])
      | .ok (d1, none) => Inflate.run i fuel d1 need out

/-- Pieces of work that a run can need: a byte each, and a header, a token or the end of a block for each bit of input. -/
def Inflate.fuel (d : Inflate) (i : Input) (need : Nat) : Nat := 2 * (i.limit - d.bit) + 2 * need + 4

/-- Decode the bytes of one line. -/
def Inflate.line (d : Inflate) (i : Input) (need : Nat) : Inflate × List Byte × RunEnd :=
  Inflate.run i (d.fuel i need) d need []

/-- A match or stored block is still pending (R206). -/
def Inflate.pending (d : Inflate) : Bool :=
  decide (0 < d.matchLen) || match d.block with
    | .stored n => decide (0 < n)
    | _ => false

end Sys2Proof.Machine
end

