-- ==== Sys2Proof/Machine/Flags.lean ====
section
/-! DEFINITION. Event sources and their status bits: raising, steering, masking and coalescing (R411 to R417), and the
latches of the EVT_OUT pins (R423). -/

namespace Sys2Proof.Machine

/-- Fault-class sources (R411). -/
def faultClass (n : Nat) : Bool :=
  [56, 57, 63, 65, 68, 69, 70, 71, 72, 74, 76, 77, 78, 79, 81, 83, 84, 86].contains n

/-- Function field of an EVT_OUT control register (R423). -/
def evtFunction (d : Dword) : Nat := (d.extractLsb' 28 4).toNat

/-- Source field of an EVT_OUT control register. -/
def evtSource (d : Dword) : Nat := (d.extractLsb' 16 7).toNat

namespace State

/-- Change one vector of a host. -/
def updVec (s : State) (h : HostId) (v : Fin 32) (f : Vec → Vec) : State :=
  s.updHost h fun r => { r with vecs := vmod r.vecs v f }

/-- MSI-X messages leave the port: MSI-X is enabled, and the function is in D0 (R19). -/
def msixOn (s : State) (h : HostId) : Bool := s.hosts[h].pci.msixEnable && !s.hosts[h].pci.d3hot

/-- A vector's message waits: its own mask bit or the function mask is set (R19, R416). -/
def vecMasked (s : State) (h : HostId) (v : Fin 32) : Bool := s.hosts[h].vecs[v].masked || s.hosts[h].pci.functionMask

/-- Send a vector's message, or set its pending bit while it is masked (R416). -/
def sendMsg (s : State) (h : HostId) (v : Fin 32) : State :=
  if s.vecMasked h v then s.updVec h v fun x => { x with pend := true }
  else if s.msixOn h then s.emit (.msix h v) else s

/-- Count one raise against a vector (R417). -/
def countRaise (s : State) (h : HostId) (v : Fin 32) : State :=
  let x := s.hosts[h].vecs[v]
  if x.holdoff = 0 then s.sendMsg h v
  else match x.until_ with
    | none =>
      (s.sendMsg h v).updVec h v fun y => { y with until_ := some (s.time + x.holdoff * Config.usTau), gathered := 0 }
    | some _ =>
      if x.count ≠ 0 ∧ x.count ≤ x.gathered + 1 then
        (s.sendMsg h v).updVec h v fun y => { y with until_ := some (s.time + x.holdoff * Config.usTau), gathered := 0 }
      else s.updVec h v fun y => { y with gathered := y.gathered + 1 }

/-- Deliver source `n` to a host on a vector (R416). -/
def deliver (s : State) (n : Fin 96) (h : HostId) (v : Fin 32) : State :=
  let s1 := s.updHost h fun r => { r with status := r.status ||| BitVec.twoPow 96 n.val }
  if s.hosts[h].mask.getLsbD n.val then s1 else s1.countRaise h v

/-- Hold a source for the next steward (R414). -/
def hold (s : State) (n : Fin 96) : State :=
  { s with events := { s.events with held := s.events.held ||| BitVec.twoPow 96 n.val } }

/-- The host that receives a source of 16 to 95 by its entry: the target when ATTACHED or LATE, else the steward (R414). -/
def routeHost (s : State) (n : Fin 96) : Option HostId :=
  let r := s.events.routes[n]
  if h : r.target.val < 4 then
    if s.attached ⟨r.target.val, h⟩ then some ⟨r.target.val, h⟩ else s.role.holder
  else s.role.holder

/-- Set the latches of the EVT_OUT pins for a raise (R423). -/
def latchPins (s : State) (n : Fin 96) : State :=
  let hit (d : Dword) : Bool :=
    (evtFunction d == 1 && evtSource d == n.val) || (evtFunction d == 2 && faultClass n.val)
  { s with events := { s.events with
      latch := #v[s.events.latch[0] || hit s.ks.force.evtOut[0], s.events.latch[1] || hit s.ks.force.evtOut[1]] } }

/-- Raise an event source (R411 to R416). -/
def raise (s : State) (n : Fin 96) : State :=
  if s.part.neverAsserts n.val then s
  else
    let s := s.latchPins n
    if h : n.val < 16 then
      let host : HostId := ⟨n.val / 4, by omega⟩
      s.deliver n host (s.queue host ⟨n.val % 4, by omega⟩).vector
    else
      let r := s.events.routes[n]
      let dest := if r.enable then s.routeHost n else none
      let s1 := match dest with
        | some x => s.deliver n x r.vector
        | none => if r.enable then s.hold n else s
      if faultClass n.val then
        match s.role.holder with
        | some st => if dest = some st then s1 else s1.deliver n st r.vector
        | none => s1.hold n
      else s1

/-- Deliver every held source to a host on the source's vector (R47). -/
def deliverHeld (s : State) (h : HostId) : State :=
  let s1 := (List.finRange 96).foldl
    (fun acc n => if s.events.held.getLsbD n.val then acc.deliver n h acc.events.routes[n].vector else acc) s
  { s1 with events := { s1.events with held := 0 } }

/-- Source 76 + h of a host (R411). -/
def raiseHost (s : State) (h : HostId) : State := s.raise ⟨76 + h.val, by omega⟩

/-- Source 16 + n of a link. -/
def raiseLink (s : State) (n : LinkId) : State := s.raise ⟨16 + n.val, by omega⟩

/-- Source 56 + c of a channel. -/
def raiseChan (s : State) (c : ChanId) : State := s.raise ⟨56 + c.val, by omega⟩

end State

end Sys2Proof.Machine
end

