-- ==== Sys2Proof/Machine/Ecc.lean ====
section
/-! DEFINITION. The codeword of R328 to R332: encoder, syndromes, decoder, and the check bits of packets (R57), frames
(R232). -/

namespace Sys2Proof.Machine

/-- Multiply by alpha in GF(2^7), alpha a root of x^7 + x^3 + 1 (R329). -/
def gfTimes (a : BitVec 7) : BitVec 7 := if a.getLsbD 6 then (a <<< 1) ^^^ 0b0001001 else a <<< 1

/-- alpha to a power. -/
def gfPow : Nat → BitVec 7
  | 0 => 1
  | n + 1 => gfTimes (gfPow n)

/-- The powers of alpha from 0 to 126. -/
def gfTable : List (BitVec 7) := (List.range 126).foldl (fun l _ => l ++ [gfTimes (l.getLast?.getD 1)]) [1]

/-- Bits of a number are XORed together. -/
def parity (w : Nat) : BitVec w → Bool := fun x => (List.range w).foldl (fun b i => b ^^ x.getLsbD i) false

/-- S1 of a codeword (R329), by Horner from position 78 down. -/
def synS1 (c : BitVec 80) : BitVec 7 :=
  (List.range 79).foldl (fun acc i => gfTimes acc ^^^ (if c.getLsbD (78 - i) then 1 else 0)) 0

/-- S3 of a codeword (R329), by Horner in alpha cubed. -/
def synS3 (c : BitVec 80) : BitVec 7 :=
  (List.range 79).foldl
    (fun acc i => gfTimes (gfTimes (gfTimes acc)) ^^^ (if c.getLsbD (78 - i) then 1 else 0)) 0

/-- P of a codeword (R329). -/
def synP (c : BitVec 80) : Bool := parity 80 c

/-- The product of the minimal polynomials of alpha and alpha cubed, of degree 14. A word has S1 and S3 equal to 0 exactly
when this polynomial divides it. -/
def bchPoly : BitVec 15 := 0x4377

/-- The check bits C0 to C13 over the information bits of positions 14 to 78, given as bits 0 to 64 (R329). -/
def checkBits (info : BitVec 65) : BitVec 14 :=
  (List.range 65).foldl
    (fun r i =>
      let top := r.getLsbD 13 ^^ info.getLsbD (64 - i)
      let sh := r <<< 1
      if top then sh ^^^ (bchPoly.truncate 14) else sh) 0

/-- The codeword of 64 data bits and a poison bit (R328, R329). -/
def encodeWord (data : BitVec 64) (poison : Bool) : BitVec 80 :=
  let info : BitVec 65 := (BitVec.ofBool poison) ++ data
  let low : BitVec 79 := info ++ checkBits info
  (BitVec.ofBool (parity 79 low)) ++ low

/-- Data bits of a codeword. -/
def wordData (c : BitVec 80) : BitVec 64 := c.extractLsb' 14 64

/-- Poison bit of a codeword. -/
def wordPoison (c : BitVec 80) : Bool := c.getLsbD 78

/-- Decode outcomes with the codes 0 to 4 of ECC_INJECT (R332). -/
inductive DecOut where
  | clean | corrected1 | corrected2 | uncorrectable | poison
deriving DecidableEq, Repr

/-- The code of an outcome. -/
def DecOut.code : DecOut → Nat
  | .clean => 0 | .corrected1 => 1 | .corrected2 => 2 | .uncorrectable => 3 | .poison => 4

/-- A decoded codeword: outcome, positions inverted, and the word after correction. -/
structure Decoded where
  out : DecOut
  inverted : List Nat
  word : BitVec 80
deriving DecidableEq, Repr

/-- The position in 0 to 78 whose column is the given element, if there is one. -/
def gfLog (x : BitVec 7) : Option Nat := (gfTable.take 79).findIdx? (· == x)

/-- Two positions whose columns add to S1 and S3. -/
def pairFor (s1 s3 : BitVec 7) : Option (Nat × Nat) :=
  (List.range 79).findSome? fun i =>
    let x := gfPow i
    match gfLog (s1 ^^^ x) with
    | some j =>
      if i < j ∧ (gfPow (3 * i) ^^^ gfPow (3 * j)) = s3 then some (i, j) else none
    | none => none

/-- Invert the bits at the given positions. -/
def flipAt (c : BitVec 80) (ps : List Nat) : BitVec 80 := ps.foldl (fun w i => w ^^^ BitVec.twoPow 80 i) c

/-- Cube in GF(2^7). -/
def gfCube (x : BitVec 7) : BitVec 7 :=
  let mul (a b : BitVec 7) : BitVec 7 :=
    (List.range 7).foldl (fun acc i => gfTimes acc ^^^ (if b.getLsbD (6 - i) then a else 0)) 0
  mul x (mul x x)

/-- The decode of R331, before poison is looked at. -/
def decodeBch (c : BitVec 80) : DecOut × List Nat :=
  let s1 := synS1 c
  let s3 := synS3 c
  let p := synP c
  if s1 = 0 ∧ s3 = 0 then
    if p then (.corrected1, [79]) else (.clean, [])
  else if s3 = gfCube s1 then
    match gfLog s1 with
    | some i => if p then (.corrected1, [i]) else (.corrected2, [i, 79])
    | none => (.uncorrectable, [])
  else if p then (.uncorrectable, [])
  else if s1 = 0 then (.uncorrectable, [])
  else
    match pairFor s1 s3 with
    | some (i, j) => (.corrected2, [i, j])
    | none => (.uncorrectable, [])

/-- The decode of R331 and R332. -/
def decodeWord (c : BitVec 80) : Decoded :=
  let (o, ps) := decodeBch c
  let w := flipAt c ps
  if o ≠ .uncorrectable ∧ wordPoison w then ⟨.poison, ps, w⟩ else ⟨o, ps, w⟩

/-- The word that a corrected write-back or a migration writes (R344, R352): corrected words corrected, uncorrectable words
poisoned with their stored data bits, POISON words as they are. -/
def rewriteWord (c : BitVec 80) : BitVec 80 :=
  let d := decodeWord c
  match d.out with
  | .uncorrectable => encodeWord (wordData c) true
  | .poison => encodeWord (wordData d.word) true
  | _ => encodeWord (wordData d.word) false

/-! ### CRC-32C and CRC-32 (R57, R232) -/

/-- One byte of a reflected CRC of 32 bits. -/
def crcByte (poly : Dword) (crc : Dword) (b : Byte) : Dword :=
  (List.range 8).foldl (fun c _ => if c.getLsbD 0 then (c >>> 1) ^^^ poly else c >>> 1) (crc ^^^ b.zeroExtend 32)

/-- A reflected CRC with initial value and final XOR of all-ones. -/
def crcOf (poly : Dword) (bs : List Byte) : Dword := (bs.foldl (crcByte poly) 0xFFFFFFFF) ^^^ 0xFFFFFFFF

/-- CRC-32C (R57). -/
def crc32c (bs : List Byte) : Dword := crcOf 0x82F63B78 bs

/-- CRC-32 of IEEE 802.3 (R232). -/
def crc32 (bs : List Byte) : Dword := crcOf 0xEDB88320 bs

end Sys2Proof.Machine
end

