-- ==== Sys2Proof/Machine/Map.lean ====
section
/-! DEFINITION. The raster address and its two maps, hashing, ashlar numbers, and the valid ranges (R82 to R87, R94). -/

namespace Sys2Proof.Machine

/-- Bits `n` wide from bit `lo` of a number. -/
def bits (a lo n : Nat) : Nat := a / 2 ^ lo % 2 ^ n

/-- Where a raster address lies in DRAM (R82). -/
structure Loc where
  chan : ChanId
  sub : SubId
  logical : Fin 4
  group : Fin 8
  bank : Fin 4
  row : Nat
  col : Nat
deriving DecidableEq, Repr

/-- Parity of the low 17 bits of a number. -/
def parity17 (x : Nat) : Nat := (List.range 17).foldl (fun p i => (p + bits x i 1) % 2) 0

namespace Raster

/-- Row bits [16:0] of an address (R94). -/
def row (r : Raster) (a : Nat) : Nat :=
  let x := if r.single then bits a 20 17 else bits a 21 17
  if r.density = 16 then x % 2 ^ 16 else x

/-- The value XORed into hashable bit `k` of HASH_CH, HASH_BG0 to HASH_BG2, HASH_BA0, HASH_BA1 (R94). -/
def hashBit (r : Raster) (k : Fin 6) (a : Nat) : Nat := parity17 (r.row a &&& (r.mask[k]).toNat)

/-- The DRAM location of an address (R82, R94). -/
def loc (r : Raster) (a : Nat) : Loc :=
  let d := if r.single then 1 else 0
  let ch : Nat := if r.single then r.only.val else (bits a 7 1 + r.hashBit 0 a) % 2
  let bg := bits a (14 - d) 3 ^^^ (r.hashBit 1 a + 2 * r.hashBit 2 a + 4 * r.hashBit 3 a)
  let ba := bits a (17 - d) 2 ^^^ (r.hashBit 4 a + 2 * r.hashBit 5 a)
  { chan := Fin.ofNat 2 ch
    sub := Fin.ofNat 2 (bits a 6 1)
    logical := Fin.ofNat 4 (bits a (19 - d) 2)
    group := Fin.ofNat 8 bg
    bank := Fin.ofNat 4 ba
    row := r.row a
    col := bits a (8 - d) 6 * 16 }

/-- The channel of a burst. -/
def chanOf (r : Raster) (a : Nat) : ChanId := (r.loc a).chan

/-- The ashlar number of an address (R84). -/
def ashlar (r : Raster) (a : Nat) : Nat :=
  if r.single then bits a 16 2 + 4 * bits a 20 17 + 2 ^ 19 * bits a 18 2
  else bits a 16 3 + 8 * bits a 21 17 + 2 ^ 20 * bits a 19 2

/-- The first byte of an ashlar (R84). -/
def ashlarBase (r : Raster) (n : Nat) : Nat :=
  if r.single then bits n 0 2 * 2 ^ 16 + bits n 19 2 * 2 ^ 18 + bits n 2 17 * 2 ^ 20
  else bits n 0 3 * 2 ^ 16 + bits n 20 2 * 2 ^ 19 + bits n 3 17 * 2 ^ 21

/-- Ashlars of one logical rank (R87). -/
def rankAshlars (r : Raster) : Nat :=
  let full := if r.density = 16 then 2 ^ 19 else 2 ^ 20
  if r.single then full / 2 else full

/-- First ashlar number of a logical rank (R84). -/
def rankFirst (r : Raster) (l : Nat) : Nat := if r.single then l * 2 ^ 19 else l * 2 ^ 20

/-- The logical rank is valid: every channel in use has a physical rank for it (R86). -/
def rankValid (r : Raster) (l : Fin 4) : Bool :=
  if r.single then (r.phys[r.only][l]).isSome else (r.phys[(0 : Fin 2)][l]).isSome && (r.phys[(1 : Fin 2)][l]).isSome

/-- The ashlar number lies in a valid range (R86). -/
def validAshlar (r : Raster) (n : Nat) : Bool :=
  (List.finRange 4).any fun l => r.rankValid l && r.rankFirst l.val ≤ n && n < r.rankFirst l.val + r.rankAshlars

/-- The valid ranges as (first, count), ascending, those that adjoin merged (R97). -/
def ranges (r : Raster) : List (Nat × Nat) :=
  ((List.finRange 4).filter r.rankValid).foldl
    (fun acc l =>
      let f := r.rankFirst l.val
      match acc.getLast? with
      | some (g, n) => if g + n = f then acc.dropLast ++ [(g, n + r.rankAshlars)] else acc ++ [(f, r.rankAshlars)]
      | none => [(f, r.rankAshlars)]) []

/-- Number of valid ashlars (R97). -/
def validCount (r : Raster) : Nat := (r.ranges.map (·.2)).sum

/-- The partition that holds an ashlar. -/
def holder (r : Raster) (n : Nat) : Option (Fin 16) := (r.alloc.find? fun x => x.1 = n).map (·.2)

/-- Ashlars that a partition holds. -/
def held (r : Raster) (p : Fin 16) : Nat := (r.alloc.filter fun x => x.2 = p).length

/-- The ashlar's map bit is set (R90). -/
def isWritten (r : Raster) (n : Nat) : Bool := r.written.contains n

/-- The ashlar is filling (R92). -/
def isFilling (r : Raster) (n : Nat) : Bool := r.filling.any fun f => f.ashlar = n

/-- Ashlars that a raster range touches, in address order (R85). -/
def touched (r : Raster) (a len : Nat) : List Nat :=
  if len = 0 then []
  else (List.range ((a + len - 1) / 65536 - a / 65536 + 1)).map fun k => r.ashlar ((a / 65536 + k) * 65536)

/-- The range lies in the address space: every unused bit is 0 (R82). -/
def rangeFits (r : Raster) (a len : Nat) : Bool := a + len ≤ (if r.single then 2 ^ 37 else 2 ^ 38)

/-- Every ashlar of the range belongs to the partition (R56, R85). -/
def rangeIn (r : Raster) (p : Fin 16) (a len : Nat) : Bool :=
  r.rangeFits a len && (r.touched a len).all fun n => r.holder n == some p

/-- Ashlar numbers inserted in ascending order. -/
def insertAlloc (l : List (Nat × Fin 16)) (n : Nat) (p : Fin 16) : List (Nat × Fin 16) :=
  l.takeWhile (fun x => x.1 < n) ++ (n, p) :: l.dropWhile (fun x => x.1 ≤ n)

/-- Mark an ashlar written, in ascending order. -/
def insertNat (l : List Nat) (n : Nat) : List Nat := l.takeWhile (· < n) ++ n :: l.dropWhile (· ≤ n)

end Raster

/-- The bits of SPARE_CONTROL that a part has (R4, R95). -/
def spareFields : Part → Dword
  | .zr3218 => 0x80000033
  | .zr1618 => 0x80000003

/-- The logical-to-physical assignment of a channel from its fitted ranks and its spare (R86): without sparing the ranks
keep their numbers; with sparing the others take the numbers 0, 1 and onward. -/
def assign (fitted : List RankId) (spare : Option RankId) : Vector (Option RankId) 4 :=
  match spare with
  | none => Vector.ofFn fun l : Fin 4 => if fitted.contains l then some l else none
  | some sp =>
    let others := fitted.filter (· ≠ sp)
    Vector.ofFn fun l : Fin 4 => others[l.val]?

end Sys2Proof.Machine
end

