-- ==== Sys2Proof/Machine/Operands.lean ====
section
/-! DEFINITION. The operand forms: the fields of a packet, its bytes and CRC (R55, R57), the opcode table (R67), and the
checks of reserved bits and ranges with the byte offset of the first offending field (R10, R65 step 6, R81). -/

namespace Sys2Proof

/-- FENCE_PRIOR, bit 0 of byte 1 (R55). -/
def Issue.fencePrior (i : Issue) : Bool := i.flags.getLsbD 0

/-- NOTIFY (R55). -/
def Issue.notify (i : Issue) : Bool := i.flags.getLsbD 1

/-- CRC_PRESENT (R55). -/
def Issue.crcPresent (i : Issue) : Bool := i.flags.getLsbD 2

/-- Parameter dword `k` of a packet. -/
def Params.get (p : Params) : Nat → Dword
  | 0 => p.p0 | 1 => p.p1 | 2 => p.p2 | 3 => p.p3 | 4 => p.p4 | 5 => p.p5
  | 6 => p.p6 | 7 => p.p7 | 8 => p.p8 | 9 => p.p9 | 10 => p.p10 | _ => p.p11

end Sys2Proof

namespace Sys2Proof.Machine

/-- Parameter dword `k` as a number. -/
def Cmd.p (c : Cmd) (k : Nat) : Nat := (Params.get c.iss.p k).toNat

/-- Bits of a parameter dword. -/
def Cmd.f (c : Cmd) (k lo n : Nat) : Nat := bits (c.p k) lo n

/-- A host address in two dwords, low first (R8, R68). -/
def Cmd.hostAddr (c : Cmd) (k : Nat) : Nat := c.p k + 2 ^ 32 * c.p (k + 1)

/-- A raster address in two dwords (R68). -/
def Cmd.raster (c : Cmd) (k : Nat) : Nat := c.p k + 2 ^ 32 * c.f (k + 1) 0 6

/-- The partition that a packet names. -/
def Cmd.part (c : Cmd) : Fin 16 := Fin.ofNat 16 c.iss.partition.toNat

/-- The host that issued a command. -/
abbrev Cmd.host (c : Cmd) : HostId := c.iss.host

/-- Bytes 0 to 59 of the packet (R55). -/
def packetBytes (op : Byte) (i : Issue) : List Byte :=
  [op, i.flags] ++ leBytes 2 i.tag.toNat ++ dwordBytes i.partition ++
    ((List.range 12).map fun k => dwordBytes (Params.get i.p k)).flatten ++ dwordBytes i.reserved

/-- The opcode and the fields of a packet of 64 bytes, byte 0 in the low bits (R7, R55). -/
def readPacket (h : HostId) (q : QueueId) (w : BitVec 512) : Byte × Issue :=
  let d (k : Nat) : Dword := w.extractLsb' (32 * k) 32
  (w.extractLsb' 0 8,
    { host := h, queue := q, flags := w.extractLsb' 8 8, tag := w.extractLsb' 16 16, partition := d 1
      p := ⟨d 2, d 3, d 4, d 5, d 6, d 7, d 8, d 9, d 10, d 11, d 12, d 13⟩, reserved := d 14, crc := d 15 })

/-- The length in bytes of a line image of `w` dot words (R100). -/
def lineBytes (w : Nat) : Nat := 4 * ceilDiv (18 * w) 32

/-- Role that an opcode needs (R67). -/
inductive RoleNeed where
  | any | linkedToo | attach | recoveringToo | steward | perFeature | getLog
deriving DecidableEq, Repr

/-- A row of the table "Opcodes" (R67), with the bits of P0 to P11 that the opcode's parameters name (R68). -/
structure OpInfo where
  role : RoleNeed
  banked : Bool := false
  part : Bool := false
  masks : List Nat := []

/-- The table "Opcodes" with the named bits of the tables of parameters (R67, R68). -/
def opInfo : Nat → Option OpInfo
  | 0x00 => some { role := .linkedToo }
  | 0x01 => some { role := .linkedToo, banked := true, masks := [0xFF, 0xFFFFFFFF, 0xFFFFFFFF] }
  | 0x02 => some { role := .getLog, banked := true, masks := [0x1FF, 0xFFFFFFFF, 0xFFFFFFFF, 0xFFFFFFFF, 0xFFFFFFFF] }
  | 0x03 => some { role := .perFeature, masks := [0xFFFFFF, 0xFFFFFFFF, 0xFFFFFFFF] }
  | 0x04 => some { role := .linkedToo, banked := true, masks := [0xFFFFFF] }
  | 0x05 => some { role := .attach }
  | 0x06 => some { role := .recoveringToo }
  | 0x07 => some { role := .any }
  | 0x08 => some { role := .any, masks := [1] }
  | 0x09 => some { role := .steward }
  | 0x0A => some { role := .steward, masks := [3] }
  | 0x10 => some { role := .any, part := true, masks := [0xFFFFFFFF, 1, 0xFFFFFFFF, 0xFFFFFFFF] }
  | 0x11 => some { role := .any, part := true, masks := [0xFFFFFFFF, 0xFFFFFFFF] }
  | 0x12 => some { role := .any, part := true, masks := [0xFFFFFFFF, 0xFFFFFFFF, 0xFFFFFFFF, 0x3F, 0xFFFFFFFF] }
  | 0x13 => some
    { role := .any, part := true
      masks := [0xFFFFFFFF, 0xFFFFFFFF, 0xFFFF, 0x37FF, 0xFF, 0xFFFFFFFF] }
  | 0x14 => some { role := .any, part := true, masks := [0xFFFFFFFF, 0xFFFFFFFF, 0xFFFFFFFF, 0x3F, 0xFFFFFFFF] }
  | 0x15 => some { role := .any, part := true, masks := [0, 0, 0xFFFFFFFF, 0x3F, 0xFFFFFFFF] }
  | 0x16 => some { role := .any, masks := [0xFFFFFFFF] }
  | 0x17 => some { role := .any, masks := [0xFFFFFFFF] }
  | 0x18 => some { role := .any, part := true, masks := [0xFFFFFFFF, 0x3F, 0xFFFF, 0x7FF, 0xFFFFFFFF] }
  | 0x19 => some { role := .any, masks := [0xFFFFFFFF] }
  | 0x20 => some { role := .steward, masks := [0x101, 0xFFFFFFFF, 0xFFFFFFFF, 0x7FF, 0xFFFFFFFF, 0xFFF] }
  | 0x21 => some { role := .steward, masks := [1] }
  | 0x22 => some { role := .steward, masks := [0xFFFFFFFF, 0xFFFFFFFF, 0x1F] }
  | 0x23 => some { role := .steward, masks := [0x1FFFF] }
  | 0x24 => some { role := .steward, masks := [0x1FF, 0x1FF] }
  | 0x25 => some { role := .steward }
  | 0x26 => some { role := .steward, masks := [3] }
  | 0x30 => some { role := .steward, masks := [0x11F, 3, 0xFFFFFFFF, 0xFFFF] }
  | 0x31 => some { role := .steward, masks := [0xFFFFFFFF] }
  | 0x32 => some { role := .steward, masks := [0xFFFFFF, 0xFFFFFF, 0x30FFF, 0xFFF] }
  | 0x33 => some { role := .steward, masks := [0x11F, 0xFFFFFFFF, 0xFFFF] }
  | 0x34 => some { role := .steward, masks := [0x8000311F, 0x3FFFF, 0x3FFFF] }
  | 0x35 => some { role := .steward, masks := [0x21F, 0xFFFFFFFF, 0xFFFFFFFF, 0xFF] }
  | 0x40 => some { role := .steward, masks := [0x301] }
  | 0x41 => some { role := .steward, masks := [0x301] }
  | 0x42 => some { role := .steward, masks := [0x103, 0xFFFF, 0xFFFF] }
  | 0x43 => some { role := .steward, masks := [1] }
  | 0x44 => some { role := .steward, masks := [0x103] }
  | 0x45 => some { role := .steward, masks := [0xFF, 3, 0xFFFFFFFF] }
  | 0x50 => some { role := .steward, masks := [0xFFFFFFFF, 0xFFFFFFFF, 0xFFFFFFFF, 0x3F, 0xFFFF] }
  | 0x51 => some { role := .steward, masks := [0xFFFFFFFF, 0xFFFFFFFF, 0xFFFFFFFF, 0x3F, 0xFFFF] }
  | 0x52 => some { role := .steward, masks := [0xFFFFFFFF, 0x3F, 0xFFFFFFFF, 0xFFFFFFFF, 0xFFFF, 1] }
  | 0x53 => some
    { role := .steward, banked := true
      masks := [0xFF, 0xFFFFFFFF, 0xFFFFFFFF, 0xFFFFFFFF, 0xFFFFFFFF] }
  | 0x54 => some { role := .steward, masks := [3] }
  | 0x55 => some { role := .steward, masks := [0xFFFF] }
  | 0x70 => some { role := .steward, banked := true, masks := [0xFFFFFFFF, 0xFFFFFFFF, 0xFFFFFFFF, 0xFFFFFFFF, 1] }
  | 0x71 => some { role := .steward, banked := true }
  | 0x72 => some { role := .steward, banked := true, masks := [1] }
  | _ => none

/-- The byte at which the reserved field of a dword begins that holds the lowest bit set of `d`; the mask gives the bits that are not
reserved (R81). -/
def reservedByte (mask d : Nat) : Nat :=
  let p := ((List.range 32).find? fun k => d.testBit k).getD 0
  (p + 1 - ((List.range (p + 1)).reverse.takeWhile fun k => !mask.testBit k).length) / 8

/-- Offsets of the reserved fields in which a bit is set: flags, partition, parameter dwords, bytes 56 to 59, and the CRC when absent
(R10, R55, R56). -/
def reservedBad (info : OpInfo) (i : Issue) : List Nat :=
  let pm := if info.part then 0xF else 0
  let dw (off : Nat) (d : Dword) (mask : Nat) : List Nat :=
    let x := (d &&& ~~~ (BitVec.ofNat 32 mask)).toNat
    if x = 0 then [] else [off + reservedByte mask x]
  (if i.flags.toNat < 8 then [] else [1]) ++ dw 4 i.partition pm ++
    ((List.range 12).map fun k => dw (8 + 4 * k) (Params.get i.p k) (info.masks.getD k 0)).flatten ++
    dw 56 i.reserved 0 ++ (if i.crcPresent then [] else dw 60 i.crc 0)

/-- An offset when a condition fails. -/
def need (off : Nat) (ok : Bool) : List Nat := if ok then [] else [off]

/-- The smallest of a list of offsets. -/
def least : List Nat → Option Nat
  | [] => none
  | a :: l => match least l with
    | some b => some (min a b)
    | none => some a

/-- The features that have an index range: number of indices of a FEATURE, 0 when undefined (R69). -/
def featureCount (s : State) : Nat → Nat
  | 1 => 1 | 2 => 16 | 3 => 16 | 4 => s.part.ports | 5 => s.part.ports | 6 => 1 | 7 => 1 | 8 => 1 | 9 => 1 | _ => 0

/-- A feature that only the steward sets (R69). -/
def featureSteward (f : Nat) : Bool := 1 ≤ f && f ≤ 5

/-- A link that the part has (R4). -/
def State.hasLink (s : State) (n : Nat) : Bool := n < s.part.links

/-- A link's settings in force enable it. -/
def State.enabled (s : State) (n : LinkId) : Bool := s.ks.force.link[n].enable

/-- Offsets of fields out of range, by opcode (R4, R68 to R79 and the chapters' own rules). -/
def rangeBad (op : Nat) (c : Cmd) (s : State) : List Nat :=
  match op with
  | 0x01 => need 8 (c.f 0 0 8 ≤ 3) ++ need 12 (c.p 1 % 4 == 0)
  | 0x02 => need 8 (c.f 0 0 8 ≤ 3) ++ need 16 (c.p 2 % 4 == 0) ++
      need 24 (c.p 4 % 64 == 0 && 64 ≤ c.p 4 && c.p 4 ≤ 65536)
  | 0x03 =>
    let f := c.f 0 0 16
    need 8 (1 ≤ f && f ≤ 5 || f == 7) ++ need 10 (c.f 0 16 8 < featureCount s f) ++
    (match f with
      | 1 => need 12 (c.p 1 < 2 ^ s.part.ports && (match s.role.holder with
          | some h => c.p 1 / 2 ^ h.val % 2 == 1
          | none => true))
      | 2 => need 12 (c.p 1 < s.part.ports || c.p 1 == 255)
      | 3 => need 12 (c.p 1 % 256 < s.part.ports) ++ need 13 (c.p 1 / 256 < 3)
      | 4 => need 12 (1 ≤ c.p 1 && c.p 1 ≤ 10000)
      | 5 => need 12 (c.p 1 < 2)
      | 7 => need 12 (c.p 1 < 2)
      | _ => []) ++ need 16 (c.p 2 == 0)
  | 0x04 => need 8 (0 < featureCount s (c.f 0 0 16)) ++ need 10 (c.f 0 16 8 < featureCount s (c.f 0 0 16))
  | 0x0A => need 8 (c.f 0 0 2 < s.part.ports)
  | 0x10 => need 8 (1 ≤ c.p 0 && c.p 0 ≤ 16384) ++ need 16 (c.f 1 0 1 == 1 || c.p 2 % 4 == 0)
  | 0x11 => need 12 (1 ≤ c.p 1 && c.p 1 ≤ 16384)
  | 0x12 => need 8 (c.p 0 % 4 == 0) ++ need 24 (1 ≤ c.p 4 && c.p 4 ≤ 16777216)
  | 0x13 => need 8 (c.p 0 % 4 == 0) ++ need 16 (1 ≤ c.f 2 0 16) ++
      need 20 (1 ≤ c.f 3 0 11 && c.f 3 0 11 ≤ 1024) ++ need 21 (c.f 3 12 2 != 3)
  | 0x14 => need 8 (c.p 0 % 4 == 0) ++ need 24 (1 ≤ c.p 4 && c.p 4 ≤ 16777216)
  | 0x15 => need 24 (1 ≤ c.p 4)
  | 0x18 => need 8 (c.p 0 % 64 == 0) ++ need 16 (1 ≤ c.f 2 0 16) ++ need 20 (1 ≤ c.f 3 0 11 && c.f 3 0 11 ≤ 1024) ++
      need 24 (c.p 4 % 64 == 0 && lineBytes (c.f 3 0 11) ≤ c.p 4 && c.f 2 0 16 * c.p 4 ≤ 2 ^ 28)
  | 0x20 => need 8 (c.f 0 0 1 < s.part.channels && s.inUse (Fin.ofNat 2 (c.f 0 0 1))) ++ need 12 (c.p 1 % 8 == 0) ++
      need 20 (1 ≤ c.f 3 0 11 && c.f 3 0 11 ≤ 1024) ++ need 28 (256 ≤ c.f 5 0 12)
  | 0x22 => need 8 (c.p 0 % 64 == 0) ++ need 16 (1 ≤ c.f 2 0 5 && c.f 2 0 5 ≤ 16)
  | 0x24 => need 8 (8 ≤ c.f 0 0 9 && c.f 0 0 9 ≤ 256) ++ need 12 (c.f 1 0 9 < c.f 0 0 9)
  | 0x26 => need 8 (c.f 0 0 2 ≤ 2)
  | 0x30 => need 8 (s.hasLink (c.f 0 0 5)) ++ need 12 (c.f 1 0 2 ≤ 2) ++
      need 16 (0x00010000 ≤ c.p 2 && c.p 2 < 0x01000000)
  | 0x31 => need 8 ((List.finRange 32).all fun n =>
      c.p 0 / 2 ^ n.val % 2 == 0 || (s.hasLink n.val && s.enabled n))
  | 0x32 => need 8 (c.f 0 0 24 != 0 && c.f 1 0 24 != 0 && c.f 1 0 24 ≤ 64 * c.f 0 0 24 &&
        c.f 0 0 24 ≤ 4096 * c.f 1 0 24) ++
      need 16 (10 ≤ c.f 2 0 12 && c.f 2 0 12 ≤ 2000) ++ need 20 (c.f 3 0 12 ≤ 2000)
  | 0x33 => need 8 (s.hasLink (c.f 0 0 5))
  | 0x34 => need 8 (c.f 0 31 1 == 1 || s.hasLink (c.f 0 0 5)) ++
      need 16 (c.f 0 8 1 == 1 || c.f 2 0 18 < c.f 1 0 18)
  | 0x35 => need 8 (s.hasLink (c.f 0 0 5)) ++ need 12 (c.p 1 % 4 == 0) ++
      need 20 (c.f 0 9 1 == 1 || (1 ≤ c.f 3 0 8 && c.f 3 0 8 ≤ 240))
  | 0x40 | 0x41 | 0x43 => need 8 (c.f 0 0 1 < s.part.channels)
  | 0x42 => need 8 (c.f 0 0 2 < 2 ^ s.part.channels) ++ need 12 (1 ≤ c.f 1 0 16)
  | 0x44 => need 8 (c.f 0 0 2 < 2 ^ s.part.channels)
  | 0x45 => need 8 (c.p 0 % 8 == 7 && (s.part == .zr3218 || (c.f 0 4 1 == 0 && c.f 0 7 1 == 0))) ++
      need 16 (1 ≤ c.p 2 && c.p 2 ≤ 1000000)
  | 0x50 | 0x51 => need 8 (c.p 0 % 4 == 0) ++ need 16 (c.p 2 % 64 == 0) ++
      need 24 (1 ≤ c.f 4 0 16 && c.f 4 0 16 ≤ 4096 && c.f 4 0 16 % 8 == 0)
  | 0x52 => need 8 (c.p 0 % 8 == 0)
  | 0x53 => need 8 (s.quench.dumps.any fun d => d.index == c.f 0 0 8) ++ need 12 (c.p 1 % 4 == 0) ++
      need 20 (c.p 3 % 64 == 0 && c.p 3 < 52288) ++ need 24 (c.p 4 % 64 == 0 && c.p 4 ≤ 65536)
  | 0x54 => need 8 (c.f 0 0 2 == 2 || c.f 0 0 2 < s.part.channels)
  | 0x55 => need 8 (c.f 0 0 8 ≤ 2) ++
      need 9 (match c.f 0 0 8 with
        | 0 => c.f 0 8 8 < 34 && (s.part == .zr3218 || c.f 0 8 8 < 16 || 32 ≤ c.f 0 8 8)
        | 1 => c.f 0 8 8 < s.part.compressors
        | _ => c.f 0 8 8 == 0)
  | 0x70 => need 8 (c.p 0 % 4 == 0) ++ need 16 (c.p 2 % 4096 == 0) ++
      need 20 (1 ≤ c.p 3 && c.p 3 ≤ 65536 && (c.f 4 0 1 == 1 || c.p 3 % 4096 == 0) && c.p 2 + c.p 3 ≤ 2 ^ 22)
  | _ => []

/-- The byte offset of the first offending field of a packet (R65 step 6, R81). -/
def fieldError (info : OpInfo) (c : Cmd) (s : State) : Option Nat :=
  least (reservedBad info c.iss ++ rangeBad c.op.toNat c s)

/-- The detail of a packet that fails the CRC checks (R57, R58). -/
def crcError (s : State) (op : Byte) (i : Issue) : Option Nat :=
  if i.crcPresent then (if crc32c (packetBytes op i) = i.crc then none else some 0x15)
  else if s.hosts[i.host].requireCrc then some 0x16 else none

end Sys2Proof.Machine
end

