-- ==== Sys2Proof/Machine/Grid.lean ====
section
/-! DEFINITION. The slot grid of a channel (R131 to R139, R156): course table entries and when they are live, the slot counter and
its holds, what each slot of the course under way runs as, the windows (R136, R141, R148, R314), and the banks that overlay
entries block (R136, R144 to R146). -/

namespace Sys2Proof.Machine

/-! ### Course table entries -/

/-- A course table entry (R134). -/
structure Entry where
  type : Nat
  start : Nat
  span : Nat
  sub : Nat
  rank : Nat
  link : Nat
  reserve : Nat
  mod : Nat
  phase : Nat
  compressible : Bool
  hot : Bool
  low : Nat
deriving DecidableEq, Repr

/-- The fields of an entry (R134). -/
def Entry.of (w : BitVec 64) : Entry :=
  let n := w.toNat
  { type := bits n 60 4, start := bits n 48 12, span := bits n 38 10, sub := bits n 36 2, rank := bits n 34 2
    link := bits n 29 5, reserve := bits n 20 9, mod := bits n 16 4, phase := bits n 4 12
    compressible := bits n 3 1 == 1, hot := bits n 2 1 == 1, low := bits n 0 2 }

namespace Entry

/-- First slot after the entry. -/
def fin (e : Entry) : Nat := e.start + e.span

/-- IDLE, FETCH, TEMPER and WINDOW (R136). -/
def isBus (e : Entry) : Bool := e.type == 0 || e.type == 1 || e.type == 4 || e.type == 5

/-- REFSB, MITIG and ZQCAL (R136). -/
def isOverlay (e : Entry) : Bool := e.type == 2 || e.type == 3 || e.type == 6

/-- FETCH. -/
def isFetch (e : Entry) : Bool := e.type == 1

/-- Bank of a REFSB or MITIG entry, bits [30:29]. -/
def bank (e : Entry) : Fin 4 := Fin.ofNat 4 e.link

/-- Physical rank. -/
def rankId (e : Entry) : RankId := Fin.ofNat 4 e.rank

/-- KIND of a TEMPER entry: 0 OSC, 1 READ, 2 WRITE. -/
def kind (e : Entry) : Nat := e.reserve % 4

/-- The subchannel is in SUB. -/
def onSub (e : Entry) (u : Nat) : Bool := bits e.sub u 1 == 1

/-- Two entries share a subchannel. -/
def shareSub (e f : Entry) : Bool := (e.onSub 0 && f.onSub 0) || (e.onSub 1 && f.onSub 1)

/-- Live in a course of this number, with hot refresh in force or not (R150). -/
def live (e : Entry) (number : Nat) (hot : Bool) : Bool := number % 2 ^ e.mod == e.phase && (!e.hot || hot)

/-- Live in some course together (R136). -/
def coLive (e f : Entry) : Bool :=
  let m := min e.mod f.mod
  e.phase % 2 ^ m == f.phase % 2 ^ m

/-- First slot of the blocking part of an overlay entry (R136). -/
def blockFrom (e : Entry) : Nat := if e.type = 6 then e.fin - 6 else e.start

/-- Two ranges of slots share a slot. -/
def meet (a b c d : Nat) : Bool := decide (a < d) && decide (c < b)

/-- The entry owns or blocks a slot. -/
def covers (e : Entry) (slot : Nat) : Bool := decide (e.start ≤ slot) && decide (slot < e.fin)

/-- A field or a part of one that R135 marks 0 for the type is not 0, or bits [1:0] are not 0. -/
def zeroBroken (e : Entry) : Bool :=
  e.low != 0 ||
    match e.type with
    | 0 | 5 => e.rank != 0 || e.link != 0 || e.reserve != 0
    | 1 => e.rank != 0
    | 2 | 3 => decide (4 ≤ e.link) || e.reserve != 0
    | 4 => e.link != 0 || decide (4 ≤ e.reserve)
    | _ => e.link != 0 || e.reserve != 0

/-- The minimum span of a type other than FETCH, in slots (R137). -/
def minSpan (e : Entry) (density : Nat) : Nat :=
  match e.type with
  | 2 | 3 => if density = 16 then 30 else 42
  | 4 => if e.kind = 0 then 40 else 160
  | 6 => 206
  | _ => 1

end Entry

/-- The entries of a bank, in order. -/
def Bank.table (b : Bank) : List Entry := b.entries.map Entry.of

/-- Entry `i` is the first of a run: no other FETCH entry ends at its START (R139). -/
def firstOfRun (es : List Entry) (i : Nat) (e : Entry) : Bool :=
  !((es.zipIdx).any fun x => x.2 != i && x.1.isFetch && x.1.fin == e.start)

/-- Who asks for a DRAM command, as a trace record says it (R364): the source, the requester and the course table entry; with the
host port whose window requests its activates count against (R298). -/
structure By where
  source : Nat := 2
  requester : Nat := 0xFF
  entry : Nat := 0xFFFF
  port : Option HostId := none
deriving DecidableEq, Repr

/-- A command trace record (R364). -/
def traceRecord (mck code rank group bank col row : Nat) (by_ : By) : BitVec 128 :=
  BitVec.ofNat 128 (mck % 2 ^ 32 + 2 ^ 32 * (code % 256) + 2 ^ 40 * (rank % 4 + 4 * (group % 8) + 32 * (bank % 4)) +
    2 ^ 48 * (col % 2 ^ 16) + 2 ^ 64 * (row % 2 ^ 32) + 2 ^ 96 * by_.source + 2 ^ 104 * by_.requester + 2 ^ 112 * by_.entry)

/-- The host port of a requester (R310). -/
def portOf (r : Fin 12) : Option HostId := if h : r.val < 8 then some ⟨r.val / 2, by omega⟩ else none

/-- A transfer of a requester in a window asks for a command. -/
def By.window (r : Fin 12) (port : Option HostId) : By :=
  { source := if r = 9 ∨ r = 10 then 3 else 1, requester := r.val, port := port }

/-- A course table entry asks for a command; `source` is 0 for FETCH, 2 for the others. -/
def By.slot (source i : Nat) : By := { source := source, entry := i }

/-- The guard asks for a command. -/
def By.guard : By := { source := 4 }

/-- MCK in a time at a data rate. -/
def mckIn (mts tau : Nat) : Nat := tau * mts / 320000

/-- MCK that cover a time in nanoseconds at a data rate (R149). -/
def mckFor (mts ns : Nat) : Nat := ceilDiv (ns * mts) 2000

/-- The time that MCK take at a data rate, in tau. -/
def tauOf (mts mck : Nat) : Nat := if mts = 0 then 0 else ceilDiv (mck * 320000) mts

/-- MCK for which the guard enforces a time in picoseconds (R149): counted at the nominal MCK, lengthened by half the depth while MEM
runs in CENTRE mode (R376) and by 0.1 % while it coasts (R379). Depths are in 0.05 %, so both are counted in 1/4,000. -/
def State.guardMck (s : State) (c : ChanId) (ps : Nat) : Nat :=
  let k := s.clk
  let more := (if k.force.memMode = 2 then k.force.memDepth.val else 0) + (if k.loops[(1 : Fin 3)].st = .coasting then 4 else 0)
  ceilDiv (ps * s.chans[c].mts * (4000 + more)) (2000000 * 4000)

/-- The same in tau. -/
def State.guardTau (s : State) (c : ChanId) (ps : Nat) : Nat := tauOf s.chans[c].mts (s.guardMck c ps)

/-- The slot that is reached when so many slots have run, with those skipped left out (R183). -/
def slotAfter (skipped : List Nat) (run : Nat) : Nat := skipped.foldl (fun k x => if x ≤ k then k + 1 else k) run

namespace State

/-- The channel grants and moves data: it is in service, or finishes what it holds in QUIESCE (R304). -/
def chanServes (s : State) (c : ChanId) : Bool := s.chans[c].st == .service || s.chans[c].st == .quiesce

/-- COURSE_SLOTS of the course (R133). -/
def grid (s : State) : Nat := (s.table s.lead).slots

/-- The value of the slot counter in MCK at which a slot begins. -/
def mckOf (s : State) (c : ChanId) (slot : Nat) : Nat := 16 * (slot - (s.chans[c].skipped.filter (· < slot)).length)

/-- The value of the slot counter at the end of the course (R133, R182). -/
def endMck (s : State) (c : ChanId) : Nat := s.mckOf c s.grid

/-- The slot counter of a channel is held by a storm retrain (R300). -/
def storming (s : State) (c : ChanId) : Bool := s.chans[c].subs[0].storm || s.chans[c].subs[1].storm

/-- First slot in which a FETCH entry no longer uses the bus: after the slot of its last data beat, its START when it is given
no burst (R141). -/
def busEnd (s : State) (c : ChanId) (i : Nat) (e : Entry) : Nat :=
  match (s.chans[c].given.find? fun x => x.1 = i) with
  | none => e.start
  | some (_, k) =>
    min e.fin (e.start + (if firstOfRun (s.table c).table i e then 2 else 0) + ceilDiv k 2)

/-- The slot at which an entry that has still to act holds the counter (R147, R156): the last one that it uses for a FETCH or a
TEMPER entry, else its START. -/
def holdSlot (s : State) (c : ChanId) (i : Nat) (e : Entry) : Nat :=
  if e.type = 1 then max e.start (s.busEnd c i e - 1)
  else if e.type = 4 then min (s.grid - 1) (e.fin - 1)
  else e.start

/-- Counter values at which the counter stops until something has been done: the entries and Latches that are still to come,
a forced command, and a write half that outlasts its window (R321). -/
def stops (s : State) (c : ChanId) : List Nat :=
  let es := (s.table c).table
  (s.chans[c].due.filterMap fun i => es[i]?.map fun e => s.mckOf c (s.holdSlot c i e)) ++
    (s.chans[c].latch.filterMap fun i => es[i]?.map fun e => s.mckOf c e.blockFrom) ++
    s.chans[c].forcedAt.toList ++
    ((s.chans[c].arb.holder.filter fun x => x.2.half).map fun x => x.2.closes).toList

/-- The slot counter of a channel in MCK of the course under way (R156): it runs with the time, it stands while a hold of known
length or a storm retrain lasts, and it waits where something is still to be done. -/
def mckNow (s : State) (c : ChanId) : Nat :=
  let ch := s.chans[c]
  if s.storming c then ch.base
  else (s.stops c).foldl min (min (s.endMck c) (ch.base + mckIn ch.mts (s.time - ch.from_)))

/-- The time at which the counter reaches a value when nothing holds it any more. -/
def timeOf (s : State) (c : ChanId) (m : Nat) : Nat := s.chans[c].from_ + tauOf s.chans[c].mts (m - s.chans[c].base)

/-- MCK for which the counter has been waiting at a value. -/
def lateBy (s : State) (c : ChanId) (m : Nat) : Nat := mckIn s.chans[c].mts (s.time - s.timeOf c m)

/-- The counter stands at a value until a time, or until the end of a hold that already lasts longer, that of a forced command
among them (R156, R160). -/
def holdAt (s : State) (c : ChanId) (m until_ : Nat) : State :=
  s.updChan c fun ch => { ch with base := m, from_ := max ch.from_ (max until_ ch.forcedTo) }

/-- The counter does not advance now: a hold of known length or a storm retrain lasts, or something is still to be done at its
value, or the channel waits at the end of its course. -/
def counterHeld (s : State) (c : ChanId) : Bool :=
  s.storming c || decide (s.time < s.chans[c].from_) || (s.stops c).any (· ≤ s.mckNow c) ||
    decide (s.endMck c ≤ s.mckNow c)

/-! ### Forced commands of the guard (R160, R297) -/

/-- The rank is fitted and was trained. -/
def rankTrained (s : State) (c : ChanId) (r : RankId) : Bool :=
  s.chans[c].ranks[r].st != .notFitted && s.chans[c].ranks[r].st != .failed

/-- The physical rank takes no commands: it is retired or in self-refresh (R159, R303). -/
def rankAsleep (s : State) (c : ChanId) (r : RankId) : Bool :=
  s.chans[c].ranks[r].st == .retired || s.chans[c].ranks[r].selfRefresh

/-- The place of a bank index of a subchannel in a rank's record. -/
def bankSlot (u : SubId) (b : Fin 4) : Fin 8 := ⟨4 * u.val + b.val, by omega⟩

/-- The record of a bank index. -/
def bankIdx (s : State) (c : ChanId) (r : RankId) (u : SubId) (b : Fin 4) : BankIdx :=
  s.chans[c].ranks[r].banks[bankSlot u b]

/-- A forced refresh is due for a bank index (R160). -/
def forcedDue (s : State) (c : ChanId) (r : RankId) (u : SubId) (b : Fin 4) : Bool :=
  s.rankTrained c r && !s.rankAsleep c r && decide ((s.bankIdx c r u b).credit ≤ -4)

/-- A forced command is due on a channel. -/
def anyForced (s : State) (c : ChanId) : Bool :=
  s.chans[c].rfmDue != [] ||
    (List.finRange 4).any fun r => (List.finRange 2).any fun u => (List.finRange 4).any fun b => s.forcedDue c r u b

/-- Something comes about that may make a forced command due: the guard inserts it at the next slot (R160, R297). -/
def force (s : State) (c : ChanId) (f : State → State) : State :=
  let s1 := f s
  let next := (s.mckNow c + 15) / 16 * 16
  if s1.anyForced c && !s.anyForced c then s1.updChan c fun ch => { ch with forcedAt := some next } else s1

/-- Once no forced command is due, the guard inserts none. -/
def settleForced (s : State) (c : ChanId) : State :=
  if s.anyForced c then s else s.updChan c fun ch => { ch with forcedAt := none }

/-- Slots of the course that have begun on a channel, skipped ones among them. -/
def slotsBegun (s : State) (c : ChanId) : Nat := slotAfter s.chans[c].skipped (s.mckNow c / 16)

/-- The slot counter (R131): the slot that runs. -/
def slotNow (s : State) (c : ChanId) : Nat := min (s.slotsBegun c) (s.grid - 1)

/-- Slots that a channel which has reached the end of the course has waited for the boundary (R133). -/
def slotsWaited (s : State) (c : ChanId) : Nat :=
  if s.endMck c ≤ s.mckNow c then s.lateBy c (s.endMck c) / 16 else 0

/-- Slots that a channel has run, by which requests age (R317). -/
def slotsRun (s : State) (c : ChanId) : Nat :=
  s.chans[c].slotBase + (if s.chanServes c then s.slotsBegun c + s.slotsWaited c else 0)

/-! ### DRAM commands and their trace (R363, R364) -/

/-- A command goes to a rank of a subchannel: its record joins the trace, which holds 512 (R363, R364). DEDUCED: the MCK count of an
access is that of the end of its step (log entry 114). -/
def traceCmd (s : State) (c : ChanId) (u : SubId) (code : Nat) (r : RankId) (group bank col row : Nat) (by_ : By) : State :=
  let rec_ := traceRecord (mckIn s.chans[c].mts s.time) code r.val group bank col row by_
  s.updChan c fun ch => { ch with subs := vmod ch.subs u fun x => { x with trace := (rec_ :: x.trace).take 512 } }

/-- A command other than an access to a row goes to a rank of a subchannel. -/
def issue (s : State) (c : ChanId) (code : Nat) (r : RankId) (u : SubId) (group bank : Nat) (by_ : By) : State :=
  (s.traceCmd c u code r group bank 0 0 by_).emit (.dramCmd c code r u bank)

/-- Close the open rows of a channel that meet a test, each by a PRE (R291). -/
def closeRows (s : State) (c : ChanId) (test : Row → Bool) (by_ : By) : State :=
  let s1 := (s.chans[c].rows.filter test).foldl
    (fun (acc : State) x => acc.issue c 4 x.rank x.sub x.group.val x.bank.val by_) s
  s1.updChan c fun ch => { ch with rows := ch.rows.filter fun x => !test x }

/-- Close the open rows of a rank on a subchannel by one PREab (R291). -/
def closeRank (s : State) (c : ChanId) (r : RankId) (u : SubId) (by_ : By) : State :=
  let mine (x : Row) : Bool := x.rank == r && x.sub == u
  let s1 := if s.chans[c].rows.any mine then s.issue c 5 r u 0 0 by_ else s
  s1.updChan c fun ch => { ch with rows := ch.rows.filter fun x => !mine x }

/-- A command goes to a rank on both subchannels. -/
def issueBoth (s : State) (c : ChanId) (code : Nat) (r : RankId) (by_ : By) : State :=
  (s.issue c code r 0 0 0 by_).issue c code r 1 0 0 by_

/-- Close the rows of a rank on both subchannels. -/
def closeBoth (s : State) (c : ChanId) (r : RankId) (by_ : By) : State := (s.closeRank c r 0 by_).closeRank c r 1 by_

/-- A rank is used: it leaves power-down by a PDX (R302). -/
def useRank (s : State) (c : ChanId) (r : RankId) (by_ : By) : State :=
  (if s.chans[c].ranks[r].powerDown then s.issueBoth c 15 r by_ else s).updRank c r fun k =>
    { k with lastUse := s.slotsRun c, powerDown := false }

/-- A rank goes into self-refresh on both subchannels: PREab, and SRE (R304). -/
def sreRank (s : State) (c : ChanId) (r : RankId) : State :=
  if s.rankTrained c r && !s.rankAsleep c r then ((s.useRank c r {}).issueBoth c 5 r {}).issueBoth c 12 r {} else s

/-- A channel enters the SRE-issued phase of self-refresh entry (R304). -/
def issueSreOn (s : State) (c : ChanId) : State :=
  ((List.finRange 4).foldl (fun acc r => acc.sreRank c r) s).updChan c fun ch => { ch with st := .sreIssued, rows := [] }

/-! ### What a slot runs as -/

/-- A slot of the course under way runs as WINDOW on a subchannel (R133, R136, R141): a live bus entry over it decides, a FETCH
entry frees what it does not use and all of a rest course, and a slot of entries that are not live is WINDOW. -/
def windowAt (s : State) (c : ChanId) (u : SubId) (slot : Nat) : Bool :=
  let b := s.table c
  let cover := b.table.zipIdx.filter fun x => x.1.isBus && x.1.onSub u.val && x.1.covers slot
  decide (slot < b.slots) && match cover.find? fun x => x.1.live s.seq.number s.chans[c].hot with
    | some (e, i) => e.type == 5 || (e.type == 1 && (!s.seq.fill || decide (s.busEnd c i e ≤ slot)))
    | none => !cover.isEmpty

/-- A slot of the next course runs as WINDOW whether it fills or rests, on the table that is active now (R314). -/
def windowNext (s : State) (c : ChanId) (u : SubId) (slot : Nat) : Bool :=
  let b := s.table c
  let cover := b.table.filter fun e => e.isBus && e.onSub u.val && e.covers slot
  decide (slot < b.slots) && match cover.find? fun e => e.live (s.seq.number + 1) s.chans[c].hot with
    | some e => e.type == 5
    | none => !cover.isEmpty

/-- The first slot from one on at which what a slot runs as may change. -/
def nextEdge (s : State) (c : ChanId) (slot : Nat) : Nat :=
  let edges := (s.table c).table.zipIdx.flatMap fun x => [x.1.start, x.1.fin, s.busEnd c x.2 x.1]
  (edges.filter fun k => decide (slot < k)).foldl min (max (slot + 1) s.grid)

/-- The end of the run of slots that meet a test, from one on: at most so many edges are looked at. -/
def runEnd (s : State) (c : ChanId) (test : Nat → Bool) : Nat → Nat → Nat
  | 0, slot => slot
  | fuel + 1, slot => if slot < s.grid && test slot then s.runEnd c test fuel (s.nextEdge c slot) else slot

/-- MCK from now to the end of the window that is open on a subchannel, 0 when none is (R314): a window goes on while a channel
waits at the end of its course and across the boundary, where the slots on both sides are window slots and no new table takes
force. -/
def windowMck (s : State) (c : ChanId) (u : SubId) : Nat :=
  let fuel := 3 * (s.table c).entries.length + 2
  let now := s.mckNow c
  let slot := s.runEnd c (s.windowAt c u) fuel (s.slotsBegun c)
  let here := s.mckOf c slot - now
  if slot < s.grid then here
  else
    let ends := s.chansInUse.map fun k => if s.chanServes k then s.timeOf k (s.endMck k) else 0
    let wait := mckIn s.chans[c].mts (ends.foldl max 0 - max s.time (s.timeOf c (s.endMck c)))
    here + wait + (if s.ks.banks[c] || s.chans[c].st == .quiesce then 0
      else 16 * s.runEnd c (s.windowNext c u) fuel 0)

/-! ### Blocked banks -/

/-- A REFSB or MITIG entry that acts now on a subchannel would issue its command (R145, R159). -/
def wouldIssue (s : State) (c : ChanId) (e : Entry) (u : SubId) : Bool :=
  let k := s.chans[c].ranks[e.rankId]
  let b := k.banks[bankSlot u e.bank]
  k.st != .retired && !k.selfRefresh && if e.type = 2 then decide (b.credit < 4) else b.need

/-- An entry blocks a subchannel in the course under way, or will, as far as the state shows (R136). -/
def blocking (s : State) (c : ChanId) (i : Nat) (e : Entry) (u : SubId) : Bool :=
  e.onSub u.val && (s.chans[c].blocks.contains (i, u) ||
    (s.chans[c].due.contains i && e.isOverlay && (e.type == 6 || s.wouldIssue c e u)) || s.chans[c].latch.contains i)

/-- A bank is blocked now, or an overlay entry's blocking part begins before the counter reaches a value (R315). -/
def bankBlocked (s : State) (c : ChanId) (r : RankId) (u : SubId) (b : Fin 4) (upTo : Nat) : Bool :=
  (s.table c).table.zipIdx.any fun x =>
    let e := x.1
    e.isOverlay && e.rankId == r && (e.type == 6 || e.bank == b) && s.blocking c x.2 e u &&
      decide (s.slotsBegun c < e.fin) && decide (s.mckOf c e.blockFrom < upTo)

end State

end Sys2Proof.Machine
end

