-- ==== Sys2Proof/Machine/Store.lean ====
section
/-! DEFINITION. The store of codewords behind the raster addresses: a list of cells in one canonical form, the reads and
writes of words and bursts, and what a write does to an armed injection (R340). -/

namespace Sys2Proof.Machine

/-! ### Cells -/

/-- The cells are strictly rising by address and none holds what an unlisted cell reads, 0. -/
abbrev Memory.wf (m : List Host.Cell) : Prop := m.Pairwise (fun x y => x.1 < y.1) ∧ ∀ x ∈ m, x.2 ≠ 0

/-- Read a cell. -/
def Memory.read : List Host.Cell → Nat → Byte
  | [], _ => 0
  | (k, b) :: m, a => if k = a then b else Memory.read m a

/-- Write a cell and keep the canonical form. -/
def Memory.write : List Host.Cell → Nat → Byte → List Host.Cell
  | [], a, v => if v = 0 then [] else [(a, v)]
  | (k, b) :: m, a, v =>
    if a < k then (if v = 0 then (k, b) :: m else (a, v) :: (k, b) :: m)
    else if a = k then (if v = 0 then m else (k, v) :: m)
    else (k, b) :: Memory.write m a v

/-- Read bytes from an address up. -/
def Memory.readN (m : List Host.Cell) (a : Nat) : Nat → List Byte
  | 0 => []
  | n + 1 => Memory.read m a :: Memory.readN m (a + 1) n

/-- Write bytes from an address up. -/
def Memory.writeN (m : List Host.Cell) (a : Nat) : List Byte → List Host.Cell
  | [] => m
  | b :: bs => Memory.writeN (Memory.write m a b) (a + 1) bs

/-! ### Words and bursts -/

/-- The stored codeword of word number `w`. -/
def readWord (m : List Host.Cell) (w : Nat) : BitVec 80 := BitVec.ofNat 80 (leNat (Memory.readN m (10 * w) 10))

/-- Store a codeword. -/
def writeWord (m : List Host.Cell) (w : Nat) (c : BitVec 80) : List Host.Cell :=
  Memory.writeN m (10 * w) (leBytes 10 c.toNat)

/-- The eight stored codewords of the burst at an address (R330). -/
def readBurst (m : List Host.Cell) (a : Nat) : List (BitVec 80) := (List.range 8).map fun k => readWord m (a / 8 + k)

/-- Store the eight codewords of a burst. -/
def writeBurst (m : List Host.Cell) (a : Nat) (ws : List (BitVec 80)) : List Host.Cell :=
  (ws.zipIdx).foldl (fun acc x => writeWord acc (a / 8 + x.2) x.1) m

/-- The 64 bytes of a burst as a number, from eight data words. -/
def joinWords (ws : List (BitVec 64)) : BitVec 512 :=
  BitVec.ofNat 512 (ws.zipIdx.foldl (fun acc x => acc + x.1.toNat * 2 ^ (64 * x.2)) 0)

/-- Word `k` of a burst. -/
def wordOf (b : BitVec 512) (k : Nat) : BitVec 64 := b.extractLsb' (64 * k) 64

/-- Byte `k` of a burst. -/
def byteOf (b : BitVec 512) (k : Nat) : Byte := b.extractLsb' (8 * k) 8

/-- The bytes of a burst. -/
def burstBytes (b : BitVec 512) : List Byte := (List.range 64).map (byteOf b)

/-- A burst from its bytes. -/
def ofBytes (bs : List Byte) : BitVec 512 := BitVec.ofNat 512 (leNat bs)

namespace State

/-- Write a burst's codewords through the channel: an injection armed on one of its words is applied and disarmed, with an
INJECTED entry (R340), and the write joins the last 16 of its subchannel (R299). -/
def storeBurst (s : State) (a : Nat) (ws : List (BitVec 80)) : State :=
  let l := s.raster.loc a
  let ch := s.chans[l.chan]
  let (ws1, hit) := match ch.armed with
    | some (w, m) => if w / 64 = a / 64 then (ws.modify (w % 64 / 8) (· ^^^ m), true) else (ws, false)
    | none => (ws, false)
  let s1 := s.updRaster fun r => { r with dram := writeBurst r.dram a ws1 }
  let s2 := s1.updChan l.chan fun c => { c with
    armed := if hit then none else c.armed
    subs := vmod c.subs l.sub fun u => { u with kept := (⟨a, ws1⟩ :: u.kept).take 16 } }
  if hit then
    { s2 with logs := { s2.logs with ecc := s2.logs.ecc ++ [{
        time := s2.us, type := 0x0D15,
        body := body [s2.courseFld, fld 12 1 l.chan.val, fld 13 1 l.sub.val, fld 15 1 6, fld 17 1 255, fld 18 1 255,
          fld 19 1 255, fld 24 8 a, fld 32 4 l.row, fld 36 2 l.col] }] } }
  else s2

/-- Write a burst of 64 bytes with fresh check bits and the poison bits given for its words. -/
def storeData (s : State) (a : Nat) (b : BitVec 512) (poison : Nat → Bool) : State :=
  s.storeBurst a ((List.range 8).map fun k => encodeWord (wordOf b k) (poison k))

end State

end Sys2Proof.Machine
end

