-- ==== Sys2Proof/Machine/Commands.lean ====
section
/-! DEFINITION. The life of a command: fetching a packet (R54, R61), the order of starting (R62, R63), the checks of R65, the
completion (R53, R59, R60), and what stops the commands of a host (R27, R42). -/

namespace Sys2Proof.Machine

/-- Status codes (R80). -/
inductive Status where
  | success | noshrink | invalidOpcode | invalidField | notSteward | fenced | partitionViolation | resourceConflict
  | tableRejected | tableActive | uncorrectable | partialOnUe | outputLimit | busyMigrating | aborted | banked | packetCrc
  | noSpare | quenched | timeout | sealed | notAttached
deriving DecidableEq, Repr

/-- The code of a status (R80). -/
def Status.code : Status → Nat
  | .success => 0x00 | .noshrink => 0x01 | .invalidOpcode => 0x02 | .invalidField => 0x03 | .notSteward => 0x04
  | .fenced => 0x05 | .partitionViolation => 0x06 | .resourceConflict => 0x07 | .tableRejected => 0x08
  | .tableActive => 0x09 | .uncorrectable => 0x0A | .partialOnUe => 0x0B | .outputLimit => 0x0C
  | .busyMigrating => 0x0D | .aborted => 0x0E | .banked => 0x0F | .packetCrc => 0x10 | .noSpare => 0x11
  | .quenched => 0x12 | .timeout => 0x13 | .sealed => 0x14 | .notAttached => 0x15

/-- The answer of a command: status, detail and the two results (R59, R81). -/
structure Answer where
  status : Status := .success
  detail : Nat := 0
  r0 : Nat := 0
  r1 : Nat := 0
deriving DecidableEq, Repr

/-- A completion entry of 16 bytes (R59). -/
def completionEntry (tag : BitVec 16) (a : Answer) (phase : Bool) (q : QueueId) (sqHead : Nat) : BitVec 128 :=
  BitVec.ofNat 16 a.detail ++ BitVec.ofNat 16 sqHead ++ BitVec.ofNat 32 a.r1 ++ BitVec.ofNat 32 a.r0 ++
    (BitVec.ofNat 8 ((if phase then 128 else 0) + q.val) ++ BitVec.ofNat 8 a.status.code ++ tag)

/-- The queue after one completion has been written (R53). -/
def Queue.advance (k : Queue) : Queue :=
  if k.cqTail + 1 < k.size then { k with cqTail := k.cqTail + 1 } else { k with cqTail := 0, phase := !k.phase }

/-! ### Names of commands, strips and domains -/

/-- A command has started. -/
def Cmd.isStarted (c : Cmd) : Bool := c.prog ≠ .waiting

/-- Commands that wait for every earlier command of their host (R63). -/
def serialOp (op : Nat) : Bool := [0x06, 0x21, 0x08, 0x09, 0x71, 0x72].contains op

/-- What an access asks of a partition (R37). -/
inductive Access where
  | read | write | alloc
deriving DecidableEq, Repr

/-- The handle of a strip (R107). -/
def Strip.handle (t : Strip) : Nat := t.gen * 8192 + t.idx

/-- The domain of a channel: MEMA or MEMB. -/
def memDomain (c : ChanId) : DomainId := ⟨3 + c.val, by omega⟩

/-- The domain of a link: LINKL or LINKH. -/
def linkDomain (n : LinkId) : DomainId := if n.val < 16 then 6 else 7

/-- The window requester of a command (R310); none for a command that uses no window. -/
def Cmd.requester (c : Cmd) : Option (Fin 12) :=
  match c.op.toNat with
  | 0x14 => some ⟨2 * c.host.val, by omega⟩
  | 0x12 | 0x15 => some ⟨2 * c.host.val + 1, by omega⟩
  | 0x13 | 0x16 => some 8
  | 0x50 | 0x51 | 0x52 => some 11
  | _ => none

namespace State

/-! ### Completion -/

/-- A disable that waits takes effect once no command of the queue is in flight (R50). -/
def settleDisable (s : State) (h : HostId) (q : QueueId) : State :=
  if (s.queue h q).disabling && s.queueFlight h q == 0 then
    s.updQueue h q fun k => { k with enable := false, disabling := false }
  else s

/-- Write the completion of a command in flight, take it out of flight, and raise its source when it is asked for (R53,
R59, R60). A command that is no longer in flight gets no completion. -/
def finish (s : State) (id : Nat) (a : Answer) : State :=
  match s.findCmd id with
  | none => s
  | some c =>
    let h := c.iss.host
    let q := c.iss.queue
    let k := s.queue h q
    let s1 := s.emit (.completion h q k.cqTail (completionEntry c.iss.tag a k.phase q k.sqHead))
    let s2 := ((s1.updQueue h q Queue.advance).dropCmd id).settleDisable h q
    if c.iss.notify || k.notifyAll then s2.raise ⟨4 * h.val + q.val, by omega⟩ else s2

/-- Complete with SUCCESS and results. -/
def succeed (s : State) (id : Nat) (r0 : Nat := 0) (r1 : Nat := 0) : State := s.finish id { r0 := r0, r1 := r1 }

/-- Complete with a status other than SUCCESS. -/
def fail (s : State) (id : Nat) (st : Status) (detail : Nat := 0) (r0 : Nat := 0) (r1 : Nat := 0) : State :=
  s.finish id { status := st, detail := detail, r0 := r0, r1 := r1 }

/-! ### Stopping -/

/-- The transfer is this command's. -/
def isOf (id : Nat) (x : Xfer) : Bool := x.src == .cmd id

/-- Transfers that the arbiters hold, presented or granted. -/
def transfers (s : State) (c : ChanId) : List Xfer :=
  let a := s.chans[c].arb
  a.reqs.toList.flatten ++ (a.holder.map (·.2)).toList

/-- Bursts of a command that its arbiters hold, or that wait for the writeback requester. -/
def presentedBursts (s : State) (id : Nat) : List Burst :=
  ([(0 : ChanId), 1].flatMap fun c => ((s.transfers c).filter (isOf id)).flatMap (·.bursts)) ++
    (s.writeback.filter fun x => x.1 = id).map (·.2)

/-- Withdraw a command's transfers from both arbiters (R322). -/
def withdraw (s : State) (id : Nat) : State :=
  { s with
    writeback := s.writeback.filter fun x => x.1 ≠ id
    chans := s.chans.map fun ch => { ch with arb := { ch.arb with
      reqs := ch.arb.reqs.map fun l => l.filter fun x => !isOf id x
      holder := ch.arb.holder.filter fun x => !isOf id x.2 } } }

end State

/-- The 64-byte bursts of an ashlar, in address order. -/
def Raster.ashlarBursts (r : Raster) (n : Nat) : List Nat := (List.range 1024).map fun k => r.ashlarBase n + 64 * k

/-! ### Ranges and bytes of a command -/

/-- First raster byte and length of a command's range. -/
def Cmd.range (c : Cmd) : Nat × Nat :=
  match c.op.toNat with
  | 0x50 | 0x51 => (c.raster 2, 8 * c.f 4 0 16)
  | 0x52 => (c.raster 0, 8)
  | _ => (c.raster 2, c.p 4)

/-- The command writes the byte at an address, and with what (R101, R93). -/
def Cmd.byteAt (c : Cmd) (a : Nat) : Option Byte :=
  let (lo, len) := c.range
  if lo ≤ a ∧ a < lo + len then some (if c.op = 0x12 then c.buf.getD (a - lo) 0 else 0) else none

/-- How many bytes of a word a command writes. -/
def Cmd.coverage (c : Cmd) (w : Nat) : Nat := ((List.range 8).filter fun k => (c.byteAt (w + k)).isSome).length

/-- The eight bytes of a word with the command's bytes merged over old ones. -/
def Cmd.mergeWord (c : Cmd) (w : Nat) (old : BitVec 64) : BitVec 64 :=
  BitVec.ofNat 64 (leNat ((List.range 8).map fun k => (c.byteAt (w + k)).getD (old.extractLsb' (8 * k) 8)))

/-- The ashlars of extents, in the order of the stream (R108). -/
def extentAshlars (xs : List (Nat × Nat)) : List Nat := (xs.map fun e => (List.range e.2).map fun k => e.1 + k).flatten

/-- The place of a burst in a chain of ashlars, if it lies there. -/
def chainIndex (r : Raster) (chain : List Nat) (a : Nat) : Option Nat :=
  (chain.findIdx? fun n => n == r.ashlar a).map fun j => 1024 * j + a % 65536 / 64

/-- The address of burst `k` of a chain of ashlars (R108, R109). -/
def chainAt (r : Raster) (chain : List Nat) (k : Nat) : Nat := r.ashlarBase (chain.getD (k / 1024) 0) + 64 * (k % 1024)

/-- A burst of a command's output has gone to the writeback requester (R116). -/
def Output.hasSent (o : Output) (r : Raster) (a : Nat) : Bool :=
  match chainIndex r (extentAshlars o.extents) a, chainIndex r o.index a with
  | some k, _ => decide (k < o.sent)
  | none, some k => decide (k < o.sentIndex)
  | none, none => true

/-- The command writes output of a compressor: WRITE_COMPRESS or SEAL_STRIP. -/
def Cmd.compresses (c : Cmd) : Bool := c.op == 0x13 || c.op == 0x16

/-- The command's data pass through host staging (R223, R225): WRITE_RAW, READ, ZERO, and the commands on single words. -/
def Cmd.usesStaging (c : Cmd) : Bool := [0x12, 0x14, 0x15, 0x50, 0x51, 0x52].contains c.op.toNat

/-- The write half of a read-modify-write, word by word (R336): the word written and whether it counts as poisoned. -/
def mergedWord (c : Cmd) (w : Nat) (old : BitVec 80) : BitVec 80 × Bool :=
  let d := decodeWord old
  let n := c.coverage w
  if n = 8 then (encodeWord (c.mergeWord w 0) false, false)
  else match d.out with
    | .uncorrectable => (encodeWord (c.mergeWord w (wordData old)) true, true)
    | .poison => (encodeWord (c.mergeWord w (wordData d.word)) true, n ≠ 0)
    | _ => (encodeWord (c.mergeWord w (wordData d.word)) false, false)

namespace State

/-- Bursts of a command that are not yet written: to be presented, presented or granted, and those still to be handed out
from `next` up. -/
def unwritten (s : State) (c : Cmd) (a : Nat) : Bool :=
  (c.todo ++ s.presentedBursts c.id).any (fun b => b.addr == a) || (c.next ≤ a && a < c.stop) ||
    (c.compresses && !c.out.hasSent s.raster a)

/-- A stopped command leaves its fills to run on with zeros; a fill of which no burst has been written is dropped. What a
compressor had taken goes back unwritten, at once or when its fill ends (R42, R92, R118, R119). -/
def orphanFills (s : State) (c : Cmd) : State :=
  s.updRaster fun r => { r with
    written := r.written.filter fun n => !c.out.taken.contains n
    filling := r.filling.filterMap fun f =>
      if f.cmd = c.id ∧ f.rest = none then
        let rest := (r.ashlarBursts f.ashlar).filter (s.unwritten c)
        if rest.length = 1024 then none else some { f with rest := some rest, back := c.compresses }
      else some f }

/-- A WRITE_RAW or a ZERO stops at one point of its range (R101): bursts below the highest one that it has written, which the
other channel had still to write, are written with it. -/
def levelWrites (s : State) (c : Cmd) : State :=
  if c.op = 0x12 ∨ c.op = 0x15 then
    let open_ := c.todo ++ s.presentedBursts c.id
    let start := (c.range).1 / 64 * 64
    let n := (c.next - start) / 64
    let done := (List.range n).filter fun k => !(open_.any fun b => b.addr == start + 64 * k)
    match done.getLast? with
    | none => s
    | some top =>
      (open_.filter fun b => decide (b.addr < start + 64 * top)).foldl
        (fun acc b =>
          let ws := readBurst acc.raster.dram b.addr
          acc.storeBurst b.addr ((List.range 8).map fun k =>
            if b.kind = .rmw then (mergedWord c (b.addr + 8 * k) (ws.getD k 0)).1
            else encodeWord (c.mergeWord (b.addr + 8 * k) 0) false)) s
  else s

/-- Take a command off everything that works for it: arbiters, fills, compressor engines and their tests, links. -/
def release (s : State) (id : Nat) : State :=
  match s.findCmd id with
  | none => s
  | some c =>
    let s1 := (((s.levelWrites c).orphanFills c).withdraw id)
    { s1 with
      comps := s1.comps.map fun e => { e with
        job := if e.job = some id then none else e.job
        test := if e.test = some id then none else e.test }
      links := s1.links.map fun l => match l.sending with
        | some m => if m.cmd = id then { l with sending := none } else l
        | none => l }

/-- Stop a command in progress with a status (R22, R361). -/
def abort (s : State) (id : Nat) (a : Answer) : State := (s.release id).finish id a

/-- The ashlars that a compressor had taken are freed (R42, R119): DEDUCED, they are unallocated as FREE_ASHLARS leaves them,
since R119 sets a fence and a port reset apart from R118 (log entry 82). -/
def freeTaken (s : State) (c : Cmd) : State :=
  s.updRaster fun r => { r with alloc := r.alloc.filter fun x => !c.out.taken.contains x.1 }

/-- Stop and discard every command of a host without completions (R27, R42). A disable that waited for them takes effect
(R50). -/
def stopHost (s : State) (h : HostId) : State :=
  let s1 := (s.cmds.filter fun c => c.iss.host = h).foldl (fun acc c => ((acc.release c.id).freeTaken c).dropCmd c.id) s
  (List.finRange 4).foldl (fun acc q => acc.settleDisable h q) s1

/-! ### The role and fencing -/

/-- The partitions of a host that detaches stay reserved for its number (R26). -/
def reserve (s : State) (h : HostId) : State :=
  { s with parts := s.parts.map fun p => if p.owner = some h then { p with reserved := some h } else p }

/-- The steward role becomes vacant if the host holds it (R34). -/
def vacate (s : State) (h : HostId) : State :=
  if s.isSteward h then { s with role := { s.role with holder := none, previous := some h } } else s

/-- A FENCE command record (R449): tag, queue, and 0 stopped or 1 discarded. -/
def fenceRecord (c : Cmd) : Nat :=
  c.iss.tag.toNat + 2 ^ 16 * c.iss.queue.val + 2 ^ 24 * (if c.isStarted then 0 else 1)

/-- FENCE entries with up to nine records each (R449). -/
def logFence (s : State) (h : HostId) (cause issuer : Nat) (steward : Bool) (cs : List Cmd) : State :=
  let stopped := cs.filter Cmd.isStarted
  let dropped := cs.filter fun c => !c.isStarted
  let recs := (stopped ++ dropped).map fenceRecord
  let entries := max 1 (ceilDiv recs.length 9)
  (List.range entries).foldl
    (fun acc i =>
      let part := (recs.drop (9 * i)).take 9
      let rec_ (k : Nat) : Nat := part.getD k 0xFFFFFFFF
      acc.logErr 0x0221 h.val
        ([fld 12 1 cause, fld 13 1 ((if steward then 1 else 0) + 2 * i), fld 14 1 stopped.length, fld 15 1 dropped.length,
          fld 16 1 issuer] ++ (List.range 5).map (fun k => fld (20 + 4 * k) 4 (rec_ k)) ++
          (List.range 4).map (fun k => fld (48 + 4 * k) 4 (rec_ (5 + k))))) s

/-- Fence a host (R42): it enters FENCED, a steward's role falls vacant, its commands stop or are discarded, source 76 + h
is raised once, and the fence is recorded. -/
def fence (s : State) (h : HostId) (cause : Fin 4) (issuer : Nat) : State :=
  let steward := s.isSteward h
  let cs := s.cmds.filter fun c => c.iss.host = h
  let s1 := (s.updHost h fun r => { r with st := .fenced, fenceCause := cause }).vacate h
  let s2 := s1.stopHost h
  (s2.logFence h cause.val issuer steward cs).raiseHost h

/-! ### Fetching -/

/-- The device runs in banked mode (R66, R399). -/
def banked (s : State) : Bool := s.boot.stage == 15

/-- The boot stages in which hosts are served: READY, RUNNING and BANKED (R399). -/
def serves (s : State) : Bool := s.boot.stage == 6 || s.boot.stage == 7 || s.banked

/-- CCK runs: no change of CORE has gated it (R382, R384). -/
def coreRuns (s : State) : Bool :=
  match s.clk.change with
  | some c => !(c.loop == 0 && s.clk.loops[(0 : Fin 3)].st == .relock)
  | none => true

/-- A queue has a packet that may be fetched: it is in service and not being disabled, entries are handed over, and its
completion ring and the limits of R61 have room (R50, R54, R61). -/
def queueReady (s : State) (h : HostId) (q : QueueId) : Bool :=
  let k := s.queue h q
  k.enable && !k.disabling && k.sqHead != k.sqTail &&
    decide (s.queueFlight h q + (k.cqTail + k.size - k.cqHead) % k.size < k.size - 1) &&
    decide (s.hostFlight h < 64) && decide (s.cmds.length < s.part.inFlight) && (!s.banked || q == 0)

/-- The device fetches from the host: a port that the part has and powers, not DOWN or FENCED, with hosts served, no reset
scheduled and CCK running (R24, R79, R384). -/
def hostServed (s : State) (h : HostId) : Bool :=
  decide (h.val < s.part.ports) && s.hosts[h].st != .down && s.hosts[h].st != .fenced && s.serves &&
    s.boot.resetAt.isNone && s.coreRuns

/-- The queue of a host that is next in round-robin order (R61). -/
def nextQueue (s : State) (h : HostId) : Option QueueId :=
  [0, 1, 2, 3].findSome? fun k =>
    let q : QueueId := s.hosts[h].turn + Fin.ofNat 4 k
    if s.queueReady h q then some q else none

/-- The device fetches the next packet from this queue. -/
def canFetch (s : State) (h : HostId) (q : QueueId) : Bool := s.hostServed h && s.nextQueue h == some q

/-- The command that a packet becomes. -/
def mkCmd (s : State) (op : Byte) (i : Issue) : Cmd := { id := s.nextId, op := op, iss := i }

/-- Fetch a packet: SQ_HEAD moves past it and it is in flight (R51, R61). -/
def fetched (s : State) (op : Byte) (i : Issue) : State :=
  let s1 := s.updHost i.host fun r => { r with
    turn := i.queue + 1
    queues := vmod r.queues i.queue fun k => { k with sqHead := (k.sqHead + 1) % k.size } }
  { s1 with cmds := s1.cmds ++ [s.mkCmd op i], nextId := s1.nextId + 1 }

/-! ### Starting -/

/-- The order of R62 and R63 lets the command start: commands of its queue before it have started, with FENCE_PRIOR have
completed, and for the commands of R63 every earlier command of the host has completed. -/
def orderReady (s : State) (c : Cmd) : Bool :=
  s.cmds.all fun x =>
    decide (c.id ≤ x.id) || x.iss.host != c.iss.host ||
      (!serialOp c.op.toNat && (x.iss.queue != c.iss.queue || (x.isStarted && !c.iss.fencePrior)))

/-! ### Rights and ranges -/

/-- The rights of R37, with those of the steward from R28: the widest of ownership, grant and role. -/
def mayAccess (s : State) (h : HostId) (p : Fin 16) (a : Access) : Bool :=
  let own := s.parts[p].owner == some h
  let g := s.parts[p].grants[h]
  match a with
  | .read => own || g != .none || s.isSteward h
  | .write => own || g == .readWrite
  | .alloc => own || s.isSteward h

/-- The live strip record of a handle (R107). -/
def findStrip (s : State) (handle : Nat) : Option Strip :=
  s.strips.find? fun t => t.live && t.idx == handle % 8192 && t.gen == handle / 8192

/-- Range, then right (R56). -/
def rangeRight (s : State) (h : HostId) (p : Fin 16) (a : Access) (addr len : Nat) : Option Answer :=
  if !s.raster.rangeIn p addr len then some { status := .partitionViolation, detail := 0x0B }
  else if !s.mayAccess h p a then some { status := .partitionViolation } else none

/-- The right alone. -/
def onlyRight (s : State) (h : HostId) (p : Fin 16) (a : Access) : Option Answer :=
  if !s.mayAccess h p a then some { status := .partitionViolation } else none

/-- The strip that a command names, and the right to its partition. -/
def stripRight (s : State) (h : HostId) (handle : Nat) (a : Access) : Option Answer :=
  match s.findStrip handle with
  | none => some { status := .invalidField, detail := 0x08 }
  | some t => s.onlyRight h t.part a

/-- Step 7 of R65. -/
def checkRights (s : State) (c : Cmd) : Option Answer :=
  match c.op.toNat with
  | 0x10 => s.onlyRight c.host c.part .alloc
  | 0x11 =>
    if (List.range (c.p 1)).all fun k => s.raster.holder (c.p 0 + k) == some c.part then
      s.onlyRight c.host c.part .alloc
    else some { status := .partitionViolation, detail := 0x0B }
  | 0x12 => s.rangeRight c.host c.part .write (c.raster 2) (c.p 4)
  | 0x13 => s.onlyRight c.host c.part .write
  | 0x14 => s.rangeRight c.host c.part .read (c.raster 2) (c.p 4)
  | 0x15 => s.rangeRight c.host c.part .write (c.raster 2) (c.p 4)
  | 0x16 => s.stripRight c.host (c.p 0) .write
  | 0x17 => s.stripRight c.host (c.p 0) .read
  | 0x18 => s.rangeRight c.host c.part .write (c.raster 0) ((c.f 2 0 16 - 1) * c.p 4 + lineBytes (c.f 3 0 11))
  | 0x19 => s.stripRight c.host (c.p 0) .write
  | 0x50 | 0x51 =>
    if (s.raster.touched (c.raster 2) (8 * c.f 4 0 16)).all (fun n => (s.raster.holder n).isSome) &&
        s.raster.rangeFits (c.raster 2) (8 * c.f 4 0 16) then none
    else some { status := .partitionViolation, detail := 0x0B }
  | 0x52 =>
    if (s.raster.touched (c.raster 0) 8).all (fun n => (s.raster.holder n).isSome) && s.raster.rangeFits (c.raster 0) 8
    then none else some { status := .partitionViolation, detail := 0x0B }
  | _ => none

/-! ### Domains, quench and requesters -/

/-- A domain serves new commands: it is powered and no switch-off of it has been accepted (R18, R394). -/
def domainServes (s : State) (d : DomainId) : Bool :=
  s.power.on.getLsbD d.val && !(s.power.todo.contains (d, false))

/-- Every channel in use and the forge pool are powered: what host access to raster memory needs (R18). -/
def rasterPowered (s : State) : Bool := s.domainServes 5 && s.chansInUse.all fun c => s.domainServes (memDomain c)

/-- Some channel in use is quenched, or the device is. -/
def rasterQuenched (s : State) : Bool := s.quench.device || s.chansInUse.any fun c => s.quench.chans[c]

/-- The channel is quenched. -/
def chanQuenched (s : State) (c : ChanId) : Bool := s.quench.device || s.quench.chans[c]

/-- A requester takes part in arbitration: it is enabled, or a command, a migration step or a scrub transfer that it had started
before it was disabled has not completed (R312). -/
def takesPart (s : State) (r : Fin 12) : Bool :=
  s.ks.force.arbEnable.getLsbD r.val ||
    (s.cmds.any fun c => c.isStarted && c.requester == some r && decide (c.started < s.ks.offAt[r])) ||
    s.chansInUse.any fun c => s.chans[c].arb.reqs[r] != [] || (s.chans[c].arb.holder.map (·.1)) == some r ||
      (r == 9 && s.chans[c].scrub.back != []) || (r == 10 && s.chans[c].mig.transit != [])

/-- The domains of the links of a page are powered (R18). -/
def linksPowered (s : State) (p : Page) : Bool :=
  (List.finRange 32).all fun n => p.links[n].lines == 0 || s.domainServes (linkDomain n)

/-- The domains of the links of the page at the head of the queue are powered. -/
def headPowered (s : State) : Bool := (s.seq.pages.head?.map s.linksPowered) != some false

/-- The domains that a command needs (R18). -/
def powerCheck (s : State) (c : Cmd) : Bool :=
  match c.op.toNat with
  | 0x12 | 0x13 | 0x14 | 0x15 | 0x16 | 0x50 | 0x51 | 0x52 => s.rasterPowered
  | 0x20 | 0x22 | 0x55 => s.domainServes 5
  | 0x25 => s.rasterPowered && s.headPowered
  | 0x31 => (List.finRange 32).all fun n => !(c.p 0 / 2 ^ n.val % 2 == 1) || s.domainServes (linkDomain n)
  | 0x35 => s.domainServes (linkDomain (Fin.ofNat 32 (c.f 0 0 5)))
  | 0x40 | 0x41 => s.domainServes 5 && s.domainServes (memDomain (Fin.ofNat 2 (c.f 0 0 1)))
  | 0x44 => s.domainServes 5 && [(0 : ChanId), 1].all fun k => !(c.f 0 k.val 1 == 1) || s.domainServes (memDomain k)
  | _ => true

end State

/-! ### The checks of R65 -/

/-- Step 4: what the host's state answers to an opcode (R24). -/
def stateCheck (st : HostState) (op : Nat) : Option Answer :=
  match st with
  | .linked => if [0x00, 0x01, 0x04, 0x05].contains op then none else some { status := .notAttached }
  | .recovering => if [0x00, 0x01, 0x06].contains op then none else some { status := .fenced }
  | _ => none

/-- Step 5: the opcode needs the steward role (R65, R67). -/
def needsSteward (info : OpInfo) (c : Cmd) : Bool :=
  match info.role with
  | .steward => true
  | .getLog => c.f 0 8 1 == 1
  | .perFeature => featureSteward (c.f 0 0 16)
  | _ => false

namespace State

/-- Steps 4 and 5 do not apply in banked mode, whose one port needs neither ATTACH nor a role (R66). -/
def roleCheck (s : State) (info : OpInfo) (c : Cmd) : Option Answer :=
  if s.banked then none
  else match stateCheck s.hosts[c.host].st c.op.toNat with
    | some a => some a
    | none => if needsSteward info c && !s.isSteward c.host then some { status := .notSteward } else none

/-- Steps 2 to 7 of R65, and of step 8 the domains (R18). -/
def checkCmd (s : State) (c : Cmd) : Option Answer :=
  match opInfo c.op.toNat with
  | none => some { status := .invalidOpcode }
  | some info =>
    if s.banked && !info.banked then some { status := .banked }
    else match s.roleCheck info c with
      | some a => some a
      | none => match fieldError info c s with
        | some off => some { status := .invalidField, detail := 0x8000 + off }
        | none => match s.checkRights c with
          | some a => some a
          | none => if s.powerCheck c then none else some { status := .resourceConflict, detail := 0x10 }

end State

end Sys2Proof.Machine
end

