-- ==== Sys2Proof/Machine/Travel.lean ====
section
/-! DEFINITION. The master position and the travel coordinate: the position as the loop's estimate gives it (R261, R265,
R278), pages' coordinates (R266), and the moment at which a position is reached (R270 to R272). -/

namespace Sys2Proof.Machine

/-- One line in the units of a position, 1/65,536 line (R265). -/
def lineUnit : Int := 65536

/-- The scale of `Motion.num`. -/
def posDen : Int := 32 * (Config.secTau : Int) * Config.secTau

/-- The position after so many quarters of a tau, scaled by `posDen`: P + V h + A h^2 / 2 (R261). -/
def Motion.num (k : Motion) (t4 : Nat) : Int :=
  k.p * posDen + k.v * t4 * (8 * Config.secTau) + k.a * t4 * t4

/-- A position as the signed 64-bit value that it is (R265). -/
def wrapPos (x : Int) : Int := (BitVec.ofInt 64 x).toInt

/-- The position follows the loop's estimate: the loop is LOCKED or COASTING (R260). -/
def Web.moves (w : Web) : Bool := w.st == .locked || w.st == .coasting

/-- How the position moves now. -/
def Web.motion (w : Web) : Motion := if w.moves then w.est else { p := w.held }

/-- How the position moved at a time that may lie back. -/
def Web.motionAt (w : Web) (t : Nat) : Motion :=
  (((w.past.filter fun x => decide (t < x.1)).getLast?).map (·.2)).getD w.motion

/-- The position that a motion gives at a time, in 1/65,536 line. -/
def Motion.posAt (k : Motion) (t : Nat) : Int := wrapPos (k.num (4 * (t - k.at_)) / posDen)

namespace State

/-- What a block of the CORE domain does, while that domain is powered (R13). -/
def inCore (s : State) (f : State → State) : State := if s.domainOn 1 then f s else s

/-- The loop's estimate moves: it is LOCKED or COASTING (R260). -/
def webMoves (s : State) : Bool := s.web.moves

/-- The position `h4` quarters of a tau from now, scaled by `posDen`. -/
def posScaled (s : State) (h4 : Nat) : Int :=
  if s.webMoves then s.web.est.num (4 * (s.time - s.web.est.at_) + h4) else s.web.held * posDen

/-- The master position now, in 1/65,536 line (R265). -/
def pos (s : State) : Int := wrapPos (s.posScaled 0 / posDen)

/-- PASS mode is in force (R264). -/
def passMode (s : State) : Bool := s.web.cfg.pass

/-- A pass origin in lines, signed (R266). -/
def origin (s : State) (rev : Bool) : Int := if rev then s.ks.force.passR.toInt else s.ks.force.passF.toInt

/-- A position in the travel coordinate of a page that runs forward or in reverse (R266). -/
def travel (s : State) (rev : Bool) (m : Int) : Int :=
  if s.passMode then (if rev then s.origin true * lineUnit - m else m - s.origin false * lineUnit) else m

/-- The travel coordinate `h4` quarters of a tau from now, scaled by `posDen`. -/
def travelScaled (s : State) (rev : Bool) (h4 : Nat) : Int :=
  if s.passMode then
    (if rev then s.origin true * lineUnit * posDen - s.posScaled h4
      else s.posScaled h4 - s.origin false * lineUnit * posDen)
  else s.posScaled h4

/-- The travel coordinate now. -/
def travelNow (s : State) (rev : Bool) : Int := s.travelScaled rev 0 / posDen

/-- The latest time from now, up to a horizon, in quarters of a tau, at which the coordinate still rises: a coordinate that
slows down turns at its apex. -/
def risesUntil (s : State) (rev : Bool) (horizon : Nat) : Nat :=
  let sgn : Int := if s.passMode && rev then -1 else 1
  let v := sgn * s.web.est.v
  let a := sgn * s.web.est.a
  if 0 ≤ a then horizon
  else
    let apex := 4 * v * Config.secTau / (-a) - (4 * (s.time - s.web.est.at_) : Nat)
    min horizon apex.toNat

end State

/-- The smallest number in (lo, hi] at which a test that has turned true stays true, by halving. -/
def bisect (test : Nat → Bool) : Nat → Nat → Nat → Nat
  | 0, _, hi => hi
  | fuel + 1, lo, hi =>
    if hi ≤ lo + 1 then hi
    else
      let mid := (lo + hi) / 2
      if test mid then bisect test fuel lo mid else bisect test fuel mid hi

namespace State

/-- The smallest h > 0 within a horizon, given in quarters of a tau, at which the coordinate reaches `x`, in tau and rounded to
the nearest; none when it does not move toward `x` or does not reach it within the horizon (R272). -/
def reaches (s : State) (rev : Bool) (x : Int) (horizon : Nat) : Option Nat :=
  if !s.webMoves then none
  else
    let hi := s.risesUntil rev horizon
    let test (h4 : Nat) : Bool := x * posDen ≤ s.travelScaled rev h4
    if hi = 0 ∨ test hi = false then none
    else
      let h := ceilDiv (bisect test 64 0 hi) 4
      some (if x * posDen < s.travelScaled rev (4 * h - 2) then h - 1 else h)

end State

end Sys2Proof.Machine
end

