-- ==== Sys2Proof/Machine/Pages.lean ====
section
/-! DEFINITION. Pages, line slots, leads and markers: the lead and the effective lookahead (R179, R181), rings (R216, R217),
skipping a line (R272), withdrawing markers, the end of a page (R171), halts (R189) and FLUSH (R249). -/

namespace Sys2Proof.Machine

/-- Bytes of a line slot (R217). -/
def slotBytes (w : Nat) : Nat := 64 * ceilDiv (lineBytes w) 64

/-- The page runs: it is FILLING or FIRING (R165). -/
def Page.active (p : Page) : Bool := p.st != .queued

/-- The link has lines of the page that need a slot: it is in the page and not BLANK. -/
def PageLink.fills (l : PageLink) : Bool := l.lines != 0 && !l.blank

/-- Link line count of line `i` of a page (R233). -/
def PageLink.lineNo (l : PageLink) (i : Nat) : Nat := (l.base + i) % 2 ^ 32

/-- The header of a frame (R231): FTYPE, FLAGS, WORDS or LENGTH, LINE, PAGE_ID, LINK, SEQ, PAGE_LINE. -/
def frameHeader (n : LinkId) (ftype flags len line : Nat) (page : BitVec 16) (seq : Byte) (pageLine : Nat) : BitVec 128 :=
  BitVec.ofNat 128 (ftype % 256 + 2 ^ 8 * (flags % 256) + 2 ^ 16 * (len % 2 ^ 16) + 2 ^ 32 * (line % 2 ^ 32) +
    2 ^ 64 * page.toNat + 2 ^ 80 * n.val + 2 ^ 88 * seq.toNat + 2 ^ 96 * (pageLine % 2 ^ 16))

/-- The bytes of a header in ascending order (R7). -/
def headerBytes (h : BitVec 128) : List Byte := leBytes 16 h.toNat

namespace State

/-- Change a page of the queue. -/
def updPage (s : State) (id : BitVec 16) (f : Page → Page) : State :=
  s.updSeq fun q => { q with pages := q.pages.map fun p => if p.id = id then f p else p }

/-- Change a link's part of a page. -/
def updPageLink (s : State) (id : BitVec 16) (n : LinkId) (f : PageLink → PageLink) : State :=
  s.updPage id fun p => { p with links := vmod p.links n f }

/-- The page of an identifier. -/
def findPage (s : State) (id : BitVec 16) : Option Page := s.seq.pages.find? fun p => p.id = id

/-- The FILLING page (R165). -/
def fillingPage (s : State) : Option Page := s.seq.pages.find? fun p => p.st = .filling

/-- Links that the part has. -/
def partLinks (s : State) : List LinkId := (List.finRange 32).filter fun n => n.val < s.part.links

/-- A page in the queue references the strip (R74). DEDUCED: a record with LINK_LINES 0 is not in the page (R166), and the strip
that it names is not referenced by it (log entry 101). -/
def stripInUse (s : State) (handle : Nat) : Bool :=
  s.seq.pages.any fun p => p.links.toList.any fun l => l.lines != 0 && l.strip.toNat == handle

/-- The line width of a link in a page: of its strip, 0 for a BLANK link. -/
def pageWords (s : State) (l : PageLink) : Nat :=
  if l.fills then ((s.findStrip l.strip.toNat).map (·.words)).getD 0 else 0

/-! ### Rings and leads -/

/-- Bytes of a ring (R216). -/
def ringBytes (s : State) : Nat := 64 * ((4608 * 1024 + 65536 * s.anvilExtra) / (64 * s.part.links))

/-- Line slots per link for a width (R217). -/
def ringLines (s : State) (w : Nat) : Nat := min 256 (s.ringBytes / slotBytes w)

/-- The lookahead in force (R422). -/
def lookahead (s : State) : Nat := (s.ks.force.lookahead.extractLsb' 0 9).toNat

/-- FLOOR in force (R181). -/
def floor (s : State) : Nat := (s.ks.force.lookahead.extractLsb' 16 9).toNat

/-- The effective lookahead of a page (R179). -/
def leffOf (s : State) (p : Page) : Nat :=
  let w := (p.links.toList.map s.pageWords).foldl max 0
  if w = 0 then s.lookahead else min s.lookahead (s.ringLines w)

/-- The effective lookahead: that of the FILLING page, or the lookahead in force. -/
def leff (s : State) : Nat :=
  match s.fillingPage with
  | some p => s.leffOf p
  | none => s.lookahead

/-- The lead of a link: its complete slots (R179, R218). -/
def lead_ (s : State) (n : LinkId) : Nat := (s.links[n].slots.filter (·.complete)).length

/-- Lines of a page, from the first, that a link has fired or skipped. -/
def doneLines (s : State) (p : Page) (n : LinkId) : Nat :=
  ((s.links[n].markers.filter fun m => m.page = p.id).map (·.line)).foldl min p.links[n].commit

/-- A line of a page has fired or been skipped. -/
def lineDone (s : State) (p : Page) (n : LinkId) (i : Nat) : Bool :=
  (decide (i < p.links[n].commit) || p.links[n].passed.contains i) &&
    !(s.links[n].markers.any fun m => m.page = p.id && m.line == i)

/-- A link has unfired lines, and is not BLANK, in a page that runs. -/
def unfired (s : State) (n : LinkId) : Bool :=
  s.seq.pages.any fun p => p.active && p.links[n].fills && decide (s.doneLines p n < p.links[n].lines)

/-- The smallest of the leads of some links; none when there are no links. -/
def leastLead (s : State) (ns : List LinkId) : Option Nat := least (ns.map s.lead_)

/-- The lead of the running page: the smallest among links of the FILLING page with lines left to fill, one that is being
filled among them (R179). -/
def runningLead (s : State) (p : Page) : Option Nat :=
  s.leastLead (s.partLinks.filter fun n => p.links[n].fills &&
    (decide (p.links[n].taken < p.links[n].lines) || (s.links[n].fetch.busy && s.links[n].fetch.page == p.id)))

/-- LEAD_STATUS.LEAD (R179, R188). -/
def leadShown (s : State) : Nat :=
  if s.drainHalted then 0
  else match s.fillingPage with
    | some p => (s.runningLead p).getD 0
    | none => (s.leastLead (s.partLinks.filter s.unfired)).getD 0

/-- Source 74: the smallest lead among links with unfired lines falls below FLOOR, once until it is back at the effective
lookahead (R181). A lead that has not been at FLOOR does not fall below it. -/
def checkFloor (s : State) : State :=
  let now := s.leastLead (s.partLinks.filter s.unfired)
  let was := s.seq.lastLead
  let s1 := s.updSeq fun q => { q with
    lastLead := now, leadArmed := q.leadArmed || (now.map fun l => decide (s.leff ≤ l)) == some true }
  match was, now with
  | some k, some l =>
    if s.seq.leadArmed && decide (s.floor ≤ k) && decide (l < s.floor) then
      (s1.updSeq fun q => { q with leadArmed := false }).raise 74
    else s1
  | _, _ => s1

/-! ### Lines that fire or are skipped -/

/-- Free a line's slot (R218). -/
def freeSlot (s : State) (n : LinkId) (page : BitVec 16) (i : Nat) : State :=
  s.updLink n fun l => { l with slots := l.slots.filter fun x => x.page ≠ page || x.line ≠ i }

/-- Record for HALT_DRAIN how many lines every link of the last page to fire has fired or skipped (R189). -/
def noteLast (s : State) (page : BitVec 16) : State :=
  match s.findPage page with
  | none => s
  | some p =>
    let ns := s.partLinks.filter fun n => p.links[n].lines ≠ 0
    s.updSeq fun q => { q with lastLine := some ((least (ns.map (s.doneLines p))).getD 0, page) }

/-- Refresh that record when a line of the same page is skipped. -/
def noteSkip (s : State) (page : BitVec 16) : State :=
  match s.seq.lastLine with
  | some (_, id) => if id = page then s.noteLast page else s
  | none => s

/-- Count skipped lines (WEB_COUNT.SKIPPED, saturating). -/
def countSkips (s : State) (k : Nat) : State := s.updWeb fun w => { w with skipped := satAdd 0xFFFF w.skipped k }

/-- Skip a line of a link (R272): it is passed over, counted, and its slot is freed. -/
def skipLine (s : State) (n : LinkId) (page : BitVec 16) (i : Nat) : State :=
  let waits := s.links[n].markers.any fun m => m.page = page && !m.sent
  let s1 := s.updPageLink page n fun l =>
    { l with commit := i + 1, passed := if waits then l.passed ++ [i] else l.passed }
  (((s1.freeSlot n page i).countSkips 1).noteSkip page)

/-- Withdraw the markers that have not left and that a test names: their lines stay next in turn (R276). -/
def withdrawMarkers (s : State) (drop : LinkId → Marker → Bool) : State :=
  let gone (n : LinkId) : List Marker := s.links[n].markers.filter fun m => !m.sent && drop n m
  let s1 := s.updSeq fun q => { q with pages := q.pages.map fun p => { p with links := Vector.ofFn fun n : Fin 32 =>
    let l := p.links[n]
    { l with commit := (((gone n).filter fun m => m.page = p.id).map (·.line)).foldl min l.commit } } }
  { s1 with links := Vector.ofFn fun n : Fin 32 =>
      { s1.links[n] with markers := s1.links[n].markers.filter fun m => m.sent || !drop n m } }

/-! ### Frames and FLUSH -/

/-- Symbol length of a link in tau (R271). -/
def symOf (s : State) (n : LinkId) : Nat := symbolTau s.links[n].rate.val

/-- Send a frame on a link (R231): its SEQ is the next of the lane (R232), and it takes 22 symbols and its payload, with two
idles (R230). -/
def sendFrame (s : State) (n : LinkId) (ftype flags len line : Nat) (page : BitVec 16) (pageLine : Nat)
    (payload : List Byte) : State :=
  let h := frameHeader n ftype flags len line page s.links[n].seq pageLine
  (s.emit (.frame n h payload (crc32 (headerBytes h ++ payload)))).updLink n fun l =>
    { l with seq := l.seq + 1, laneFree := max s.time l.laneFree + (24 + payload.length) * s.symOf n }

/-- Send FLUSH on every UP link: the boards hold no frame any more (R249). -/
def flush (s : State) : State :=
  (s.partLinks.filter fun n => s.links[n].st = .up).foldl
    (fun acc n => (acc.sendFrame n 3 0 0 0 0xFFFF 0 []).updLink n fun l => { l with held := [] }) s

/-! ### Ends of pages and halts -/

/-- Take the pages of a test out of the queue, with their slots and markers (R165, R218). -/
def dropPages (s : State) (which : Page → Bool) : State :=
  let ids := (s.seq.pages.filter which).map (·.id)
  let s1 := s.updSeq fun q => { q with pages := q.pages.filter fun p => !which p }
  { s1 with links := s1.links.map fun l => { l with
      slots := l.slots.filter fun x => !ids.contains x.page
      markers := l.markers.filter fun m => !ids.contains m.page } }

/-- Results of a halt (R189). When a line of the last page has fired and some link has neither fired nor skipped line 0, the
manual gives RESULT0 no value: DESIGN CHOICE, a free value (log entry 102). -/
def haltResults (s : State) : Dword × Dword :=
  match s.seq.lastLine with
  | none => (0xFFFFFFFF, 0xFFFFFFFF)
  | some (0, id) => (Config.openDword s.free, id.zeroExtend 32)
  | some (k + 1, id) => (BitVec.ofNat 32 k, id.zeroExtend 32)

/-- The drain is HALTED: waiting HALT_DRAIN commands complete with the results, and DEBT is 0 (R188, R189). -/
def haltDone (s : State) : State :=
  let (r0, r1) := s.haltResults
  let cmds := s.seq.haltCmds
  let s1 := s.useFree.updSeq fun q => { q with
    drain := .halted, haltMode := 0, haltCmds := [], haltAt := none, haltR0 := r0, haltR1 := r1, debt := 0 }
  cmds.foldl (fun acc id => acc.succeed id r0.toNat r1.toNat) s1

/-- Fill stops at once, and the course under way finishes as a rest course (R189): no FETCH entry of it reads any more, and no
engine goes on with its line. -/
def stopFill (s : State) : State :=
  let rest (c : ChanId) (ch : Chan) : Chan :=
    { ch with due := ch.due.filter fun i => !(((s.table c).table[i]?.map Entry.isFetch) == some true) }
  let s1 := s.updSeq fun q => { q with fill := false }
  { s1 with
    links := s1.links.map fun l => { l with fetch := { l.fetch with want := [], busy := false } }
    chans := Vector.ofFn fun c : Fin 2 => rest c s1.chans[c] }

/-- End every FILLING and FIRING page by a halt: slots, fetch states, primed bursts and engine states are discarded, and the
course under way finishes as a rest course (R189, R194, R218). -/
def endPages (s : State) : State :=
  let s1 := (s.dropPages Page.active).stopFill
  let s2 := s1.updSeq fun q => { q with joinable := false }
  { s2 with
    links := s2.links.map fun l => { l with fetch := {}, slots := [] }
    engines := s2.engines.map fun e => { e with dec := {}, input := [] } }

/-- HALT_DRAIN of MODE 2, or what acts like it (R189, R279, R361): nothing when the drain is HALTED. -/
def haltNow (s : State) : State := if s.drainHalted then s else s.endPages.flush.haltDone

/-- HALT_DRAIN of MODE 1 (R189): fill stops, markers whose lines fall due after the next integer position are withdrawn, and
the halt completes at that position. -/
def haltAtLine (s : State) : State :=
  let m := s.pos
  let lo := (m + lineUnit - 1) / lineUnit - 1
  let hi := m / lineUnit + 1
  let s1 := s.updSeq fun q => { q with drain := .halting, haltMode := 1, haltAt := some (lo, hi) }
  s1.stopFill.withdrawMarkers fun n k =>
    match s1.findPage k.page with
    | none => true
    | some p =>
      let l := p.links[n]
      let x : Int := p.start * lineUnit + l.phase + k.line * l.pitch
      let edge := if p.reverse && s1.passMode then s1.travel true (lo * lineUnit) else s1.travel false (hi * lineUnit)
      decide (edge ≤ x)

/-- The position has reached the integer value at which a halt of MODE 1 completes. -/
def haltReached (s : State) : Bool :=
  match s.seq.haltAt with
  | some (lo, hi) => decide (s.pos ≤ lo * lineUnit) || decide (hi * lineUnit ≤ s.pos)
  | none => false

/-- The page is DONE: the position has reached S + LENGTH and every line has fired or been skipped (R171). -/
def pageDone (s : State) (p : Page) : Bool :=
  p.active && decide ((p.start + p.length) * lineUnit ≤ s.travelNow p.reverse) &&
    s.partLinks.all fun n => decide (p.links[n].lines ≤ s.doneLines p n)

/-- DONE pages leave the queue, and a halt completes when what it waits for has come (R165, R189, R190). -/
def settlePages (s : State) : State :=
  let s1 := s.dropPages s.pageDone
  match s1.seq.drain with
  | .halting =>
    if s1.seq.haltMode = 0 then (if s1.seq.pages.any Page.active then s1 else s1.haltDone)
    else if s1.seq.haltMode = 1 then (if s1.haltReached then s1.endPages.flush.haltDone else s1)
    else s1
  | _ => s1

end State

end Sys2Proof.Machine
end

