-- ==== Sys2Proof/Machine/Integrity.lean ====
section
/-! DEFINITION. What reading a stored burst does (R331 to R335), the counts and health of ranks (R346 to R348), the start of a
migration (R350), and quench entry with its dump (R360 to R363). -/

namespace Sys2Proof.Machine

/-- The device that carries a codeword position (R330, R335). -/
def deviceOf (p : Nat) : Nat := if 14 ≤ p ∧ p < 78 then (p - 14) % 32 / 8 else 4

/-- The device that carries every inverted bit, or 0xFF (R335). -/
def implicated : List Nat → Nat
  | [] => 0xFF
  | p :: ps => if ps.all fun x => deviceOf x == deviceOf p then deviceOf p else 0xFF

/-- The index of a burst among the bursts of its ashlar on its channel (R351). -/
def Raster.burstIndex (r : Raster) (a : Nat) : Nat := if r.single then bits a 6 10 else 2 * bits a 8 8 + bits a 6 1

namespace State

/-- A migration of the channel runs: it is COPYING or STOPPED (R356). -/
def migrating (s : State) (c : ChanId) : Bool := s.chans[c].mig.st == .copying || s.chans[c].mig.st == .stopped

/-- A burst lies below the copy pointer (R351). -/
def copied (s : State) (c : ChanId) (a : Nat) : Bool :=
  let m := s.chans[c].mig
  let n := s.raster.ashlar a
  decide (n < m.ashlar) || (n == m.ashlar && decide (s.raster.burstIndex a < m.burst))

/-- The physical rank that an access to a burst goes to (R86, R351). -/
def physRank (s : State) (a : Nat) : RankId :=
  let l := s.raster.loc a
  let m := s.chans[l.chan].mig
  if s.migrating l.chan && m.logical == l.logical then (if s.copied l.chan a then m.target else m.source)
  else (s.raster.phys[l.chan][l.logical]).getD l.logical

/-- The bytes 12 to 63 of an ECC log entry (R335). -/
def eccBody (s : State) (path a : Nat) (d : Decoded) (stored : BitVec 80) : BitVec 416 :=
  let l := s.raster.loc a
  body [fld 12 1 l.chan.val, fld 13 1 l.sub.val, fld 14 1 (s.physRank a).val, fld 15 1 path, fld 16 1 d.out.code,
    fld 17 1 (implicated d.inverted), fld 18 1 (d.inverted.getD 0 0xFF), fld 19 1 (d.inverted.getD 1 0xFF),
    fld 20 1 (synS1 stored).toNat, fld 21 1 (synS3 stored).toNat, fld 22 1 (if synP stored then 1 else 0),
    fld 23 1 (l.group.val + 8 * l.bank.val), fld 24 8 a, fld 32 4 l.row, fld 36 2 l.col, s.courseFld]

/-- Write an ECC log entry (R335). -/
def logEcc (s : State) (type path a : Nat) (d : Decoded) (stored : BitVec 80) : State :=
  let b := s.eccBody path a d stored
  let e : LogEntry := { time := s.us, type := type, body := b }
  let same (x : LogEntry) : Bool :=
    x.type == 0x0D11 && x.body.extractLsb' 0 32 == b.extractLsb' 0 32 &&
      x.body.extractLsb' 40 8 == b.extractLsb' 40 8 && decide (s.us ≤ x.time + 1000000)
  { s with logs := { s.logs with
      ecc := if type = 0x0D11 then mergeInto s.logs.ecc same e else s.logs.ecc ++ [e] } }

/-- Keep the decode record of a word that is not CLEAN (R363). -/
def keepRecord (s : State) (path a : Nat) (stored : BitVec 80) (d : Decoded) : State :=
  if d.out = .clean then s
  else
    let l := s.quench.recent ++ [(s.eccBody path a d stored).extractLsb' 0 256]
    { s with quench := { s.quench with recent := l.drop (l.length - 256) } }

/-- Log and count the outcome of one word (R332, R335, R341). A correction on the way to POISON is logged as a correction. -/
def noteWord (s0 : State) (path a : Nat) (stored : BitVec 80) (d : Decoded) : State :=
  let s := s0.keepRecord path a stored d
  let c := (s.raster.loc a).chan
  let s1 := if d.inverted = [] then s
    else (s.logEcc 0x0D11 path a { d with out := (decodeBch stored).1 } stored).updChan c fun ch => { ch with eccCorrected := satAdd 0xFFFF ch.eccCorrected 1 }
  match d.out with
  | .uncorrectable =>
    (s1.logEcc 0x0D12 path a d stored).updChan c fun ch =>
      { ch with eccUncorrectable := satAdd 0xFFFF ch.eccUncorrectable 1 }
  | .poison => s1.logEcc 0x0D13 path a d stored
  | _ => s1

/-! ### Integrity log, migration start and quench -/

/-- Write an integrity log entry (R359). -/
def logInteg (s : State) (type c rank before after value : Nat) : State :=
  s.logErr type 255 [fld 12 1 c, fld 13 1 rank, fld 14 1 before, fld 15 1 after, fld 16 8 value]

/-- The rank in SPARE state that a migration may take: the target of a running migration is no longer free (R348). -/
def freeSpare (s : State) (c : ChanId) : Option RankId :=
  (List.finRange 4).find? fun r =>
    s.chans[c].ranks[r].st = .spare && !(s.migrating c && s.chans[c].mig.target == r)

/-- The logical rank that a physical rank carries on a channel. -/
def logicalOf (s : State) (c : ChanId) (r : RankId) : Option (Fin 4) :=
  (List.finRange 4).find? fun l => s.raster.phys[c][l] = some r

/-- Start a migration of a physical rank onto the channel's spare (R350): the target leaves power-down. -/
def startMigration (s : State) (c : ChanId) (source target : RankId) : State :=
  let l := (s.logicalOf c source).getD 0
  (s.updMig c fun _ => { st := .copying, source := source, target := target, logical := l
                         ashlar := s.raster.rankFirst l.val, burst := 0 }).updRank c target
    fun r => { r with powerDown := false }


/-- The header of a dump (R363). -/
def dumpHeader (s : State) (index scope cause : Nat) : BitVec 512 :=
  BitVec.ofNat 512 (index + 256 * scope + 2 ^ 16 * cause + 2 ^ 32 * 52288 + 2 ^ 64 * (s.us % 2 ^ 64) +
    2 ^ 128 * (s.seq.number % 2 ^ 64) + 2 ^ 192 * (s.pos % 2 ^ 64).toNat + 2 ^ 256 * s.boot.image.version.toNat +
    2 ^ 288 * Config.serial.toNat)

/-- Capture a dump (R362): the store holds four, and the index log gets an entry. -/
def captureDump (s : State) (scope cause mask : Nat) : State :=
  let i := s.quench.captured % 256
  let d : Dump := { index := i, scope := scope, cause := cause, mask := mask, header := s.dumpHeader i scope cause,
                    serial := s.quench.captured, records := s.quench.recent
                    traces := [0, 1].flatMap fun (c : ChanId) => [0, 1].map fun (u : SubId) =>
                      s.chans[c].subs[u].trace.reverse }
  let held := s.quench.dumps ++ [d]
  { s with
    quench := { s.quench with captured := s.quench.captured + 1, dumps := held.drop (held.length - 4) }
    logs := { s.logs with dump := s.logs.dump ++ [{
      time := s.us, type := 0x0D21
      body := body [fld 12 1 i, fld 13 1 scope, fld 14 1 cause, fld 15 1 mask, fld 16 4 52288] }] } }

/-- A command in progress needs the DRAM of a channel: it has bursts there to move, or a compressor works for it, or it trains
ranks there (R361). -/
def needsChan (s : State) (cmd : Cmd) (c : ChanId) : Bool :=
  cmd.isStarted && (cmd.op == 0x41 && cmd.f 0 0 1 == c.val || cmd.op == 0x44 && cmd.f 0 c.val 1 == 1 ||
    cmd.requester.isSome && (cmd.prog == .compress ||
      (cmd.todo ++ s.presentedBursts cmd.id).any (fun b => s.raster.chanOf b.addr == c) ||
      (List.range ((cmd.stop - cmd.next) / 64)).any fun k => s.raster.chanOf (cmd.next + 64 * k) == c))

/-- The channels of a scope: 0 A, 1 B, 2 every channel in use (R360). -/
def scopeChans (s : State) (scope : Nat) : List ChanId :=
  match scope with
  | 0 => [0]
  | 1 => [1]
  | _ => s.chansInUse

/-- One channel enters quench (R361): scrub and migration stop, an armed injection is disarmed, and the channel is in
self-refresh for as long as the quench lasts. -/
def quenchChan (s : State) (c : ChanId) : State :=
  let s1 := (s.issueSreOn c).updChan c fun ch => { ch with
    st := .quenched, armed := none, rows := [], service := none
    ranks := ch.ranks.map fun r => { r with selfRefresh := true }
    arb := { ch.arb with reqs := Vector.replicate 12 [], holder := none }
    mig := if ch.mig.st = .copying then { ch.mig with st := .stopped, transit := [], hasRead := false, bad := 0 } else ch.mig }
  { s1 with quench := { s1.quench with chans := vset s1.quench.chans c true } }

/-- A fill has bursts left to write on a channel (R92). -/
def fillsOn (s : State) (f : Fill) (c : ChanId) : Bool :=
  ((s.raster.ashlarBursts f.ashlar).filter fun a => s.raster.chanOf a == c).any fun a => match f.rest, s.findCmd f.cmd with
    | some rest, _ => rest.contains a
    | none, some x => s.unwritten x a
    | none, none => false

/-- Enter quench with a scope and a cause (R360, R361). The scope widens to the device when the second of two channels in
use is quenched. -/
def enterQuench (s : State) (scope0 cause0 : Nat) : State :=
  let other := s.chansInUse.any fun c => c.val ≠ scope0 && s.quench.chans[c]
  let scope := if scope0 < 2 ∧ other = true then 2 else scope0
  let cause := if scope0 < 2 ∧ other = true then 4 else cause0
  let cs := s.scopeChans scope
  let mask := (cs.map fun c => 2 ^ c.val).sum
  let s1 := s.captureDump scope cause mask
  let stopped := (s1.cmds.filter fun x => cs.any fun c => s1.needsChan x c).map (·.id)
  let s2 := s1.updRaster fun r => { r with filling := r.filling.filter fun f => !(cs.any fun c => s1.fillsOn f c) }
  let s3 := stopped.foldl (fun acc id => acc.abort id { status := .aborted, detail := 0x17 }) s2
  let s4 := s3.haltNow
  let s5 := cs.foldl (fun acc c => acc.quenchChan c) s4
  let s6 := { s5 with quench := { s5.quench with device := s5.quench.device || scope == 2, cause := cause } }
  (s6.raise 63).logInteg 0x0D04 (if scope < 2 then scope else 0xFF) 0xFF 0 1
    (scope + 256 * cause + 2 ^ 16 * (s.quench.captured % 256))

/-! ### Rank health -/

/-- What a rank that has become RETIRE_DUE or FAILING brings about (R348): a migration as RANK_RETIRE would start it, so of a rank
that carries data (R350). -/
def actOnHealth (s : State) (c : ChanId) (r : RankId) (failing : Bool) : State :=
  let st := s.chans[c].ranks[r].st
  match s.ks.force.integ.getLsbD 31 && (st == .inService || st == .degraded), s.freeSpare c, s.migrating c with
  | true, some t, false =>
    if s.role.holder.isSome then s.startMigration c r t else s.updMig c fun m => { m with due := some r }
  | _, some _, _ => s
  | _, none, m =>
    if failing then s.enterQuench c.val (if m && s.chans[c].mig.target == r then 2 else 1) else s

/-- Raise a rank's health to a state above its own, with its entry and its source (R347, R348). -/
def riseHealth (s : State) (c : ChanId) (r : RankId) (h : Health) (count : Nat) : State :=
  let old := s.chans[c].ranks[r].health
  if h.code ≤ old.code then s
  else
    let s1 := (s.updRank c r fun x => { x with health := h }).logInteg 0x0D01 c.val r.val old.code h.code count
    match h with
    | .retireDue => (s1.raiseChan c).actOnHealth c r false
    | .failing => (s1.raiseChan c).actOnHealth c r true
    | _ => s1

/-- Corrected words that make a rank RETIRE_DUE, 0 for none. -/
def retireCe (s : State) : Nat := (s.ks.force.integ.extractLsb' 0 16).toNat

/-- Uncorrectable bursts that make a rank RETIRE_DUE. -/
def retireUe (s : State) : Nat := (s.ks.force.integ.extractLsb' 16 8).toNat

/-- Remember an uncorrectable burst: which of its two counts it adds to (R346). -/
def markUe (l : List Seen) (a : Nat) (r : RankId) : List Seen × Bool × Bool :=
  match l.find? fun x => x.addr = a && x.rank = r with
  | some x =>
    (l.map fun (y : Seen) => if y.addr = a ∧ y.rank = r then { y with day := true, ten := true } else y, !x.day,
      !x.ten)
  | none => ((l ++ [({ addr := a, rank := r } : Seen)]).drop (l.length + 1 - 256), true, true)

/-- Count a burst's corrected words and its uncorrectable outcome against its rank (R346, R347); nothing while
INTEG_CTRL.TEST is 1 or on a retired rank (R341). -/
def countHealth (s : State) (c : ChanId) (r : RankId) (a ce : Nat) (ue : Bool) : State :=
  if s.integTest || s.chans[c].ranks[r].st == .retired then s
  else
    let (seen, day, ten) := if ue then markUe s.chans[c].ueSeen a r else (s.chans[c].ueSeen, false, false)
    let s1 := (s.updChan c fun ch => { ch with ueSeen := seen }).updRank c r fun x => { x with
      ceHour := x.ceHour + ce, ueDay := x.ueDay + (if day then 1 else 0), ueTen := x.ueTen + (if ten then 1 else 0) }
    let k := s1.chans[c].ranks[r]
    let s2 := if s1.chans[c].scrub.threshold < k.ceHour ∧ k.ceRaised = false then
        ((s1.updRank c r fun x => { x with ceRaised := true }).riseHealth c r .ceHigh k.ceHour).raise
          ⟨58 + c.val, by omega⟩
      else s1
    let s3 := if s2.retireUe ≤ k.ueDay then s2.riseHealth c r .retireDue k.ueDay
      else if s2.retireCe ≠ 0 ∧ s2.retireCe ≤ k.ceHour then s2.riseHealth c r .retireDue k.ceHour else s2
    if 64 ≤ k.ueTen then s3.riseHealth c r .failing k.ueTen else s3

/-- Queue a burst for priority scrub: 64 addresses, each once (R334). -/
def queueScrub (s : State) (c : ChanId) (a : Nat) : State :=
  s.updScrub c fun x => if x.prio.contains a || 64 ≤ x.prio.length then x else { x with prio := x.prio ++ [a] }

/-! ### Reading a burst -/

/-- The eight decoded words of the burst stored at an address (R331). -/
def decodeBurst (s : State) (a : Nat) : List Decoded := (readBurst s.raster.dram a).map decodeWord

/-- What reading a stored burst on a path does beside its data: entries, counts, priority scrub and health (R334, R335,
R346). -/
def noteRead (s : State) (path a : Nat) : State :=
  let ws := readBurst s.raster.dram a
  let ds := ws.map decodeWord
  let l := s.raster.loc a
  let r := s.physRank a
  let ce := (ds.filter fun d => d.inverted ≠ []).length
  let ue := ds.any fun d => d.out = .uncorrectable
  let s1 := ((ws.zip ds).zipIdx).foldl (fun acc x => acc.noteWord path (a + 8 * x.2) x.1.1 x.1.2) s
  let s2 := if ce ≠ 0 ∧ (path = 0 ∨ path = 2) then s1.queueScrub l.chan a else s1
  if ce = 0 ∧ ue = false then s2 else s2.countHealth l.chan r a ce ue

/-- The first bad word of a decoded burst: its index and whether it is POISON. -/
def firstBad (ds : List Decoded) : Option (Nat × Bool) :=
  (ds.zipIdx).findSome? fun x =>
    if x.1.out = .uncorrectable then some (x.2, false) else if x.1.out = .poison then some (x.2, true) else none

/-- The bytes of a decoded burst. -/
def dataOf (ds : List Decoded) : BitVec 512 := joinWords (ds.map fun d => wordData d.word)

/-- Write an entry for a word written back poisoned (R335). -/
def logPoisonWritten (s : State) (path a : Nat) (d : Decoded) (stored : BitVec 80) : State :=
  s.logEcc 0x0D14 path a d stored

/-- Write a burst back with corrected words corrected and uncorrectable words poisoned, each with its entry (R344, R352). -/
def rewriteBurst (s : State) (path a : Nat) : State :=
  let ws := readBurst s.raster.dram a
  let s1 := (ws.zipIdx).foldl
    (fun acc x =>
      let d := decodeWord x.1
      if d.out = .uncorrectable then acc.logPoisonWritten path (a + 8 * x.2) d x.1 else acc) s
  s1.storeBurst a (ws.map rewriteWord)

end State

end Sys2Proof.Machine
end

