-- ==== Sys2Proof/Machine/Transfers.lean ====
section
/-! DEFINITION. Commands on the DRAM: the bursts of a command and its fills (R91, R101, R102), the presentation of transfers
(R311), rows and activates (R291, R297, R298), what a granted burst does (R336, R338, R339), delivery (R104), and the
completion of a command whose last transfer or fill has ended. -/

namespace Sys2Proof.Machine

/-- A record of 16 bytes as the 80 bits of a codeword: data bits at 14 to 77, check bits at 0 to 13, poison, parity (R78). -/
def recordWord (bs : List Byte) : BitVec 80 :=
  let d := leNat (bs.take 8)
  let x := leNat ((bs.drop 8).take 2)
  BitVec.ofNat 80 (x % 2 ^ 14 + d * 2 ^ 14 + x / 2 ^ 14 * 2 ^ 78)

/-- The record of a codeword with its decode outcome in byte 10 (R78). -/
def wordRecord (c : BitVec 80) (outcome : Nat) : List Byte :=
  let n := c.toNat
  leBytes 8 (n / 2 ^ 14) ++ leBytes 2 (n % 2 ^ 14 + n / 2 ^ 78 % 4 * 2 ^ 14) ++ [BitVec.ofNat 8 outcome] ++ leBytes 5 0

/-- The flips of an ECC_INJECT (R339). -/
def Cmd.flips (c : Cmd) : BitVec 80 :=
  let d := c.p 2 + 2 ^ 32 * c.p 3
  let x := c.f 4 0 16
  BitVec.ofNat 80 (x % 2 ^ 14 + d * 2 ^ 14 + x / 2 ^ 14 * 2 ^ 78)

/-- RAA of a bank index: the largest count among the bank groups (R297). -/
def BankIdx.raa (x : BankIdx) : Nat := x.raas.toList.foldl max 0

/-- The host whose port a command's window requests count against (R298). -/
def Cmd.port (c : Cmd) : Option HostId :=
  match c.requester with
  | some r => if r.val < 8 then some c.iss.host else none
  | none => none

/-- The answer of a command that moves raster, once all of it has ended (R68, R103). -/
def Cmd.answer (c : Cmd) : Answer :=
  match c.op.toNat with
  | 0x14 => { r0 := c.bytes }
  | 0x51 => { r0 := c.bytes }
  | 0x50 => { r0 := c.f 4 0 16 }
  | 0x52 => { r0 := c.bytes }
  | _ => if c.poisoned = 0 then { r0 := c.p 4 }
         else { status := .partialOnUe, detail := 0x11, r0 := c.p 4, r1 := c.poisoned }

namespace State

/-! ### Rows and activates -/

/-- Change the record of a bank index. -/
def updBank (s : State) (c : ChanId) (r : RankId) (u : SubId) (b : Fin 4) (f : BankIdx → BankIdx) : State :=
  s.updRank c r fun k => { k with banks := vmod k.banks (bankSlot u b) f }

/-- The row of a burst is open on a physical rank (R291). -/
def rowOpenOn (s : State) (r : RankId) (a : Nat) : Bool :=
  let l := s.raster.loc a
  s.chans[l.chan].rows.any fun x =>
    x.rank = r && x.sub = l.sub && x.group = l.group && x.bank = l.bank && x.row == l.row

/-- The row of the burst's bank is open. -/
def rowOpen (s : State) (a : Nat) : Bool := s.rowOpenOn (s.physRank a) a

/-- An activate for a burst on a rank is held because RAA has reached RAAMMT (R297). -/
def raaHeldOn (s : State) (r : RankId) (a : Nat) : Bool :=
  let l := s.raster.loc a
  let k := s.chans[l.chan].ranks[r]
  !s.rowOpenOn r a && decide (k.raammt ≤ (k.banks[bankSlot l.sub l.bank]).raa)

/-- The guard holds an access to a burst on a rank: for RAAMMT, while its bank is being refreshed, or after a ZQCal Latch
(R149, R155, R297). -/
def actHeldOn (s : State) (r : RankId) (a : Nat) : Bool :=
  let l := s.raster.loc a
  let k := s.chans[l.chan].ranks[r]
  s.raaHeldOn r a || (!s.rowOpenOn r a && decide (s.time < (k.banks[bankSlot l.sub l.bank]).busyTo)) ||
    decide (s.time < k.zqTo)

/-- The guard holds an access to a burst. -/
def actHeld (s : State) (a : Nat) : Bool := s.actHeldOn (s.physRank a) a

/-- The guard holds an access to a burst: an activate held at RAAMMT asks for a forced RFMsb (R297). -/
def holdAccess (s : State) (r : RankId) (a : Nat) : State :=
  let l := s.raster.loc a
  let k := (r, l.sub, l.bank)
  if s.raaHeldOn r a && !s.chans[l.chan].rfmDue.contains k then
    s.force l.chan fun t => t.updChan l.chan fun ch => { ch with rfmDue := ch.rfmDue ++ [k] }
  else s

/-- A column command goes to a burst on a rank: RD 2 or WR 3. -/
def columnOn (s : State) (r : RankId) (a code : Nat) (by_ : By) : State :=
  let l := s.raster.loc a
  s.traceCmd l.chan l.sub code r l.group.val l.bank.val l.col l.row by_

/-- A column command goes to a burst. -/
def column (s : State) (a code : Nat) (by_ : By) : State := s.columnOn (s.physRank a) a code by_

/-- The bank of a burst on a rank. -/
def inBank (s : State) (r : RankId) (a : Nat) (x : Row) : Bool :=
  let l := s.raster.loc a
  x.rank == r && x.sub == l.sub && x.group == l.group && x.bank == l.bank

/-- Activate a burst's row on a rank (R291): the bank's open row gives way to it, and the activate counts for its bank index
(R297), and for a host's window requests against ACT_LIMIT (R298). -/
def activateOn (s : State) (r : RankId) (a : Nat) (by_ : By) : State :=
  let l := s.raster.loc a
  let s0 := s.closeRows l.chan (s.inBank r a) by_
  let s1 := (s0.traceCmd l.chan l.sub 1 r l.group.val l.bank.val 0 l.row by_).updChan l.chan fun ch => { ch with rows :=
    ch.rows ++ [{ rank := r, sub := l.sub, group := l.group, bank := l.bank, row := l.row, opened := s.time,
                  used := s.slotsRun l.chan }] }
  s1.updBank l.chan r l.sub l.bank fun k =>
    let raas := vmod k.raas l.group (· + 1)
    { k with
      raas := raas
      need := k.need || decide (s.chans[l.chan].ranks[r].raaimt ≤ raas.toList.foldl max 0)
      acts := match by_.port with
        | some h => vmod k.acts h (· + 1)
        | none => k.acts }

/-- Access a burst on a rank by a column command (R291): an open row is used again, else it is activated. -/
def touchRowOn (s : State) (r : RankId) (a code : Nat) (by_ : By) : State :=
  let c := s.raster.chanOf a
  let s0 := s.useRank c r by_
  let s1 := if s.rowOpenOn r a then
      s0.updChan c fun ch => { ch with rows := ch.rows.map fun x => if s.inBank r a x then { x with used := s.slotsRun c } else x }
    else s0.activateOn r a by_
  s1.columnOn r a code by_

/-- Access a burst by a column command. -/
def touchRow (s : State) (a code : Nat) (by_ : By) : State := s.touchRowOn (s.physRank a) a code by_

/-- Read a burst once more, with its row opened again (R301). -/
def repeatRead (s : State) (a : Nat) (by_ : By) : State :=
  (s.closeRows (s.raster.chanOf a) (s.inBank (s.physRank a) a) by_).touchRow a 2 by_

/-- Access a burst's row for a read. A burst of which every word is uncorrectable is read once more (R301): what is stored has
not changed, so the repeat reads the same. Of another burst the first read may have come so by a command error, which is free;
when the repeat holds no uncorrectable word, the error is logged. -/
def readRow (s : State) (a : Nat) (by_ : By) : State :=
  let s1 := s.touchRow a 2 by_
  let ds := s.decodeBurst a
  if ds.all fun d => d.out = .uncorrectable then s1.repeatRead a by_
  else if ds.any fun d => d.out = .uncorrectable then s1
  else
    let s2 := s1.useFree
    if Config.commandFails s.free then
      let l := s.raster.loc a
      (s2.repeatRead a by_).logErr 0x0B05 255 [fld 12 1 l.chan.val, fld 13 1 l.sub.val, fld 14 1 (s.physRank a).val,
        fld 20 4 a]
    else s2

/-! ### Presentation (R311) -/

/-- The first bursts of a list that make one transfer: one read-modify-write, or up to eight of one kind (R311). -/
def firstXfer : List Burst → List Burst
  | [] => []
  | b :: bs => if b.kind = .rmw then [b] else (b :: bs.takeWhile fun x => x.kind = b.kind).take 8

/-- The command whose transfer a requester presents next on a channel: the oldest started with bursts there. -/
def nextFor (s : State) (c : ChanId) (r : Fin 12) : Option Cmd :=
  let cs := s.cmds.filter fun x =>
    x.isStarted && x.requester == some r && x.todo.any fun b => s.raster.chanOf b.addr == c
  cs.foldl (fun best x => match best with
    | none => some x
    | some y => if x.started < y.started then some x else some y) none

/-- Add a transfer of a requester on a channel, presented now. -/
def presentXfer (s : State) (c : ChanId) (r : Fin 12) (src : Src) (bs : List Burst) : State :=
  s.updChan c fun ch => { ch with arb := { ch.arb with 
    reqs := vset ch.arb.reqs r [{ src := src, bursts := bs, presented := s.time, born := s.slotsRun c }] } }

/-- Bursts of a stopped command's fill that lie on a channel and are not yet granted or presented (R92). -/
def fillLeft (s : State) (c : ChanId) (f : Fill) : List Burst :=
  let out := ((s.transfers c).filter fun x => x.src == .fill f.ashlar).flatMap (·.bursts)
  ((f.rest.getD []).filter fun a => s.raster.chanOf a == c && !(out.any fun b => b.addr == a)).map fun a => ⟨a, .write⟩

/-- Output of the engines goes in the order in which it was produced: the bursts of one command that come first on a channel. -/
def nextWriteback (s : State) (c : ChanId) : Option (Nat × List Burst) :=
  match s.writeback.filter fun x => s.raster.chanOf x.2.addr == c with
  | [] => none
  | x :: xs => some (x.1, firstXfer (x.2 :: (xs.takeWhile fun y => y.1 = x.1).map (·.2)))

/-- Present a requester's next transfer on a channel if it presents none there: what is left of a stopped command's fill, then
the output of the engines, then the oldest command. -/
def presentOne (s : State) (c : ChanId) (r : Fin 12) : State :=
  if s.chans[c].arb.reqs[r] ≠ [] then s
  else match s.raster.filling.find? fun f => f.req = r && !(s.fillLeft c f).isEmpty with
    | some f => s.presentXfer c r (.fill f.ashlar) (firstXfer (s.fillLeft c f))
    | none => match if r = 8 then s.nextWriteback c else none with
      | some (id, mine) =>
        { s with writeback := s.writeback.filter fun x => !(x.1 = id && mine.contains x.2) }.presentXfer c r (.cmd id) mine
      | none => match s.nextFor c r with
        | some x =>
          let mine := firstXfer (x.todo.filter fun b => s.raster.chanOf b.addr == c)
          (s.updCmd x.id fun y => { y with todo := y.todo.filter fun b => !mine.contains b }).presentXfer c r (.cmd x.id) mine
        | none => s

/-- Every requester presents what it can on every channel in use. -/
def present (s : State) : State :=
  s.chansInUse.foldl (fun acc c => (List.finRange 12).foldl (fun a r => a.presentOne c r) acc) s

/-! ### Handing out bursts -/

/-- The bursts from an address up to another. -/
def burstsFrom (lo hi : Nat) : List Nat := (List.range ((hi - lo) / 64)).map fun k => lo + 64 * k

/-- The kind of a burst of a writing command: whole or in part, over a fill or over stored data (R91, R102). -/
def burstKind (s : State) (c : Cmd) (b : Nat) : BurstKind :=
  let (lo, len) := c.range
  if s.raster.isFilling (s.raster.ashlar b) then .write
  else if c.op = 0x52 then .rmw
  else if lo ≤ b ∧ b + 64 ≤ lo + len then .write else .rmw

/-- Hand the bursts of a WRITE_RAW or a RAW_WRITE whose bytes have come to its requester, in ascending order (R101). -/
def handOut (s : State) (id : Nat) : State :=
  match s.findCmd id with
  | none => s
  | some c =>
    let (lo, len) := c.range
    let got := if c.op = 0x50 then c.buf.length / 2 else c.buf.length
    let upTo := if len ≤ got then c.stop else max c.next (min c.stop ((lo + got) / 64 * 64))
    (s.updCmd id fun x => { x with
      todo := x.todo ++ (burstsFrom c.next upTo).map fun b => ⟨b, s.burstKind c b⟩
      next := upTo
      prog := if len ≤ got then .raster else x.prog }).present

/-- The unwritten ashlars of a command's range begin to fill (R91). -/
def beginFills (s : State) (id : Nat) (ashlars : List Nat) : State :=
  s.updRaster fun r => { r with filling := r.filling ++
    (ashlars.filter fun n => !r.isWritten n && !r.isFilling n).map fun n =>
      { ashlar := n, cmd := id, req := ((s.findCmd id).bind Cmd.requester).getD 11 } }

/-- First burst of the range of a write: of its ashlar when that is to be filled. -/
def rangeLo (s : State) (a : Nat) : Nat :=
  if s.raster.isWritten (s.raster.ashlar a) then a / 64 * 64 else a / 65536 * 65536

/-- End of the range of a write in whole bursts, or in whole ashlars when the last is to be filled. -/
def rangeHi (s : State) (last : Nat) : Nat :=
  if s.raster.isWritten (s.raster.ashlar last) then (last / 64 + 1) * 64 else (last / 65536 + 1) * 65536

/-! ### What a granted burst does -/

/-- A burst of a READ is read and kept for delivery (R104, R333). -/
def doRead (s : State) (id a : Nat) : State :=
  let ds := s.decodeBurst a
  let s1 := s.noteRead 0 a
  s1.updCmd id fun x => { x with got := x.got ++
    [{ addr := a, bytes := dataOf ds, bad := (firstBad ds).map fun b => (a + 8 * b.1, b.2) }] }

/-- A burst of a RAW_READ: stored bits and outcomes, with nothing logged or counted (R338). -/
def doRawRead (s : State) (id a : Nat) : State :=
  let ws := readBurst s.raster.dram a
  s.updCmd id fun x => { x with got := x.got ++
    [{ addr := a, bytes := 0, raw := ws.map fun w => (w, (decodeWord w).out.code) }] }

/-- A read-modify-write of a burst by WRITE_RAW or ZERO (R102, R336, R337). -/
def doMerge (s : State) (id a : Nat) : State :=
  let ws := readBurst s.raster.dram a
  let s1 := s.noteRead 1 a
  match s1.findCmd id with
  | none => s1
  | some c =>
    let out := ws.zipIdx.map fun x => mergedWord c (a + 8 * x.2) x.1
    let s2 := ((ws.zip out).zipIdx).foldl (fun acc x =>
      if x.1.2.2 then acc.logPoisonWritten 1 (a + 8 * x.2) (decodeWord x.1.1) x.1.1 else acc) s1
    (s2.storeBurst a (out.map (·.1))).updCmd id fun x => { x with
      poisoned := x.poisoned + (out.filter (·.2)).length }

/-- A whole burst of a WRITE_RAW or ZERO, or of a fill: bytes that the command does not write are zeros (R91). -/
def doWrite (s : State) (c : Cmd) (a : Nat) : State :=
  s.storeBurst a ((List.range 8).map fun k => encodeWord (c.mergeWord (a + 8 * k) 0) false)

/-- A burst of a RAW_WRITE: the records' 80 bits as given; other bursts of its fill are zeros (R338). DESIGN CHOICE: the reserved bytes
10 to 15 of a record, which R78 wants 0, are not looked at (log entry 117). -/
def doRawWrite (s : State) (c : Cmd) (a : Nat) : State :=
  let (lo, len) := c.range
  if lo ≤ a ∧ a < lo + len then
    s.storeBurst a ((List.range 8).map fun k => recordWord ((c.buf.drop (2 * (a - lo) + 16 * k)).take 16))
  else s.storeBurst a (List.replicate 8 0)

/-- The burst of an ECC_INJECT: flips over the stored bits, written back without check bits, then read again (R339); other
bursts of its fill are zeros. -/
def doInject (s : State) (id : Nat) (c : Cmd) (a : Nat) (kind : BurstKind) : State :=
  let w := (c.range).1
  if w / 64 = a / 64 then
    let old := if kind = .rmw then readBurst s.raster.dram a else List.replicate 8 0
    let s1 := s.storeBurst a (old.modify (w % 64 / 8) (· ^^^ c.flips))
    let stored := readWord s1.raster.dram (w / 8)
    let d := decodeWord stored
    (s1.logEcc 0x0D15 6 w d stored).updCmd id fun x => { x with bytes := d.out.code }
  else s.storeBurst a (List.replicate 8 0)

/-- A byte of a stream that goes on at bit `tail`: old bits below it, `count` of the command's own bits from it on. -/
def streamByte (old : BitVec 512) (tail : Nat) (own : List Byte) (count k : Nat) : Byte :=
  BitVec.ofNat 8 ((List.range 8).map fun j =>
    let p := 8 * k + j
    let b := if p < tail then (byteOf old (k % 64)).getLsbD j
      else decide (p < tail + count) && bitOf own (p - tail)
    if b then 2 ^ j else 0).sum

/-- An index entry (R109, R110). -/
def indexEntry (prev end_ : Nat) : Nat := (ceilDiv end_ 64 - ceilDiv prev 64) % 512 * 2 ^ 55 + end_ % 2 ^ 28

/-- The index entries of lines with the given ENDs. -/
def indexEntries : Nat → List Nat → List Nat
  | _, [] => []
  | prev, e :: es => indexEntry prev e :: indexEntries e es

/-- A byte of the index: old entries below `first`, new ones from it on. -/
def indexByte (old : BitVec 512) (first : Nat) (es : List Nat) (k : Nat) : Byte :=
  if k / 8 < first then byteOf old (k % 64) else BitVec.ofNat 8 ((es.getD (k / 8 - first) 0) / 256 ^ (k % 8))

/-- ENDs of the lines that have been produced (R109). -/
def lineEnds (o : Output) : List Nat := o.ends.map fun p => ceilDiv (o.tail + p) 8

/-- The 64 bytes of a burst of a command's output over old ones (R116): of its stream, or of its index, as far as the output
goes. -/
def outputBurst (o : Output) (r : Raster) (a : Nat) (old : BitVec 512) : BitVec 512 :=
  let byte (j : Nat) : Byte :=
    match chainIndex r (extentAshlars o.extents) a, chainIndex r o.index a with
    | some k, _ => if 64 * k + j < o.streamTo then streamByte old o.tail o.stream o.bits (64 * k + j) else byteOf old j
    | none, some k =>
      if 64 * k + j < 8 * o.entriesTo then indexByte old o.lines (indexEntries o.lastEnd (lineEnds o)) (64 * k + j)
      else byteOf old j
    | none, none => 0
  ofBytes ((List.range 64).map byte)

/-- A burst of a compressor's output is written; the tail burst of an append is completed by a read-modify-write, and an
uncorrectable or poisoned word in it ends the command (R116, R124). -/
def doOutput (s : State) (c : Cmd) (b : Burst) (by_ : By) : State :=
  if b.kind = .rmw then
    let ds := s.decodeBurst b.addr
    let s1 := s.noteRead 5 b.addr
    if (firstBad ds).isSome then s1.abort c.id { status := .uncorrectable, detail := 0x11 }
    else (s1.column b.addr 3 by_).storeData b.addr (outputBurst c.out s.raster b.addr (dataOf ds)) fun _ => false
  else s.storeData b.addr (outputBurst c.out s.raster b.addr 0) fun _ => false

/-- One burst of a granted transfer of a command takes effect. -/
def doBurst (s : State) (id : Nat) (b : Burst) : State :=
  match s.findCmd id with
  | none => s
  | some c =>
    let by_ := By.window (c.requester.getD 11) c.port
    let s1 := if b.kind = .write then s.touchRow b.addr 3 by_ else s.readRow b.addr by_
    match c.op.toNat, b.kind with
    | 0x13, _ | 0x16, _ => s1.doOutput c b by_
    | 0x14, _ => s1.doRead id b.addr
    | 0x51, _ => s1.doRawRead id b.addr
    | 0x50, _ => s1.doRawWrite c b.addr
    | 0x52, .rmw => (s1.column b.addr 3 by_).doInject id c b.addr .rmw
    | 0x52, k => s1.doInject id c b.addr k
    | _, .rmw => (s1.column b.addr 3 by_).doMerge id b.addr
    | _, _ => s1.doWrite c b.addr

/-- A burst of a stopped command's fill is written with zeros (R92). -/
def doFill (s : State) (n a : Nat) : State :=
  let r := ((s.raster.filling.find? fun f => f.ashlar = n).map (·.req)).getD 8
  ((s.touchRow a 3 (By.window r (portOf r))).storeBurst a (List.replicate 8 0)).updRaster fun r => { r with
    filling := r.filling.map fun (f : Fill) => if f.ashlar = n then { f with rest := f.rest.map (·.filter (· ≠ a)) } else f }

/-! ### Scrub and migration transfers (R344, R352) -/

/-- A burst of the scrubber: read and decoded, and noted for its write-back when a word is corrected or uncorrectable; or the
write-back itself, a read-modify-write that writes no new data (R344). -/
def doScrub (s : State) (c : ChanId) (b : Burst) : State :=
  let bad := (s.decodeBurst b.addr).any fun d => d.inverted != [] || d.out == .uncorrectable
  let s1 := (s.readRow b.addr (By.window 9 none)).noteRead 3 b.addr
  if !bad then s1
  else if b.kind = .rmw then (s1.column b.addr 3 (By.window 9 none)).rewriteBurst 3 b.addr
  else s1.updScrub c fun x => { x with back := x.back ++ [b.addr] }

/-- Words of a burst that decode UNCORRECTABLE. -/
def badWords (s : State) (a : Nat) : Nat := ((s.decodeBurst a).filter fun d => d.out == .uncorrectable).length

/-- A burst of the migrator: read from the source, or written to the target with fresh check bits (R352). -/
def doMigrate (s : State) (c : ChanId) (b : Burst) : State :=
  if b.kind = .read then ((s.readRow b.addr (By.window 10 none)).noteRead 4 b.addr)
  else
    (s.touchRowOn (s.chans[c].mig.target) b.addr 3 (By.window 10 none)).rewriteBurst 4 b.addr

/-- One burst of a granted transfer on a channel takes effect. -/
def doXfer (s : State) (c : ChanId) (src : Src) (b : Burst) : State :=
  match src with
  | .cmd id => s.doBurst id b
  | .fill n => s.doFill n b.addr
  | .scrub => s.doScrub c b
  | .mig => s.doMigrate c b

/-- Replace a strip record. -/
def putStrip (s : State) (t : Strip) : State := { s with strips := s.strips.map fun x => if x.idx = t.idx then t else x }

end State

/-- Bytes of a strip including its index (R72, R123). -/
def Strip.size (t : Strip) : Nat := if t.raw then t.lines * t.stride else ceilDiv t.bits 8 + 8 * t.lines

namespace State

/-! ### Progress and completion -/

/-- A command has no burst left to move and no fill under way (R91). -/
def moved (s : State) (c : Cmd) : Bool :=
  c.todo.isEmpty && (s.presentedBursts c.id).isEmpty && !(s.raster.filling.any fun f => f.cmd == c.id && f.rest.isNone)

/-- Write the bytes of a burst that a READ asks for to the host (R104). -/
def deliverBurst (s : State) (c : Cmd) (a : Nat) (b : BitVec 512) : State :=
  let (lo, len) := c.range
  let first := max lo a
  let last := min (lo + len) (a + 64)
  (s.emit (.hostWrite c.host (c.hostAddr 0 + (first - lo)) (((burstBytes b).drop (first - a)).take (last - first)))).updCmd
    c.id fun x => { x with next := a + 64, bytes := x.bytes + (last - first) }

/-- Write the eight records of a burst that a RAW_READ asks for to the host (R78). -/
def deliverRaw (s : State) (c : Cmd) (a : Nat) (ws : List (BitVec 80 × Nat)) : State :=
  let (lo, _) := c.range
  (s.emit (.hostWrite c.host (c.hostAddr 0 + 2 * (a - lo)) (ws.map fun w => wordRecord w.1 w.2).flatten)).updCmd
    c.id fun x => { x with next := a + 64, bytes := x.bytes + 8 }

/-- The words of a burst of an unwritten ashlar as RAW_READ returns them (R90). -/
def cleanRaw : List (BitVec 80 × Nat) := List.replicate 8 (0, 0)

/-- Deliver, in ascending order, the bursts of a READ or RAW_READ that have come; a burst that is neither to come nor read
lies in an ashlar that was unwritten when the command started, and reads as zeros (R90, R104). -/
def deliverLoop (id : Nat) : Nat → State → State
  | 0, s => s
  | fuel + 1, s =>
    match s.findCmd id with
    | none => s
    | some c =>
      if c.stop ≤ c.next then s
      else
        let a := c.next
        match c.got.find? fun g => g.addr = a with
        | some g =>
          match g.bad with
          | some (w, poison) =>
            s.abort id { status := .uncorrectable, detail := if poison then 0x12 else 0x11, r0 := c.bytes
                         r1 := w % 2 ^ 32 }
          | none =>
            deliverLoop id fuel (if c.op = 0x51 then s.deliverRaw c a g.raw else s.deliverBurst c a g.bytes)
        | none =>
          if (c.todo ++ s.presentedBursts id).any fun b => b.addr = a then s
          else if c.op = 0x51 then deliverLoop id fuel (s.deliverRaw c a cleanRaw)
          else deliverLoop id fuel (s.deliverBurst c a 0)

/-- The strip record that a command's output gives the strip (R115, R120). -/
def Output.strip (o : Output) (t : Strip) : Strip :=
  { t with
    extents := o.extents, index := o.index, bits := o.tail + o.bits, lines := o.lines + o.ends.length
    lastEnd := ((lineEnds o).getLast?).getD o.lastEnd }

/-- The bits of a SEAL_STRIP have been written: the strip is sealed (R124). -/
def sealDone (s : State) (c : Cmd) : State :=
  match s.findStrip (c.p 0) with
  | none => s.fail c.id .invalidField 0x08
  | some t =>
    let v : Strip := { Output.strip c.out t with sealed := true }
    (s.putStrip v).succeed c.id v.lines v.size

/-- Go on with a command after one of its transfers or fills: deliver what has come, and complete it when all is done. -/
def progress (s : State) (id : Nat) : State :=
  match s.findCmd id with
  | none => s
  | some c =>
    if c.op = 0x14 ∨ c.op = 0x51 then
      let s1 := deliverLoop id ((c.stop - c.next) / 64 + 1) s
      match s1.findCmd id with
      | none => s1
      | some d => if d.prog = .raster ∧ d.stop ≤ d.next then s1.finish id d.answer else s1
    else if c.prog = .raster ∧ c.stop ≤ c.next ∧ s.moved c = true then
      (if c.op = 0x16 then s.sealDone c else s.finish id c.answer)
    else s

/-! ### Rows of the table -/

/-- The rank that a burst of a transfer goes to: the migrator writes the target (R351, R352). -/
def xferRank (s : State) (c : ChanId) (src : Src) (b : Burst) : RankId :=
  if src = .mig ∧ b.kind = .write then s.chans[c].mig.target else s.physRank b.addr

/-- Bursts of a transfer issue in order, up to one that the guard holds, or that replays on its subchannel go before (R299); with how
many have issued. -/
def issueBursts (c : ChanId) (src : Src) : List Burst → Nat → State → State × Nat
  | [], n, s => (s, n)
  | b :: bs, n, s =>
    let r := s.xferRank c src b
    if s.actHeldOn r b.addr || s.chans[c].subs[(s.raster.loc b.addr).sub].replay != [] then (s.holdAccess r b.addr, n) else issueBursts c src bs (n + 1) (s.doXfer c src b)

/-- The slot that has just run, or runs, on a subchannel is a window slot; a channel that waits at the end of its course runs
window slots (R133). -/
def windowOpen (s : State) (c : ChanId) (u : SubId) : Bool :=
  s.windowAt c u (slotAfter s.chans[c].skipped ((s.mckNow c - 1) / 16)) || decide (0 < s.slotsWaited c)

/-- The window of a transfer has closed before it has ended (R148, R320). -/
def windowShut (s : State) (c : ChanId) (x : Xfer) : Bool :=
  (x.bursts.drop x.done).any fun b => !s.windowOpen c (s.raster.loc b.addr).sub

/-- A window that closes while the write half of a read-modify-write is on its way stays open until it ends: the slot counter
has been held meanwhile (R321). -/
def settleHalf (s : State) (c : ChanId) (x : Xfer) : State :=
  let hold := s.lateBy c x.closes
  if x.half && decide (x.closes ≤ s.mckNow c) && decide (0 < hold) then
    (s.holdAt c x.closes s.time).logCourse 0x0202 c.val 0xFF 0xFF 0xFF (s.slotNow c) 0xFFFF hold (s.table c).tableId.toNat
  else s

/-- The migrator's transfer has been read, and is presented for the target; or it has been written, and the pointer passes its
bursts (R351, R352). -/
def migNext (s : State) (c : ChanId) : State :=
  let m := s.chans[c].mig
  if m.hasRead then
    let k := m.burst + m.transit.length
    let full := if s.raster.single then 1024 else 512
    s.updMig c fun x => { x with
      ashlar := if k < full then x.ashlar else x.ashlar + 1, burst := if k < full then k else 0
      transit := [], hasRead := false, bad := 0, poisoned := x.poisoned + x.bad }
  else (s.updMig c fun x => { x with hasRead := true, bad := (m.transit.map s.badWords).sum }).presentXfer c 10 .mig (m.transit.map fun a => ⟨a, .write⟩)

/-- What follows the end of a transfer: its requester presents the next, and its command goes on. -/
def afterXfer (s : State) (c : ChanId) (src : Src) : State :=
  match src with
  | .cmd id => (s.present).progress id
  | .mig => (s.migNext c).present
  | _ => s.present

/-- The command and the burst of a transfer for which host staging gives an uncorrectable word (R224). -/
def stagingBad (s : State) (x : Xfer) (staging : Option Nat) : Option (Cmd × Burst × Nat) :=
  match x.src, staging with
  | .cmd id, some j => match s.findCmd id, x.bursts[j]? with
    | some k, some b => if k.usesStaging && decide (x.done ≤ j) then some (k, b, j) else none
    | _, _ => none
  | _, _ => none

/-- The data that a READ or RAW_READ keeps of a burst are bad in staging (R224). -/
def spoilGot (s : State) (id a : Nat) : State :=
  s.updCmd id fun x => { x with got := x.got.map fun g => if g.addr = a then { g with bad := some (a, false) } else g }

/-- The bursts of a granted transfer that have not issued do so, as far as staging serves a write; with how many have issued. -/
def issueGranted (s : State) (c : ChanId) (x : Xfer) : Option (Cmd × Burst × Nat) → State × Nat
  | none => issueBursts c x.src (x.bursts.drop x.done) x.done s
  | some (k, b, j) =>
    if k.op = 0x14 ∨ k.op = 0x51 then
      let r := issueBursts c x.src (x.bursts.drop x.done) x.done s
      (r.1.spoilGot k.id b.addr, r.2)
    else
      let r := issueBursts c x.src ((x.bursts.take j).drop x.done) x.done s
      if r.2 = j then (r.1.abort k.id { status := .uncorrectable, detail := 0x11 }, j) else r

/-- The granted transfer of a channel ends: its bursts take effect, and its command goes on or completes (R311). What the guard
holds keeps it waiting (R155, R297); a transfer whose window has closed does not go on (R148). A burst for which host staging gives an
uncorrectable word stops its command there (R224). -/
def transferDone (s : State) (c : ChanId) (staging : Option Nat) : State :=
  match s.chans[c].arb.holder with
  | none => s
  | some (r, x) =>
    if !s.chanServes c || s.storming c || s.windowShut c x then s
    else
      let (s1, n) := s.issueGranted c x (s.stagingBad x staging)
      if s1.chans[c].arb.holder = none then s1.present
      else if n < x.bursts.length then
        s1.updChan c fun ch => { ch with arb := { ch.arb with holder := some (r, { x with done := n }) } }
      else
        let s2 := (s1.settleHalf c x).updChan c fun ch => { ch with arb := { ch.arb with holder := none, freed := s.time } }
        s2.afterXfer c x.src

/-- The last burst of a fill has been written: its map bit is set, and the command goes on (R91). What a stopped WRITE_COMPRESS
had taken goes back unwritten (R119). -/
def fillDone (s : State) (n : Nat) : State :=
  match s.raster.filling.find? fun f => f.ashlar = n with
  | none => s
  | some f =>
    let done := s.updRaster fun r => { r with
      filling := r.filling.filter fun g => g.ashlar ≠ n
      written := if f.back then r.written else Raster.insertNat r.written n }
    match f.rest with
    | some rest => if rest = [] then done else s
    | none =>
      match s.findCmd f.cmd with
      | none => s
      | some c => if (s.raster.ashlarBursts n).any (s.unwritten c) then s else done.progress f.cmd

end State

end Sys2Proof.Machine
end

