-- ==== Sys2Proof/Machine/Start.lean ====
section
/-! DEFINITION. Starting a command: heartbeats (R39, R40), what a command waits for once it has started (R89, R92, R114, R151,
R304, R306), the refusals of quench and of a disabled requester (R77, R312), and the fetch of a packet with its checks. -/

namespace Sys2Proof.Machine

/-- The strip handle that a command names, 0 for none (R114). -/
def Cmd.strip (c : Cmd) : Nat :=
  match c.op.toNat with
  | 0x13 => c.p 5
  | 0x16 | 0x17 | 0x19 => c.p 0
  | _ => 0

/-- The command moves raster over a range of addresses. -/
def Cmd.movesRange (c : Cmd) : Bool := [0x12, 0x14, 0x15, 0x50, 0x51, 0x52].contains c.op.toNat

/-- The line images of a raw strip as (address, length) (R123). -/
def Strip.images (t : Strip) : List (Nat × Nat) :=
  (List.range t.lines).map fun i => (t.addr + i * t.stride, lineBytes t.words)

/-- The stream ashlars of a compressed strip, in the order of the stream (R108). -/
def Strip.streamAshlars (t : Strip) : List Nat :=
  extentAshlars t.extents

/-- Two byte ranges share a byte. -/
def overlap (a la b lb : Nat) : Bool := decide (a < b + lb) && decide (b < a + la)

namespace State

/-! ### Heartbeats -/

/-- A heartbeat of a host: the time of the last one moves, and a LATE host is ATTACHED again (R39, R40). -/
def beat (s : State) (h : HostId) : State :=
  match s.hosts[h].st with
  | .attached => s.updHost h fun r => { r with lastHb := s.time }
  | .late => (s.updHost h fun r => { r with lastHb := s.time, st := .attached }).raiseHost h
  | _ => s

/-! ### What a command touches -/

/-- Ashlars that a command touches (R85, R89): a compressor's are those of its strip and those that it has taken. -/
def cmdAshlars (s : State) (c : Cmd) : List Nat :=
  if c.movesRange then s.raster.touched (c.range).1 (c.range).2
  else if c.op = 0x11 then (List.range (c.p 1)).map fun k => c.p 0 + k
  else if c.compresses then
    c.out.taken ++ (match s.findStrip c.strip with
      | some t => t.streamAshlars ++ t.index
      | none => [])
  else []

/-- The bursts that a range touches. -/
def rangeBursts (a len : Nat) : List Nat := burstsFrom (a / 64 * 64) ((a + len + 63) / 64 * 64)

/-- An ashlar lies whole inside a range (R93). -/
def wholeIn (s : State) (a len n : Nat) : Bool :=
  decide (a ≤ s.raster.ashlarBase n) && decide (s.raster.ashlarBase n + 65536 ≤ a + len)

/-- Data of the ashlar lies in DRAM, or will once a fill has ended. -/
def stored (s : State) (n : Nat) : Bool := s.raster.isWritten n || s.raster.isFilling n

/-- Channels whose DRAM a command needs (R77, R90, R93). -/
def neededChans (s : State) (c : Cmd) : List ChanId :=
  let (a, len) := c.range
  let of (bs : List Nat) : List ChanId := s.chansInUse.filter fun k => bs.any fun b => s.raster.chanOf b == k
  match c.op.toNat with
  | 0x12 | 0x50 | 0x52 =>
    if (s.cmdAshlars c).all s.stored then of (rangeBursts a len) else s.chansInUse
  | 0x14 | 0x51 => of ((rangeBursts a len).filter fun b => s.stored (s.raster.ashlar b))
  | 0x15 =>
    of ((rangeBursts a len).filter fun b =>
      s.stored (s.raster.ashlar b) && !s.wholeIn a len (s.raster.ashlar b))
  | 0x13 | 0x25 => s.chansInUse
  | 0x16 => match s.findStrip (c.p 0) with
    | some t => if t.sealed then [] else s.chansInUse
    | none => []
  | 0x40 | 0x41 => [Fin.ofNat 2 (c.f 0 0 1)]
  | 0x44 => [(0 : ChanId), 1].filter fun k => c.f 0 k.val 1 == 1
  | _ => []

/-- The command is served only with the DRAM out of self-refresh (R306). -/
def needsDram (s : State) (c : Cmd) : Bool := c.op == 0x51 || s.neededChans c != []

/-- The requester or the migrator that a command needs is disabled (R312). RANK_REINSTATE needs no migrator (R357), and arming an
injection presents no transfer (R340). -/
def requesterOff (s : State) (c : Cmd) : Bool :=
  match c.op.toNat with
  | 0x40 => !s.takesPart 10
  | _ => if c.op = 0x52 ∧ c.f 5 0 1 = 1 then false else match c.requester with
    | some r => s.neededChans c != [] && !s.takesPart r
    | none => false

/-- An ashlar holds data of a strip: of its stream or index, or a byte of a line image (R89, R108, R123). -/
def stripHolds (s : State) (t : Strip) (n : Nat) : Bool :=
  if t.raw then t.images.any fun x => (s.raster.touched x.1 x.2).contains n
  else t.streamAshlars.contains n || t.index.contains n

/-- The strips that exist. -/
def liveStrips (s : State) : List Strip := s.strips.filter (·.live)

/-- A command that would free or write raster of a strip is refused: FREE_ASHLARS of data of a strip (R74, R89), WRITE_RAW
and ZERO on a compressed strip or on a raw strip that a page references (R74, R105). -/
def stripCheck (s : State) (c : Cmd) : Option Answer :=
  match c.op.toNat with
  | 0x11 =>
    let ts := s.liveStrips.filter fun t => (s.cmdAshlars c).any (s.stripHolds t)
    if ts.any fun t => s.stripInUse t.handle then some { status := .resourceConflict, detail := 0x09 }
    else if ts ≠ [] then some { status := .invalidField, detail := 0x8008 }
    else none
  | 0x12 | 0x15 =>
    let (a, len) := c.range
    if s.liveStrips.any fun t => !t.raw && (s.cmdAshlars c).any (s.stripHolds t) then
      some { status := .invalidField, detail := 0x8010 }
    else if s.liveStrips.any fun t =>
        t.raw && s.stripInUse t.handle && t.images.any fun x => overlap x.1 x.2 a len then
      some { status := .resourceConflict, detail := 0x09 }
    else none
  | _ => none

/-- The last part of step 8 of R65 that is common to the commands on DRAM: quench (R77), an orderly stop
(R380), then the requester (R312). -/
def dramCheck (s : State) (c : Cmd) : Option Answer :=
  if (s.neededChans c).any s.chanQuenched then some { status := .quenched }
  else if s.clk.stopped && s.needsDram c then some { status := .resourceConflict }
  else if s.requesterOff c then some { status := .resourceConflict } else none

/-! ### What a started command waits for -/

/-- An earlier started command of a test is in flight. -/
def behind (s : State) (c : Cmd) (test : Cmd → Bool) : Bool :=
  s.cmds.any fun x => x.isStarted && decide (x.started < c.started) && test x

/-- The DRAM takes the requests of a command now: every channel in use is in service, but for one that the command does not
need and that trains, is quenched, or has its domain off (R304, R307, R361). -/
def dramServes (s : State) (c : Cmd) : Bool :=
  s.chansInUse.all fun k =>
    let st := s.chans[k].st
    st == .service || ((st == .training || st == .quenched || st == .domainOff) && !(s.neededChans c).contains k)

/-- A started command still waits: for a fill by another command (R92), for the commands on ashlars that it frees (R89), for
an earlier command on its strip (R114) or its bank (R151), for ranks that train or domains that switch (R307, R357, R394), or
for the DRAM (R304, R307). -/
def mustWait (s : State) (c : Cmd) : Bool :=
  let mine := s.cmdAshlars c
  mine.any s.raster.isFilling ||
    (c.op == 0x11 && s.behind c fun x => (s.cmdAshlars x).any mine.contains) ||
    ((c.op == 0x16 || c.op == 0x17 || c.op == 0x19) && s.behind c fun x => x.strip == c.strip) ||
    (c.op == 0x20 && s.behind c fun x => x.op == 0x20 && x.f 0 0 1 == c.f 0 0 1 && x.f 0 8 1 == c.f 0 8 1) ||
    ((c.op == 0x41 || (c.op == 0x44 && c.f 0 8 1 == 1)) && (s.neededChans c).any fun k => s.chans[k].service.isSome) ||
    (c.op == 0x45 && s.power.todo != []) ||
    (c.op == 0x55 && c.f 0 0 8 == 1 && (s.comps[(Fin.ofNat 8 (c.f 0 8 8))].test).isSome) || (s.needsDram c && !s.dramServes c)

/-! ### When the DRAM must rest (R304, R380, R382, R393, R406) -/

/-- A started command needs a domain that is to be switched off (R394). -/
def busyDomain (s : State) (d : DomainId) : Bool :=
  s.cmds.any fun c => c.isStarted &&
    match d.val with
    | 3 | 4 | 5 => c.requester.isSome
    | 6 | 7 =>
      (c.op == 0x31 && s.partLinks.any fun n => c.mask.getLsbD n.val && linkDomain n == d) ||
        (c.op == 0x35 && c.f 0 9 1 == 0 && linkDomain (Fin.ofNat 32 (c.f 0 0 5)) == d)
    | _ => false

/-- A domain is off, or its switch-off is next and nothing in progress needs it any more. -/
def domainLeaves (s : State) (d : DomainId) : Bool :=
  !s.power.on.getLsbD d.val || (s.power.todo.head? == some (d, false) && !s.busyDomain d)

/-- A change of a loop that has not locked keeps every channel in self-refresh (R382). -/
def changeHolds (s : State) : Bool := (s.clk.change.map fun ch => !ch.locked) == some true

/-- An orderly stop or a thermal stop has run (R380, R406). -/
def stopRan (s : State) : Bool := s.clk.stopped || s.power.thermalStop

/-- The channel must go into self-refresh or stay there, for another reason than idleness. DEDUCED: in the two-channel map the loss
of one channel's domain takes the other there too, since no course runs on it (R18, R178, log entry 110). -/
def mustRest (s : State) (c : ChanId) : Bool :=
  s.stopRan || s.changeHolds || s.domainLeaves 5 || (c :: s.chansInUse).any fun k => s.domainLeaves (memDomain k)

/-- MEM has locked at a new speed, and the ranks are to be trained (R382 step 6). -/
def speedDue (s : State) : Bool := (s.clk.change.map fun ch => ch.loop == 1 && ch.locked) == some true

/-- A channel moves as it must: out of service toward self-refresh, or out of self-refresh when nothing keeps it there. -/
def steerChan (s : State) (ch : Chan) (c : ChanId) : Chan :=
  match ch.st with
  | .service => if s.mustRest c then { ch with st := .quiesce } else ch
  | .selfRefresh =>
    if !s.stopRan && (s.speedDue || (!s.mustRest c && !s.sr.idle)) then { ch with st := .exiting } else ch
  | _ => ch

/-- Every channel in use moves as it must. -/
def steer (s : State) : State :=
  { s with chans := Vector.ofFn fun c : Fin 2 => if s.inUse c then s.steerChan s.chans[c] c else s.chans[c] }

/-- Write a SELF_REFRESH entry for a channel (R309): 1 entry, 2 cancelled, 3 exit. -/
def logSelfRefresh (s : State) (c : ChanId) (what : Nat) : State :=
  s.logErr 0x0B09 255 [fld 12 1 c.val, fld 13 1 0xFF, fld 14 1 0xFF, fld 15 1 what]

/-- A request needs DRAM (R304): an entry for idleness is cancelled in QUIESCE, is followed by exit in the SRE-issued phase,
and self-refresh is left at once. Other entries cannot be cancelled. -/
def wantDram (s : State) : State :=
  if !s.sr.idle then s
  else if s.chansInUse.any fun k => s.chans[k].st == .sreIssued then { s with sr := { s.sr with wanted := true } }
  else
    let s1 : State := { s with sr := { s.sr with idle := false, idleFrom := s.time } }
    let back := s.chansInUse.filter fun k => s.chans[k].st == .quiesce && !s.mustRest k
    if back = [] then s1.steer
    else
      let s2 := { s1 with sr := { s1.sr with aborts := satAdd 0xFFFF s1.sr.aborts 1 } }
      (back.foldl (fun acc k => (acc.updChan k fun ch => { ch with st := .service }).logSelfRefresh k 2) s2).steer

/-- What a started command that has waited is refused with: quench and a stop of the device end it too (R77, R380, R406). -/
def waitCheck (s : State) (c : Cmd) : Option Answer :=
  if (s.neededChans c).any s.chanQuenched then some { status := .quenched }
  else if s.stopRan && s.needsDram c then
    some { status := .resourceConflict, detail := if s.power.thermalStop then 0x10 else 0 }
  else none

/-- Run a started command's own meaning, unless it still has to wait. -/
def resume (s : State) (body : Cmd → State → State) (id : Nat) : State :=
  match s.findCmd id with
  | none => s
  | some c => match s.waitCheck c with
    | some a => s.finish id a
    | none =>
      let s1 := if s.needsDram c && !s.dramServes c then s.wantDram else s
      if s1.mustWait c then s1 else body c (s1.updCmd id fun x => { x with prog := .event })

/-- Start a command: steps 2 to 8 of R65, then its own meaning. -/
def start (s : State) (body : Cmd → State → State) (c : Cmd) : State :=
  match s.checkCmd c with
  | some a => s.finish c.id a
  | none => match (s.stripCheck c).or (s.dramCheck c) with
    | some a => s.finish c.id a
    | none =>
      let s1 := s.updCmd c.id fun x => { x with prog := .held, started := s.nextId }
      { s1 with nextId := s.nextId + 1 }.resume body c.id

/-- Fetch a packet and, when its turn has come, start it (R54, R57, R58, R61 to R63, R65). A HEARTBEAT counts when its packet
is fetched and passes the CRC checks (R39). -/
def submit (s : State) (op : Byte) (body : Cmd → State → State) (i : Issue) : State :=
  if s.canFetch i.host i.queue then
    let c := s.mkCmd op i
    let s1 := s.fetched op i
    match crcError s op i with
    | some d => s1.fail c.id .packetCrc d
    | none =>
      let s2 := if op = 0x07 then s1.beat i.host else s1
      if s2.orderReady c then s2.start body c else s2
  else s

end State

end Sys2Proof.Machine
end

