-- ==== Sys2Proof/Machine/Session.lean ====
section
/-! DEFINITION. The commands of session, roles and features (R25 to R42, R69 to R71). -/

namespace Sys2Proof.Machine

/-- A string of `n` bytes with fields at offsets; bytes that no field names are 0 (R70). -/
def layout (n : Nat) (fs : List (Nat × List Byte)) : List Byte :=
  (List.range n).map fun i =>
    (fs.findSome? fun f => if f.1 ≤ i then f.2[i - f.1]? else none).getD 0

/-- The 64 bytes of a log entry (R71). -/
def LogEntry.bytes (e : LogEntry) : List Byte :=
  leBytes 8 e.time ++ leBytes 2 e.type ++ [BitVec.ofNat 8 e.host, BitVec.ofNat 8 e.merged] ++ leBytes 52 e.body.toNat

/-- A host number, or a value for none. -/
def hostOr (none_ : Nat) (h : Option HostId) : Nat :=
  match h with
  | some x => x.val
  | none => none_

/-- The code of a right (R69). -/
def Right.code : Right → Nat
  | .none => 0 | .read => 1 | .readWrite => 2

/-- The right of a code. -/
def Right.of : Nat → Right
  | 1 => .read | 2 => .readWrite | _ => .none

/-- Settings without the marks of commands loaded. -/
def Ks.values (k : Ks) : Ks := { k with webSet := false, waveSet := 0 }

namespace State

/-! ### What is pending -/

/-- Some KS shadow differs from the value in force (KEYSTONE_STATUS.SHADOWS_PENDING). -/
def shadowsPending (s : State) : Bool := s.ks.shadow.values != s.ks.force.values

/-- The shadow bank of a channel would qualify at a keystone (R174). -/
def bankQualifies (s : State) (c : ChanId) : Bool :=
  s.inUse c && (s.chans[c].banks[(s.chans[c].active + 1 : Fin 2)]).loaded

/-- RESULT1 of CLAIM_STEWARD and RELEASE_STEWARD (R32). -/
def pendingBits (s : State) : Nat :=
  (if s.shadowsPending then 1 else 0) + (if s.bankQualifies 0 || s.bankQualifies 1 then 2 else 0)

/-! ### IDENTIFY (R70) -/

/-- The part's device identity and state: page 0. -/
def identify0 (s : State) (h : HostId) : List (Nat × List Byte) :=
  [(0, leBytes 2 0x1F7B), (2, leBytes 2 s.part.deviceId.toNat), (4, [0x01]),
    (5, [BitVec.ofNat 8 h.val, BitVec.ofNat 8 s.part.ports, BitVec.ofNat 8 s.part.links]),
    (8, [BitVec.ofNat 8 s.part.channels, BitVec.ofNat 8 s.part.links,
      BitVec.ofNat 8 (s.comps.toList.filter (·.inService)).length]),
    (12, leBytes 8 Config.serial.toNat), (20, leBytes 4 6656),
    (24, [BitVec.ofNat 8 s.boot.stage, BitVec.ofNat 8 s.boot.cause, BitVec.ofNat 8 s.boot.fails,
      BitVec.ofNat 8 (hostOr 0xFF s.role.holder)]),
    (28, leBytes 2 64), (30, leBytes 2 s.part.inFlight)]

/-- Page 1, a channel's record (R97). -/
def identifyChan (s : State) (c : ChanId) : List Byte :=
  let ch := s.chans[c]
  let ranks := List.finRange 4
  if c.val < s.part.channels then
    leBytes 2 ch.mts ++
      [BitVec.ofNat 8 (ranks.filter fun r => ch.ranks[r].st ≠ .notFitted).length, BitVec.ofNat 8 s.raster.density,
        BitVec.ofNat 8 (((ranks.find? fun r => ch.ranks[r].st = .spare).map (·.val)).getD 0xFF),
        BitVec.ofNat 8 ((ranks.filter fun r => ch.ranks[r].st = .retired).map fun r => 2 ^ r.val).sum,
        if s.chanQuenched c then 1 else 0, if ch.mts = 0 then 0 else 1] ++
      leBytes 4 (if s.inUse c then s.raster.validCount else 0)
  else []

/-- Page 1, DRAM. -/
def identify1 (s : State) : List (Nat × List Byte) :=
  [(0, s.identifyChan 0), (16, s.identifyChan 1), (64, leBytes 4 s.raster.ranges.length),
    (68, (s.raster.ranges.map fun x => leBytes 4 x.1 ++ leBytes 4 x.2).flatten)]

/-- The effective FRAME_LEAD of a link, in symbols (R239). -/
def frameLead (s : State) (n : LinkId) : Nat := max s.ks.force.link[n].frameLead.toNat s.links[n].board.minFrameLead

/-- Page 2, links. -/
def identify2 (s : State) : List (Nat × List Byte) :=
  s.partLinks.map fun n =>
    let l := s.links[n]
    (32 * n.val, [BitVec.ofNat 8 l.st.code, BitVec.ofNat 8 l.rate.val, 0, 0] ++ leBytes 4 l.lat ++
      leBytes 2 (s.frameLead n) ++ [0, 0] ++ dwordBytes l.board.identity)

/-- A complete image is staged (R79): its last piece has come, and every byte below its end. -/
def staged (s : State) : Bool := s.boot.stagedAll && s.boot.staged != [] && s.boot.staged.all fun x => x.isSome

/-- Page 3, firmware. -/
def identify3 (s : State) : List (Nat × List Byte) :=
  [(0, [if s.boot.slotB then 1 else 0, Config.romVersion]), (4, dwordBytes (s.boot.versionA.getD 0)),
    (8, dwordBytes (s.boot.versionB.getD 0)),
    (12, [BitVec.ofNat 8 ((if s.staged then 1 else 0) + (if s.boot.fellBack then 2 else 0))])]

/-- The fields of an IDENTIFY page. -/
def identifyPage (s : State) (h : HostId) : Nat → List (Nat × List Byte)
  | 0 => s.identify0 h
  | 1 => s.identify1
  | 2 => s.identify2
  | _ => s.identify3

/-! ### Roles -/

/-- The device enters RUNNING when the first claim after READY completes (R399). -/
def enterRunning (s : State) : State :=
  if s.boot.stage = 6 then s.updBoot fun b => { b with stage := 7, runningFrom := some s.time } else s

/-- Retirements that waited for a steward start now if their conditions still hold (R348). -/
def dueRetirements (s : State) : State :=
  [(0 : ChanId), 1].foldl
    (fun acc c => match acc.chans[c].mig.due with
      | none => acc
      | some r =>
        let k := acc.chans[c].ranks[r]
        let a1 := acc.updMig c fun m => { m with due := none }
        match acc.freeSpare c with
        | some t =>
          if acc.ks.force.integ.getLsbD 31 && !acc.migrating c &&
              (k.health == .retireDue || k.health == .failing) && (k.st == .inService || k.st == .degraded) then
            a1.startMigration c r t
          else a1
        | none => a1) s

/-- A claim that succeeds: the role moves, the claim completes with the previous steward and what is pending (R32), and what
was held for the next steward is delivered (R47). -/
def takeRole (s : State) (id : Nat) (h : HostId) : State :=
  let prev := hostOr 0xFF s.role.previous
  let s1 : State := { s with role := { s.role with holder := some h } }
  (((s1.succeed id prev s1.pendingBits).enterRunning).deliverHeld h).dueRetirements

/-- The partition that ATTACH gives a host, with whether it was the host's own or reserved for it (R45). DESIGN CHOICE: of several the
lowest that it owns, then the lowest reserved for it (log entry 116). -/
def choosePartition (s : State) (h : HostId) : Option (Fin 16 × Bool) :=
  match (List.finRange 16).find? fun p => s.parts[p].owner = some h with
  | some p => some (p, true)
  | none => match (List.finRange 16).find? fun p => s.parts[p].reserved = some h with
    | some p => some (p, true)
    | none =>
      ((List.finRange 16).find? fun p =>
        s.parts[p].owner = none && s.parts[p].reserved = none && s.raster.held p == 0).map fun p => (p, false)

/-! ### Features (R69) -/

/-- The hottest rank's last reading in degrees C, of a channel (R308). -/
def hottest (s : State) (c : ChanId) : Nat :=
  ((s.chans[c].ranks.toList.filter fun r => r.st ≠ .notFitted && r.st ≠ .failed).map (·.temp)).foldl max 0

/-- RESULT0 and RESULT1 of GET_FEATURE. -/
def featureValue (s : State) (h : HostId) (f i : Nat) : Nat × Nat :=
  let p := s.parts[Fin.ofNat 16 i]
  match f with
  | 1 => (s.role.eligible.toNat, 0)
  | 2 => (hostOr 0xFF p.owner + 256 * hostOr 0xFF p.reserved, s.raster.held (Fin.ofNat 16 i))
  | 3 => (((List.finRange 4).map fun k : HostId => p.grants[k].code * 4 ^ k.val).sum, 0)
  | 4 => (s.hosts[Fin.ofNat 4 i].hbTimeout, 0)
  | 5 => (if s.hosts[Fin.ofNat 4 i].autoFence then 1 else 0, 0)
  | 6 => (((List.finRange 4).map fun k : HostId => s.hosts[k].st.code * 16 ^ k.val).sum +
      2 ^ 16 * hostOr 0xFF s.role.holder, 0)
  | 7 => (if s.hosts[h].requireCrc then 1 else 0, 0)
  | 8 => ((s.power.dieTemp.signExtend 32).toNat,
      max (s.hottest 0) (s.hottest 1) % 256 + (if s.chans[(0 : ChanId)].hot || s.chans[(1 : ChanId)].hot then 256 else 0))
  | _ => (s.boot.stage + 256 * s.boot.cause + 2 ^ 16 * s.boot.fails, 0)

/-- The previous value of P1 that SET_FEATURE returns: what GET_FEATURE reports, in P1's own layout (R68). -/
def featureOld (s : State) (c : Cmd) : Nat :=
  let i := c.f 0 16 8
  match c.f 0 0 16 with
  | 2 => hostOr 0xFF s.parts[Fin.ofNat 16 i].owner
  | 3 =>
    let k : HostId := Fin.ofNat 4 (c.f 1 0 2)
    k.val + 256 * (s.parts[Fin.ofNat 16 i].grants[k]).code
  | f => (s.featureValue c.host f i).1

/-- Put a feature's value into force. DESIGN CHOICE: a grant to the present owner is stored, has no effect while that host owns the
partition, and takes effect once another does (R38, log entry 115). -/
def setFeature (s : State) (c : Cmd) : State :=
  let i := c.f 0 16 8
  let v := c.p 1
  match c.f 0 0 16 with
  | 1 => { s with role := { s.role with eligible := BitVec.ofNat 4 v } }
  | 2 => { s with parts := vmod s.parts (Fin.ofNat 16 i) fun p =>
      { p with owner := if v = 0xFF then none else some (Fin.ofNat 4 v), reserved := none } }
  | 3 => { s with parts := vmod s.parts (Fin.ofNat 16 i) fun p =>
      { p with grants := vset p.grants (Fin.ofNat 4 v) (Right.of (v / 256)) } }
  | 4 => s.updHost (Fin.ofNat 4 i) fun r => { r with hbTimeout := v }
  | 5 => s.updHost (Fin.ofNat 4 i) fun r => { r with autoFence := v == 1 }
  | 7 => s.updHost c.host fun r => { r with requireCrc := v == 1 }
  | _ => s

/-! ### Heartbeat deadlines (R40) -/

/-- So many HB_TIMEOUT have passed since the host's last heartbeat. -/
def silent (s : State) (h : HostId) (times : Nat) : Bool :=
  decide (times * s.hosts[h].hbTimeout * Config.msTau ≤ s.time - s.hosts[h].lastHb)

/-- The host is fenced when its second deadline passes: its AUTO_FENCE bit is 1 or it is the steward (R40, R41). -/
def expires (s : State) (h : HostId) : Bool := s.hosts[h].autoFence || s.isSteward h

/-- An ATTACHED host becomes LATE. -/
def becomeLate (s : State) (h : HostId) : State := (s.updHost h fun r => { r with st := .late }).raiseHost h

/-- Judge a host against a new HB_TIMEOUT at once (R40). -/
def judge (s : State) (h : HostId) : State :=
  match s.hosts[h].st with
  | .attached => if s.silent h 1 then s.becomeLate h else s
  | .late =>
    if !s.silent h 1 then (s.updHost h fun r => { r with st := .attached }).raiseHost h
    else if s.silent h 2 && s.expires h then s.fence h 2 0xFF else s
  | _ => s

end State

/-! ### Meanings -/

/-- NOP completes (R67). -/
def bodyNop (c : Cmd) (s : State) : State := s.succeed c.id

/-- IDENTIFY writes a page of 4,096 bytes and completes (R70). -/
def bodyIdentify (c : Cmd) (s : State) : State :=
  (s.emit (.hostWrite c.host (c.hostAddr 1) (layout 4096 (s.identifyPage c.host (c.f 0 0 8))))).succeed c.id 4096

/-- The entries of one of the four logs (R68). -/
def Logs.get (l : Logs) : Nat → List LogEntry
  | 0 => l.error
  | 1 => l.ecc
  | 2 => l.course
  | _ => l.dump

/-- Replace one of the four logs. -/
def Logs.put (l : Logs) (k : Nat) (es : List LogEntry) : Logs :=
  match k with
  | 0 => { l with error := es }
  | 1 => { l with ecc := es }
  | 2 => { l with course := es }
  | _ => { l with dump := es }

/-- GET_LOG returns entries from an index on and, with CLEAR, removes those (R71). -/
def bodyGetLog (c : Cmd) (s : State) : State :=
  let es := s.logs.get (c.f 0 0 8)
  let out := (es.drop (c.p 1)).take (c.p 4 / 64)
  let s1 := if out = [] then s else s.emit (.hostWrite c.host (c.hostAddr 2) (out.map LogEntry.bytes).flatten)
  if c.f 0 8 1 = 1 then
    let left := es.take (c.p 1) ++ es.drop (c.p 1 + out.length)
    { s1 with logs := s1.logs.put (c.f 0 0 8) left }.succeed c.id out.length left.length
  else s1.succeed c.id out.length es.length

/-- SET_FEATURE (R33, R36, R38 to R40, R69). Ownership never moves away from a live contributor. -/
def bodySetFeature (c : Cmd) (s : State) : State :=
  let old := s.featureOld c
  let p := s.parts[Fin.ofNat 16 (c.f 0 16 8)]
  let live : Bool := match p.owner with
    | some o => s.attached o && !s.isSteward o
    | none => false
  if c.f 0 0 16 = 2 ∧ live = true then s.fail c.id .resourceConflict
  else
    let s1 := (s.setFeature c).succeed c.id old
    if c.f 0 0 16 = 4 then s1.judge (Fin.ofNat 4 (c.f 0 16 8)) else s1

/-- GET_FEATURE (R69). -/
def bodyGetFeature (c : Cmd) (s : State) : State :=
  let v := s.featureValue c.host (c.f 0 0 16) (c.f 0 16 8)
  s.succeed c.id v.1 v.2

/-- ATTACH (R25, R45). -/
def bodyAttach (c : Cmd) (s : State) : State :=
  if s.attached c.host then s.fail c.id .invalidField 0x01
  else match s.choosePartition c.host with
    | none => s.fail c.id .resourceConflict 0x02
    | some (p, own) =>
      let s1 : State := { s with parts := vmod s.parts p fun x => { x with owner := some c.host } }
      let s2 := s1.updHost c.host fun r => { r with st := .attached, lastHb := s.time }
      (s2.succeed c.id (c.host.val + 256 * p.val + (if own then 2 ^ 16 else 0)) (s.raster.held p)).raiseHost c.host

/-- DETACH releases the role and leaves the host LINKED; its partition stays reserved for it, and its grants stay (R26). -/
def bodyDetach (c : Cmd) (s : State) : State :=
  ((((s.vacate c.host).reserve c.host).updHost c.host fun r => { r with st := .linked, ignored := 0 }).succeed c.id).raiseHost c.host

/-- HEARTBEAT: the beat has counted at the fetch (R39); the host's HB_TIMEOUT is returned. -/
def bodyHeartbeat (c : Cmd) (s : State) : State := s.succeed c.id s.hosts[c.host].hbTimeout

/-- CLAIM_STEWARD, decided in the order of R30. -/
def bodyClaimSteward (c : Cmd) (s : State) : State :=
  if s.isSteward c.host then s.succeed c.id (hostOr 0xFF s.role.previous) s.pendingBits
  else if !s.role.eligible.getLsbD c.host.val then s.fail c.id .notSteward 0x05
  else match s.role.holder with
    | none => s.takeRole c.id c.host
    | some old =>
      if c.f 0 0 1 = 0 then s.fail c.id .resourceConflict 0x03
      else if s.hosts[old].st ≠ .late then s.fail c.id .resourceConflict 0x04
      else (s.fence old 3 c.host.val).takeRole c.id c.host

/-- RELEASE_STEWARD makes the role vacant (R34). -/
def bodyReleaseSteward (c : Cmd) (s : State) : State :=
  ((s.vacate c.host).succeed c.id 0 s.pendingBits).raiseHost c.host

/-- FENCE_HOST (R34, R41, R42). -/
def bodyFenceHost (c : Cmd) (s : State) : State :=
  let t : HostId := Fin.ofNat 4 (c.f 0 0 2)
  if t = c.host then s.fail c.id .invalidField 0x06
  else if !s.attached t then s.fail c.id .notAttached 0x07
  else (s.fence t 1 c.host.val).succeed c.id (s.hostFlight t)

/-! ### Rows of the table -/

/-- NOP. -/
def execNop (c : Issue) (s : State) : Host.Outcome State Fault Refusal := .next (s.submit 0x00 bodyNop c)

/-- IDENTIFY. -/
def execIdentify (c : Issue) (s : State) : Host.Outcome State Fault Refusal := .next (s.submit 0x01 bodyIdentify c)

/-- GET_LOG. -/
def execGetLog (c : Issue) (s : State) : Host.Outcome State Fault Refusal := .next (s.submit 0x02 bodyGetLog c)

/-- SET_FEATURE. -/
def execSetFeature (c : Issue) (s : State) : Host.Outcome State Fault Refusal := .next (s.submit 0x03 bodySetFeature c)

/-- GET_FEATURE. -/
def execGetFeature (c : Issue) (s : State) : Host.Outcome State Fault Refusal := .next (s.submit 0x04 bodyGetFeature c)

/-- ATTACH. -/
def execAttach (c : Issue) (s : State) : Host.Outcome State Fault Refusal := .next (s.submit 0x05 bodyAttach c)

/-- DETACH. -/
def execDetach (c : Issue) (s : State) : Host.Outcome State Fault Refusal := .next (s.submit 0x06 bodyDetach c)

/-- HEARTBEAT. -/
def execHeartbeat (c : Issue) (s : State) : Host.Outcome State Fault Refusal := .next (s.submit 0x07 bodyHeartbeat c)

/-- CLAIM_STEWARD. -/
def execClaimSteward (c : Issue) (s : State) : Host.Outcome State Fault Refusal :=
  .next (s.submit 0x08 bodyClaimSteward c)

/-- RELEASE_STEWARD. -/
def execReleaseSteward (c : Issue) (s : State) : Host.Outcome State Fault Refusal :=
  .next (s.submit 0x09 bodyReleaseSteward c)

/-- FENCE_HOST. -/
def execFenceHost (c : Issue) (s : State) : Host.Outcome State Fault Refusal := .next (s.submit 0x0A bodyFenceHost c)

end Sys2Proof.Machine
end

