-- ==== Sys2Proof/Machine/RasterCmds.lean ====
section
/-! DEFINITION. The commands of raster memory: allocation (R88, R89), WRITE_RAW, READ and ZERO (R90 to R104), and the host
data of a write (R22, R101). -/

namespace Sys2Proof.Machine

/-! ### Allocation -/

/-- The gaps between ascending numbers from `lo` up to `hi`, as (start, length). -/
def gapsOf : List Nat → Nat → Nat → List (Nat × Nat)
  | [], lo, hi => [(lo, hi - lo)]
  | a :: as, lo, hi => (lo, a - lo) :: gapsOf as (a + 1) hi

/-- One number in turn from each list, lists that have run out being skipped, until so many are taken (R88). -/
def takeTurns : Nat → Nat → List (List Nat) → List Nat
  | 0, _, _ => []
  | fuel + 1, n, ls =>
    let heads := (ls.filterMap List.head?).take n
    if heads = [] then [] else heads ++ takeTurns fuel (n - heads.length) (ls.map List.tail)

namespace State

/-- Free runs of ashlar numbers inside a range, ascending. -/
def freeRuns (s : State) (first count : Nat) : List (Nat × Nat) :=
  gapsOf ((s.raster.alloc.map (·.1)).filter fun n => decide (first ≤ n) && decide (n < first + count)) first
    (first + count)

/-- The lowest run of so many free ashlars inside one valid range (R88). -/
def findRun (s : State) (n : Nat) : Option Nat :=
  s.raster.ranges.findSome? fun x => ((s.freeRuns x.1 x.2).find? fun g => n ≤ g.2).map (·.1)

/-- The lowest so many free ashlars of a logical rank. -/
def freeOfRank (s : State) (l n : Nat) : List Nat :=
  (((s.freeRuns (s.raster.rankFirst l) s.raster.rankAshlars).map fun g =>
    (List.range (min n g.2)).map fun k => g.1 + k).flatten).take n

/-- The ashlars that a scattered allocation takes: one in turn from each valid logical rank (R88). -/
def findScattered (s : State) (n : Nat) : List Nat :=
  takeTurns n n (((List.finRange 4).filter s.raster.rankValid).map fun l => s.freeOfRank l.val n)

/-- Give ashlars to a partition. -/
def allocate (s : State) (p : Fin 16) (ns : List Nat) : State :=
  s.updRaster fun r => { r with alloc := ns.foldl (fun acc n => Raster.insertAlloc acc n p) r.alloc }

end State

/-- ALLOC_ASHLARS (R88). -/
def bodyAllocAshlars (c : Cmd) (s : State) : State :=
  if c.f 1 0 1 = 1 then
    match s.findRun (c.p 0) with
    | none => s.fail c.id .resourceConflict 0x0A
    | some first =>
      let s1 := s.allocate c.part ((List.range (c.p 0)).map fun k => first + k)
      s1.succeed c.id first (s1.raster.held c.part)
  else
    let ns := s.findScattered (c.p 0)
    if ns.length < c.p 0 then s.fail c.id .resourceConflict 0x0A
    else
      let s1 := s.allocate c.part ns
      let sorted := ns.foldl Raster.insertNat []
      (s1.emit (.hostWrite c.host (c.hostAddr 2) (sorted.map (leBytes 4)).flatten)).succeed c.id 0
        (s1.raster.held c.part)

/-- FREE_ASHLARS, once the commands that it waited for have completed: each ashlar is free and unwritten (R89). DEDUCED: what
the rule asks of the ashlars is asked again after the wait, in which they can have passed to a strip or to another partition
(log entry 100). -/
def bodyFreeAshlars (c : Cmd) (s : State) : State :=
  let mine (n : Nat) : Bool := decide (c.p 0 ≤ n) && decide (n < c.p 0 + c.p 1)
  match if (s.cmdAshlars c).all fun n => s.raster.holder n == some c.part then s.stripCheck c
      else some { status := .partitionViolation, detail := 0x0B } with
  | some a => s.finish c.id a
  | none =>
    let s1 := s.updRaster fun r => { r with
      alloc := r.alloc.filter fun x => !mine x.1
      written := r.written.filter fun n => !mine n }
    s1.succeed c.id 0 (s1.raster.held c.part)

/-! ### Moving raster -/

/-- A writing command with host data begins: unwritten ashlars of its range fill, and so many bytes are to come (R91,
R101). -/
def beginWrite (c : Cmd) (a len bytes : Nat) (s : State) : State :=
  let lo := s.rangeLo a
  let hi := s.rangeHi (a + len - 1)
  let s1 := (s.beginFills c.id (s.raster.touched a len)).updCmd c.id fun x =>
    { x with prog := .source bytes, next := lo, stop := hi }
  s1.handOut c.id

/-- WRITE_RAW begins (R101). -/
def bodyWriteRaw (c : Cmd) (s : State) : State := beginWrite c (c.raster 2) (c.p 4) (c.p 4) s

/-- A reading command begins: bursts in written ashlars are read, the others are zeros (R90, R104). -/
def beginRead (c : Cmd) (a len : Nat) (s : State) : State :=
  let lo := a / 64 * 64
  let hi := (a + len + 63) / 64 * 64
  let bs := (State.burstsFrom lo hi).filter fun b => s.raster.isWritten (s.raster.ashlar b)
  ((s.updCmd c.id fun x => { x with
    prog := .raster, next := lo, stop := hi, todo := bs.map fun b => ⟨b, .read⟩ }).present).progress c.id

/-- READ begins (R104). -/
def bodyRead (c : Cmd) (s : State) : State := beginRead c (c.raster 2) (c.p 4) s

/-- ZERO: map bits of whole ashlars are cleared, covered bytes of other written ashlars are written with zeros, and
unwritten ashlars stay as they are (R93). -/
def bodyZero (c : Cmd) (s : State) : State :=
  let a := c.raster 2
  let len := c.p 4
  let bs := (State.rangeBursts a len).filter fun b =>
    s.raster.isWritten (s.raster.ashlar b) && !s.wholeIn a len (s.raster.ashlar b)
  let s1 := s.updRaster fun r => { r with
    written := r.written.filter fun n => !((r.touched a len).contains n && s.wholeIn a len n) }
  ((s1.updCmd c.id fun x => { x with
    prog := .raster, todo := bs.map fun b => ⟨b, s.burstKind c b⟩ }).present).progress c.id

/-! ### Rows of the table -/

/-- ALLOC_ASHLARS. -/
def execAllocAshlars (c : Issue) (s : State) : Host.Outcome State Fault Refusal :=
  .next (s.submit 0x10 bodyAllocAshlars c)

/-- FREE_ASHLARS. -/
def execFreeAshlars (c : Issue) (s : State) : Host.Outcome State Fault Refusal :=
  .next (s.submit 0x11 bodyFreeAshlars c)

/-- WRITE_RAW. -/
def execWriteRaw (c : Issue) (s : State) : Host.Outcome State Fault Refusal := .next (s.submit 0x12 bodyWriteRaw c)

/-- READ. -/
def execRead (c : Issue) (s : State) : Host.Outcome State Fault Refusal := .next (s.submit 0x14 bodyRead c)

/-- ZERO. -/
def execZero (c : Issue) (s : State) : Host.Outcome State Fault Refusal := .next (s.submit 0x15 bodyZero c)

/-- FILL_COMPLETE: the last burst of a fill has been written (R91). -/
def execFillComplete (ashlar : Nat) (s : State) : Host.Outcome State Fault Refusal := .next (s.fillDone ashlar)

end Sys2Proof.Machine
end

