-- ==== Sys2Proof/Machine/Strips.lean ====
section
/-! DEFINITION. Strips and compressor engines (R106 to R129): strip records, the placement and writing of compressor output,
the gain test, sealing and freeing, raw strips, engine faults and tests, and the shares of the forge pool (R222, R223). -/

namespace Sys2Proof.Machine

/-! ### Forge pool shares -/

/-- ANVIL_EXTRA of POOL_ALLOC (R221). -/
def poolExtra (d : Dword) : Nat := bits d.toNat 16 4

/-- STAGING of POOL_ALLOC. -/
def poolStaging (d : Dword) : Nat := bits d.toNat 8 4

/-- COMPRESSORS of POOL_ALLOC. -/
def poolShares (d : Dword) : Nat := bits d.toNat 0 4

namespace State

/-- A started command of a port uses staging (R223). -/
def stagingBusy (s : State) (h : HostId) : Bool := s.cmds.any fun c => c.isStarted && c.usesStaging && c.iss.host == h

/-- Host staging held now in units of 64 KiB, of which each port holds a quarter (R221). -/
def stagingUnits (s : State) : Nat := ceilDiv (s.staging.toList.sum) 4

/-- Engines are in service while they hold a share, and those that are to go out while they hold a command (R127). -/
def engineShares (s : State) : State :=
  let n := min (poolShares s.ks.force.pool) s.shares
  { s with comps := Vector.ofFn fun i : Fin 8 =>
      let e := s.comps[i]
      { e with inService :=
          decide (i.val < s.part.compressors) && !e.broken && (decide (i.val < n) || e.job.isSome) } }

/-- The pool holds an anvil extension, the ports' staging and compressor shares: its 12 adjustable units are 48 quarters (R221). -/
def poolFits (anvil : Nat) (staging : Vector Nat 4) (shares : Nat) : Bool :=
  decide (4 * anvil + staging.toList.sum + 4 * shares ≤ 48)

/-- Space of the pool passes to the committed sizes as its holders release it: staging port by port, as each port's commands complete
(R223). The anvil is cut anew elsewhere. -/
def settlePool (s : State) : State :=
  let p := s.ks.force.pool
  let busy := ((List.finRange 8).filter fun i => poolShares p ≤ i.val && (s.comps[i]).job.isSome).length
  let shares := min s.shares (poolShares p + busy)
  let least_ : Vector Nat 4 := Vector.ofFn fun h : Fin 4 =>
    if s.stagingBusy h then s.staging[h] else min s.staging[h] (poolStaging p)
  let grow (v : Vector Nat 4) (h : HostId) : Vector Nat 4 :=
    let w := vset v h (max v[h] (poolStaging p))
    if poolFits s.anvilExtra w shares then w else v
  let staging := (List.finRange 4).foldl grow least_
  let shares2 := if poolFits s.anvilExtra staging (poolShares p) then max shares (poolShares p) else shares
  { s with shares := shares2, staging := staging }.engineShares

/-- The anvil takes its committed size when that fits beside what the others still hold (R223). -/
def cutAnvil (s : State) : State :=
  let x := poolExtra s.ks.force.pool
  if x ≤ s.anvilExtra ∨ poolFits x s.staging s.shares = true then { s with anvilExtra := x }.settlePool else s.settlePool

/-! ### Strip records -/

/-- Records in which no strip lives (R107). -/
def freeRecords (s : State) : List Nat :=
  (List.range 8192).filter fun i => !(s.strips.any fun t => t.live && t.idx == i)

/-- Generation of a record's next strip: 1 at the first use, one more at each reuse, wrapping back to 1 (R107). -/
def nextGen (s : State) (i : Nat) : Nat :=
  match s.strips.find? fun t => t.idx = i with
  | some t => if t.gen = 524287 then 1 else t.gen + 1
  | none => 1

/-- Create a strip in one of the free records; which one is a free value. -/
def createStrip (s : State) (t : Strip) : Option (State × Strip) :=
  match s.freeRecords with
  | [] => none
  | r :: rs =>
    let i := (r :: rs).getD (Config.openRecord s.free % (rs.length + 1)) r
    let u : Strip := { t with idx := i, gen := s.nextGen i, live := true }
    some ({ s.useFree with strips := (s.strips.filter fun x => x.idx ≠ i) ++ [u] }, u)

end State

/-! ### Placement (R115) -/

/-- Where output lies: extents, index ashlars, and ashlars free to take, ascending. -/
structure Place where
  extents : List (Nat × Nat)
  index : List Nat
  free : List Nat

/-- Stream ashlars of a placement. -/
def Place.count (p : Place) : Nat := (p.extents.map (·.2)).sum

/-- Take one more stream ashlar: the next number when it is free, else the lowest free one as a new extent. -/
def Place.grow (p : Place) : Option Place :=
  let next := match p.extents.getLast? with
    | some (f, n) => if p.free.contains (f + n) then some (f + n) else none
    | none => none
  match next, p.extents.getLast? with
  | some a, some (f, n) => some { p with extents := p.extents.dropLast ++ [(f, n + 1)], free := p.free.filter (· ≠ a) }
  | _, _ => match p.free with
    | [] => none
    | a :: rest => if p.extents.length < 8 then some { p with extents := p.extents ++ [(a, 1)], free := rest } else none

/-- Take stream ashlars until so many bytes fit. -/
def Place.stream (bytes : Nat) : Nat → Place → Option Place
  | 0, p => if bytes ≤ 65536 * p.count then some p else none
  | fuel + 1, p => if bytes ≤ 65536 * p.count then some p else (p.grow).bind (Place.stream bytes fuel)

/-- Take an index ashlar when entry `i` needs one: the highest free one. -/
def Place.entry (p : Place) (i : Nat) : Option Place :=
  if i < 8192 * p.index.length then some p
  else match p.free.getLast? with
    | some a => if p.index.length < 8 then some { p with index := p.index ++ [a], free := p.free.dropLast } else none
    | none => none

namespace State

/-- Ashlars that an engine may take for a partition: allocated, unwritten, not filling (R115). -/
def takeable (s : State) (p : Fin 16) : List Nat :=
  (s.raster.alloc.filter fun x => x.2 = p && !s.raster.isWritten x.1 && !s.raster.isFilling x.1).map (·.1)

end State

/-! ### What an engine's output has to be (R113) -/

/-- A line image with its pad bits cleared (R100). -/
def clearPads (w : Nat) (bs : List Byte) : List Byte :=
  bs.zipIdx.map fun x =>
    if 18 * w ≤ 8 * x.2 then 0
    else if 8 * x.2 + 8 ≤ 18 * w then x.1
    else x.1 &&& BitVec.ofNat 8 (2 ^ (18 * w - 8 * x.2) - 1)

/-- A line image of a command's input, pad bits 0 (R112, R113). -/
def Cmd.inputLine (c : Cmd) (i : Nat) : List Byte :=
  let w := c.f 3 0 11
  clearPads w ((c.buf.drop (i * lineBytes w)).take (lineBytes w))

/-- Bits of a token of a block in the fixed code: a literal, or a match of a length and a distance. -/
def fixedBits (len dist : Nat) (b : Byte) : Nat :=
  if len = 0 then fixedLit.getD b.toNat 0
  else
    let k := if len = 258 then 28 else (lengthTable.findIdx? fun x => decide (len < x.1)).getD 28 - 1
    let d := (distTable.findIdx? fun x => decide (dist < x.1)).getD 30 - 1
    fixedLit.getD (257 + k) 0 + (lengthTable.getD k (0, 0)).2 + 5 + (distTable.getD d (0, 0)).2

/-- Decode one line inside a block, and nothing beyond the block: the decoder after it and the line's cost in the fixed code. No
match costs more than 15 bits a byte (R111). -/
def decodeInside (i : Input) : Nat → Inflate → Nat → List Byte → Option (Inflate × Nat)
  | _, d, cost, [] => some (d, cost)
  | 0, _, _, _ => none
  | fuel + 1, d, cost, b :: bs =>
    match d.once i with
    | .error _ => none
    | .ok (d1, none) =>
      if d1.block = .outside ∨ 15 * d1.matchLen < d1.bit - d.bit then none
      else decodeInside i fuel d1 (cost + fixedBits d1.matchLen d1.matchDist 0) (b :: bs)
    | .ok (d1, some x) =>
      if x = b then decodeInside i fuel d1 (if 0 < d.matchLen then cost else cost + fixedBits 0 0 b) bs else none

/-- Read the header of a block that the TABLES setting allows, fixed or dynamic with a header of at most 2,286 bits, and
BFINAL 0 (R111, R113). -/
def openBlock (i : Input) (tables : Nat) (d : Inflate) : Option Inflate :=
  match d.once i with
  | .ok (d1, none) =>
    let ok := match d1.block with
      | .fixed => tables != 1
      | .dynamic lit dist => tables != 0 && decide (lit.length + dist.length ≤ 316)
      | _ => false
    if ok && !d1.final then some d1 else none
  | _ => none

/-- Read the end of a block. -/
def closeBlock (i : Input) (d : Inflate) : Option Inflate :=
  match d.once i with
  | .ok (d1, none) => if d1.block = .outside then some d1 else none
  | _ => none

/-- A block is of the kind that TABLES asks for: with 2, a dynamic block is the shorter coding of what it holds (R113). That a
fixed block is so too is not checked: which dynamic code the compressor had is its own (log entry 82). -/
def blockKept (tables fixedCost size : Nat) (b : Block) : Bool :=
  match b with
  | .dynamic _ _ => tables != 2 || decide (size < fixedCost)
  | _ => true

/-- The engine produces the next line of its input and checks it (R113, R128), in blocks of `per` lines; none when its output
is not that line or breaks R113. -/
def Output.line (o : Output) (tables per : Nat) (last : Bool) (img : List Byte) : Option Output :=
  let i := Input.ofList o.stream o.bits
  let start := if o.inBlock = 0 then (openBlock i tables o.dec).map fun d => (d, 10, o.dec.bit)
    else some (o.dec, o.fixedCost, o.blockAt)
  start.bind fun (d, cost, at_) =>
    (decodeInside i (d.fuel i img.length) d cost img).bind fun (d2, cost2) =>
      let o2 : Output := { o with ends := o.ends ++ [d2.bit], fixedCost := cost2, blockAt := at_ }
      if o.inBlock + 1 = per ∨ last = true then
        (closeBlock i d2).bind fun d3 =>
          if blockKept tables cost2 (d3.bit - at_) d2.block && (!last || d3.bit == o.bits) then
            some { o2 with dec := d3, inBlock := 0 } else none
      else some { o2 with dec := d2, inBlock := o.inBlock + 1 }

/-- Room for the output up to a byte of the stream, and then for an index entry, as far as the limit allows (R115, R118), taken
from ashlars that are free to take. -/
def Output.extend (o : Output) (free : List Nat) (upTo : Nat) (entry : Bool) : Option Output :=
  let want := upTo - o.streamTo
  let n := min want (o.limit - o.used)
  let more := entry && decide (want + 8 ≤ o.limit - o.used)
  let end_ := o.streamTo + n
  let p : Place := { extents := o.extents, index := o.index, free := free }
  ((p.stream end_ (end_ / 65536 + 1)).bind fun q => if more then q.entry o.entriesTo else some q).map fun q =>
    let old := extentAshlars o.extents ++ o.index
    { o with
      extents := q.extents, index := q.index
      taken := o.taken ++ (extentAshlars q.extents ++ q.index).filter fun a => !old.contains a
      streamTo := end_
      entriesTo := if more then o.entriesTo + 1 else o.entriesTo
      used := if entry && !more then o.limit else o.used + n + (if more then 8 else 0) }

/-- Bursts of a chain of ashlars from one to another, with the kind of each: the first one is completed by a read-modify-write
when it holds older data (R116). -/
def chainBursts (r : Raster) (chain : List Nat) (tail : Nat) (ks : List Nat) : List Burst :=
  ks.map fun k =>
    { addr := chainAt r chain k, kind := if tail = k then .rmw else .write }

/-- The burst of a strip's stream that an append completes, and that of its index; far out when it begins with a whole one. -/
def Output.tails (o : Output) : Nat × Nat :=
  (if o.tail % 512 = 0 then 2 ^ 64 else o.tail / 512, if o.lines % 8 = 0 then 2 ^ 64 else o.lines / 8)

/-- The bursts from one on that hold output or belong to an ashlar that the command fills. -/
def Output.restOf (o : Output) (chain : List Nat) (lo hi : Nat) : List Nat :=
  (List.range (1024 * chain.length)).filter fun k =>
    decide (lo ≤ k) && (decide (k < hi) || o.taken.contains (chain.getD (k / 1024) 0))

/-- Bytes that a command's output adds, with eight for each index entry (R117). DEDUCED: of an append only bytes that it begins
count; the bits that fill up the strip's last byte are free (log entry 99). -/
def Output.size (o : Output) : Nat := ceilDiv (o.tail + o.bits) 8 - ceilDiv o.tail 8 + 8 * o.ends.length

/-- Bytes that the output may take (R73, R117). -/
def Cmd.gainLimit (c : Cmd) : Nat := c.f 2 0 16 * lineBytes (c.f 3 0 11) * (256 - c.f 4 0 8) / 256

/-- Host bytes that a command reads from its source. -/
def Cmd.sourceLen (c : Cmd) : Nat :=
  match c.op.toNat with
  | 0x12 => c.p 4
  | 0x13 => c.f 2 0 16 * lineBytes (c.f 3 0 11)
  | 0x20 => 8 * c.f 3 0 11
  | 0x22 => 576 * c.f 2 0 5
  | 0x35 => c.f 3 0 8
  | 0x50 => 16 * c.f 4 0 16
  | 0x70 => c.p 3
  | _ => 0

namespace State

/-! ### Engines -/

/-- Write a compressor log entry (R450). -/
def logComp (s : State) (type : Nat) (n : Fin 8) (c : Cmd) (what strip value addr : Nat) : State :=
  s.logErr type c.host.val [fld 12 1 n.val, fld 13 1 what, fld 14 1 c.iss.queue.val, fld 16 2 c.iss.tag.toNat,
    fld 20 4 strip, fld 24 4 value, fld 32 8 addr]

/-- Test a compressor engine (R129): whether it passes, and at which step it fails, is a free value. -/
def testComp (s : State) (n : Fin 8) (id : Nat) : State :=
  match s.findCmd id with
  | none => s
  | some c =>
    let step := Config.selfTestStep s.free
    let addr := if step = 0 then 2 ^ 64 - 1 else (Config.openDword s.free).toNat
    let s1 := ((s.useFree.updComp n fun e => { e with broken := step != 0, test := none }).engineShares).logComp 0x0502 n c
      (if step = 0 then 0 else 1) 0 step addr
    let s2 := if step = 0 then s1.raise ⟨48 + n.val, by omega⟩ else s1
    s2.succeed id (if step = 0 then 1 else 0) step

/-- An engine has ended a command: it is free, its share passes on if a keystone has taken it, and a test that waited runs
(R127, R129, R223). -/
def engineFree (s : State) (n : Fin 8) : State :=
  let s1 := (s.updComp n fun e => { e with job := none }).settlePool
  match s1.comps[n].test with
  | some id => s1.testComp n id
  | none => s1

/-- An engine's command ends with another status than SUCCESS (R119): what it took goes back, and the engine is free. -/
def engineFails (s : State) (n : Fin 8) (id : Nat) (a : Answer) : State := (s.abort id a).engineFree n

/-- An engine fault (R128): cause 1 mismatch, 2 history, 3 staging, with the address of the failing word. -/
def compFault (s : State) (n : Fin 8) (cause addr : Nat) : State :=
  match s.comps[n].job.bind s.findCmd with
  | none => s
  | some c =>
    let s1 := (s.logComp 0x0501 n c cause (c.p 5) c.out.ends.length addr).updComp n fun e => { e with broken := true }
    (s1.raise ⟨48 + n.val, by omega⟩).engineFails n c.id { status := .aborted, detail := 0x14 }

/-- Refusals of a WRITE_COMPRESS by the state of the strip that it names (R73, R107, R112). -/
def compressCheck (s : State) (c : Cmd) : Option Answer :=
  if c.p 5 = 0 then (if s.freeRecords = [] then some { status := .resourceConflict } else none)
  else match s.findStrip (c.p 5) with
    | none => some { status := .invalidField, detail := 0x08 }
    | some t =>
      if t.part ≠ c.part then some { status := .partitionViolation, detail := 0x0B }
      else if t.sealed then some { status := .sealed }
      else if t.words ≠ c.f 3 0 11 then some { status := .invalidField, detail := 0x8014 }
      else if 65535 < t.lines + c.f 2 0 16 then some { status := .invalidField, detail := 0x8010 }
      else if s.stripInUse t.handle then some { status := .resourceConflict, detail := 0x09 }
      else none

/-- A WRITE_COMPRESS waits for an earlier command on its strip (R114). -/
def stripBehind (s : State) (c : Cmd) : Bool := c.p 5 != 0 && s.behind c fun x => x.strip == c.strip

/-- An engine holds the command. -/
def engineHolds (s : State) (id : Nat) : Bool := s.comps.toList.any fun e => e.job == some id

/-- The oldest command of a host that an engine may take (R126). -/
def compressWaiting (s : State) (h : HostId) : Option Cmd :=
  (s.cmds.filter fun c => c.iss.host = h && c.op == 0x13 && c.prog == .compress && !s.engineHolds c.id &&
    !s.stripBehind c).foldl
    (fun best c => match best with
      | none => some c
      | some b => if c.started < b.started then some c else some b) none

/-- The command that a free engine takes next: hosts in round robin after the host served last (R126). -/
def nextCompress (s : State) : Option Cmd :=
  [1, 2, 3, 4].findSome? fun k => s.compressWaiting (s.compTurn + Fin.ofNat 4 k)

/-- The output of a command before its first line, after what a strip holds. -/
def outputAfter (t : Strip) (stream : List Byte) (bits limit : Nat) : Output :=
  { stream := stream, bits := bits, tail := t.bits, lastEnd := t.lastEnd, lines := t.lines
    extents := t.extents, index := t.index, limit := limit
    streamTo := ceilDiv t.bits 8, entriesTo := t.lines, sent := t.bits / 512, sentIndex := t.lines / 8 }

/-- A free engine takes a waiting command (R126). `stream` and `bits` are what it is going to make of the command's input. -/
def dispatch (s : State) (n : Fin 8) (stream : List Byte) (bits : Nat) : State :=
  let e := s.comps[n]
  if !e.inService || e.job.isSome || e.test.isSome || decide (min (poolShares s.ks.force.pool) s.shares ≤ n.val) then s
  else match s.nextCompress with
    | none => s
    | some c =>
      let s1 : State := { s with compTurn := c.host }
      match s1.compressCheck c with
      | some a => s1.finish c.id a
      | none =>
        let t : Strip := (s.findStrip (c.p 5)).getD { idx := 0, gen := 0 }
        (s1.updComp n fun x => { x with job := some c.id }).updCmd c.id fun x => { x with
          out := outputAfter t stream bits c.gainLimit }

/-- Keep how far a command's output has come: the ashlars that it has taken begin to fill (R116). -/
def keepOutput (s : State) (id : Nat) (o : Output) : State :=
  (s.updCmd id fun x => { x with out := o }).beginFills id o.taken

/-- The whole bursts of output that have been produced since go to the writeback requester, in order (R116, R311). -/
def sendWhole (s : State) (id : Nat) : State :=
  match s.findCmd id with
  | none => s
  | some c =>
    let o := c.out
    let k := max o.sent (min o.streamTo ((o.tail + o.dec.bit) / 8) / 64)
    let j := max o.sentIndex (o.entriesTo / 8)
    let bs := chainBursts s.raster (extentAshlars o.extents) o.tails.1 (List.range' o.sent (k - o.sent)) ++
      chainBursts s.raster o.index o.tails.2 (List.range' o.sentIndex (j - o.sentIndex))
    { s with writeback := s.writeback ++ bs.map fun b => (id, b) }.updCmd id fun x => { x with
      out := { x.out with sent := k, sentIndex := j } }

/-- The output has come to its end: partial bursts go out, and zeros for the rest of every ashlar taken (R116). -/
def sendRest (s : State) (id : Nat) : State :=
  match s.findCmd id with
  | none => s
  | some c =>
    let o := c.out
    let chain := extentAshlars o.extents
    let k := if ceilDiv o.tail 8 < o.streamTo then ceilDiv o.streamTo 64 else 0
    let j := if o.lines < o.entriesTo then ceilDiv o.entriesTo 8 else 0
    let bs := chainBursts s.raster chain o.tails.1 (o.restOf chain o.sent k) ++
      chainBursts s.raster o.index o.tails.2 (o.restOf o.index o.sentIndex j)
    { s with writeback := s.writeback ++ bs.map fun b => (id, b) }.updCmd id fun x => { x with
      out := { x.out with sent := 1024 * chain.length, sentIndex := 1024 * o.index.length, ended := true } }

/-- Room for the last bits of a command's output, which then all goes out; none when no ashlar is left to take (R115). -/
def endOutput (s : State) (c : Cmd) (p : Fin 16) : Option State :=
  (c.out.extend (s.takeable p) (ceilDiv (c.out.tail + c.out.bits) 8) false).map fun o =>
    ((s.keepOutput c.id o).sendRest c.id).present

/-- The engine works through the lines of its input that have come (R115, R116, R128). -/
def compressLoop (n : Fin 8) (id : Nat) : Nat → State → State
  | 0, s => s
  | fuel + 1, s =>
    match s.findCmd id with
    | none => s
    | some c =>
      let lb := lineBytes (c.f 3 0 11)
      let k := c.out.ends.length
      if c.f 2 0 16 ≤ k ∨ c.buf.length < (k + 1) * lb then s
      else match c.out.line (c.f 3 12 2) (max 1 (16384 / lb)) (k + 1 == c.f 2 0 16) (c.inputLine k) with
        | none => s.compFault n 1 (2 ^ 64 - 1)
        | some o1 =>
          match o1.extend (s.takeable c.part) (((lineEnds o1).getLast?).getD 0) true with
          | none => s.engineFails n id { status := .resourceConflict, detail := 0x0A }
          | some o2 =>
            let s1 := ((s.keepOutput id o2).sendWhole id).present
            if k + 1 < c.f 2 0 16 then compressLoop n id fuel s1
            else match (s1.findCmd id).bind fun d => s1.endOutput d c.part with
              | some s2 => s2
              | none => s1.engineFails n id { status := .resourceConflict, detail := 0x0A }

/-- Input has come for the command that an engine holds. -/
def compressInput (s : State) (id : Nat) : State :=
  match (List.finRange 8).find? fun n => s.comps[n].job == some id, s.findCmd id with
  | some n, some c => compressLoop n id (c.f 2 0 16) s
  | _, _ => s

/-- Ashlars become allocated and unwritten again (R118, R125). -/
def unwrite (s : State) (ns : List Nat) : State :=
  s.updRaster fun r => { r with written := r.written.filter fun n => !ns.contains n }

/-- An engine ends its command when all of the output has been written and its fills have ended: the gain test decides between
SUCCESS and NOSHRINK (R73, R117 to R120). -/
def compressDone (s : State) (n : Fin 8) : State :=
  match s.comps[n].job.bind s.findCmd with
  | none => s
  | some c =>
    if !c.out.ended || !s.moved c then s
    else if c.gainLimit < c.out.size then
      s.engineFails n c.id { status := .noshrink, r0 := c.p 5, r1 := c.out.size }
    else match s.findStrip (c.p 5) with
      | some t => ((s.putStrip (Output.strip c.out t)).succeed c.id t.handle c.out.size).engineFree n
      | none =>
        match s.createStrip (Output.strip c.out { idx := 0, gen := 0, part := c.part, words := c.f 3 0 11 }) with
        | some (s1, v) => (s1.succeed c.id v.handle c.out.size).engineFree n
        | none => s.engineFails n c.id { status := .resourceConflict }

end State

/-! ### Meanings -/

/-- WRITE_COMPRESS waits for an engine (R112, R126). -/
def bodyWriteCompress (c : Cmd) (s : State) : State :=
  match if s.stripBehind c then none else s.compressCheck c with
  | some a => s.finish c.id a
  | none => s.updCmd c.id fun x => { x with prog := .compress }

/-- The ten bits that SEAL_STRIP appends: a fixed block with BFINAL 1 and no data (R124). -/
def sealBits : List Byte := [0x03, 0x00]

/-- SEAL_STRIP (R124): its bits go out as an append's do, and it completes when they have been written. -/
def bodySealStrip (c : Cmd) (s : State) : State :=
  match s.findStrip (c.p 0) with
  | none => s.fail c.id .invalidField 0x08
  | some t =>
    if t.sealed then s.succeed c.id t.lines t.size
    else
      let d : Cmd := { c with prog := .raster, out := State.outputAfter t sealBits (ceilDiv (t.bits + 10) 8 * 8 - t.bits) 2 }
      match (s.updCmd c.id fun x => { x with prog := .raster, out := d.out }).endOutput d t.part with
      | some s1 => s1
      | none => s.fail c.id .resourceConflict 0x0A

/-- GET_STRIP_INFO (R72). -/
def bodyGetStripInfo (c : Cmd) (s : State) : State :=
  match s.findStrip (c.p 0) with
  | none => s.fail c.id .invalidField 0x08
  | some t =>
    let flag (b : Bool) (k : Nat) : Nat := if b then 2 ^ k else 0
    s.succeed c.id
      (t.lines + 2 ^ 16 * t.words + flag t.raw 27 + flag t.sealed 28 + flag (s.stripInUse t.handle) 29 +
        flag t.poisoned 30)
      (t.size % 2 ^ 28 + 2 ^ 28 * t.part.val)

/-- DEFINE_RAW_STRIP (R123). -/
def bodyDefineRawStrip (c : Cmd) (s : State) : State :=
  let t : Strip := { idx := 0, gen := 0, raw := true, part := c.part, lines := c.f 2 0 16, words := c.f 3 0 11
                     sealed := true, addr := c.raster 0, stride := c.p 4 }
  match s.createStrip t with
  | none => s.fail c.id .resourceConflict
  | some (s1, u) => s1.succeed c.id u.handle

/-- FREE_STRIP (R74, R125). -/
def bodyFreeStrip (c : Cmd) (s : State) : State :=
  match s.findStrip (c.p 0) with
  | none => s.fail c.id .invalidField 0x08
  | some t =>
    if s.stripInUse t.handle then s.fail c.id .resourceConflict 0x09
    else
      let ns := if t.raw then [] else t.streamAshlars ++ t.index
      ((s.unwrite ns).putStrip { t with live := false }).succeed c.id ns.length

/-! ### Rows of the table -/

/-- WRITE_COMPRESS. -/
def execWriteCompress (c : Issue) (s : State) : Host.Outcome State Fault Refusal :=
  .next (s.submit 0x13 bodyWriteCompress c)

/-- SEAL_STRIP. -/
def execSealStrip (c : Issue) (s : State) : Host.Outcome State Fault Refusal := .next (s.submit 0x16 bodySealStrip c)

/-- GET_STRIP_INFO. -/
def execGetStripInfo (c : Issue) (s : State) : Host.Outcome State Fault Refusal :=
  .next (s.submit 0x17 bodyGetStripInfo c)

/-- DEFINE_RAW_STRIP. -/
def execDefineRawStrip (c : Issue) (s : State) : Host.Outcome State Fault Refusal :=
  .next (s.submit 0x18 bodyDefineRawStrip c)

/-- FREE_STRIP. -/
def execFreeStrip (c : Issue) (s : State) : Host.Outcome State Fault Refusal := .next (s.submit 0x19 bodyFreeStrip c)

/-- COMPRESSOR_DISPATCH: a free engine takes a waiting command (R126); `stream` and `bits` are what it makes of the input. -/
def execCompressorDispatch (n : Fin 8) (stream : List Byte) (bits : Nat) (s : State) : Host.Outcome State Fault Refusal :=
  .next (s.dispatch n stream bits)

/-- WRITE_COMPRESS_DONE: an engine ends the command it holds (R118). -/
def execWriteCompressDone (n : Fin 8) (s : State) : Host.Outcome State Fault Refusal := .next (s.compressDone n)

/-- COMPRESSOR_FAULT: an engine fault with its cause, and the address of the failing word; a mismatch has none (R128, R450). -/
def execCompressorFault (n : Fin 8) (cause : Fin 4) (addr : BitVec 64) (s : State) : Host.Outcome State Fault Refusal :=
  .next (if cause = 0 then s else s.compFault n cause.val (if cause = 1 then 2 ^ 64 - 1 else addr.toNat))

end Sys2Proof.Machine
end

