-- ==== Sys2Proof/Machine/Schedule.lean ====
section
/-! DEFINITION. Course tables (R131 to R139, R150 to R154, R162, R451): entries, liveness, validation, the built-in service
table; LOAD_COURSE; the page queue and its commands (R165 to R168); the lookahead, RUN and HALT_DRAIN (R188 to R190). -/

namespace Sys2Proof.Machine

/-- What a table is checked against (R153): the ranks that count as fitted, the links of the part, the device density and the
nominal MCK frequency in MHz. -/
structure Fit where
  ranks : List RankId
  links : Nat
  density : Nat
  mhz : Nat

/-- Slots that a FETCH entry needs (R139). -/
def fetchNeed (es : List Entry) (i : Nat) (e : Entry) : Nat :=
  ceilDiv e.reserve 2 + (if firstOfRun es i e then 2 else 0)

/-- The first of rules 2 to 12 that entry `i` breaks (R153). -/
def brokenOwn (f : Fit) (slots : Nat) (es : List Entry) (i : Nat) (e : Entry) : Option Nat :=
  let prev := match i with
    | 0 => 0
    | k + 1 => ((es[k]?).map (·.start)).getD 0
  let named := e.type == 2 || e.type == 3 || e.type == 4 || e.type == 6
  if 7 ≤ e.type then some 2
  else if e.zeroBroken then some 3
  else if e.start < prev then some 4
  else if slots < e.fin then some 5
  else if e.sub = 0 || (e.isFetch && e.sub != 3) then some 6
  else if 2 ^ e.mod ≤ e.phase then some 7
  else if (named && !f.ranks.contains e.rankId) || (e.type == 4 && e.kind == 3) then some 8
  else if e.isFetch && decide (f.links ≤ e.link) then some 9
  else if (e.compressible && e.type != 5) || (e.hot && e.type != 2 && e.type != 3) || (e.isFetch && e.mod != 0) then some 10
  else if e.span = 0 || (!e.isFetch && decide (e.span < e.minSpan f.density)) then some 11
  else if e.isFetch && decide (e.span < fetchNeed es i e) then some 12
  else none

/-- Rule 13: two co-live bus entries share a subchannel and a slot. -/
def rule13 (a b : Entry) : Bool :=
  a.isBus && b.isBus && a.coLive b && a.shareSub b && Entry.meet a.start a.fin b.start b.fin

/-- Rule 14 with the overlay entry first. -/
def rule14 (a b : Entry) : Bool :=
  a.isOverlay && (b.isFetch || (b.type == 4 && a.coLive b && a.rank == b.rank)) && a.shareSub b &&
    Entry.meet a.blockFrom a.fin b.start b.fin

/-- Rule 15: blocking parts of co-live overlay entries share a rank, a subchannel, a bank index and a slot. -/
def rule15 (a b : Entry) : Bool :=
  a.isOverlay && b.isOverlay && a.coLive b && a.rank == b.rank && a.shareSub b &&
    (a.type == 6 || b.type == 6 || a.bank == b.bank) && Entry.meet a.blockFrom a.fin b.blockFrom b.fin

/-- Rule 16: two co-live ZQCAL entries share a slot. -/
def rule16 (a b : Entry) : Bool :=
  a.type == 6 && b.type == 6 && a.coLive b && Entry.meet a.start a.fin b.start b.fin

/-- The first of rules 13 to 16 that an entry breaks with those before it (R152). -/
def brokenPair (before : List Entry) (e : Entry) : Option Nat :=
  if before.any (rule13 e) then some 13
  else if before.any fun b => rule14 e b || rule14 b e then some 14
  else if before.any (rule15 e) then some 15
  else if before.any (rule16 e) then some 16
  else none

/-- Supply of the entries of a test, in 2^-15 (R154). -/
def supply (es : List Entry) (test : Entry → Bool) : Nat := ((es.filter test).map fun e => 2 ^ (15 - e.mod)).sum

/-- A supply is below `k` times the normal need (R154): COURSE_SLOTS * 16 * 1.005 / (f_MCK * 3.9 us). -/
def belowNeed (sup k slots mhz : Nat) : Bool := decide (sup * 39000 * mhz < k * slots * 160800 * 32768)

/-- The first of rules 17 to 21 that fails, with rank, subchannel and bank index, or 0xFF where the rule has none (R152,
R153). -/
def brokenSupply (f : Fit) (slots : Nat) (es : List Entry) : Option (Nat × Nat × Nat × Nat) :=
  let at_ (r : RankId) (u : Nat) (e : Entry) : Bool := e.rankId == r && e.onSub u
  let perBank (rule : Nat) (test : Entry → Bool) (low : Nat → Bool) : Option (Nat × Nat × Nat × Nat) :=
    f.ranks.findSome? fun r => [0, 1].findSome? fun u => (List.finRange 4).findSome? fun b =>
      if low (supply es fun e => at_ r u e && e.bank == b && test e) then some (rule, r.val, u, b.val) else none
  let perSub (rule : Nat) (test : Entry → Bool) (low : Nat → Bool) : Option (Nat × Nat × Nat × Nat) :=
    f.ranks.findSome? fun r => [0, 1].findSome? fun u =>
      if low (supply es fun e => at_ r u e && test e) then some (rule, r.val, u, 0xFF) else none
  (perBank 17 (fun e => e.type == 2 && !e.hot) fun x => belowNeed x 1 slots f.mhz).or
    ((perBank 18 (fun e => e.type == 2) fun x => belowNeed x 2 slots f.mhz).or
    ((perBank 19 (fun e => e.type == 3) fun x => decide (x < 2048)).or
    ((perSub 20 (fun e => e.type == 6) fun x => decide (x < 1)).or
    (perSub 21 (fun e => e.type == 4 && e.kind == 0) fun x => decide (x < 32)))))

/-- What a rejected table breaks: the rule, the entry's index, and the place that fell short. -/
structure Broken where
  rule : Nat
  idx : Option Nat := none
  rank : Nat := 0xFF
  sub : Nat := 0xFF
  bank : Nat := 0xFF
deriving DecidableEq, Repr

/-- Validate a table in the order of R152. -/
def validate (f : Fit) (tid : Dword) (slots : Nat) (es : List Entry) : Option Broken :=
  if tid = 0 then some { rule := 1 }
  else match (es.zipIdx).findSome? fun x => (brokenOwn f slots es x.2 x.1).map fun r => (r, x.2) with
    | some (r, i) => some { rule := r, idx := some i }
    | none => match (es.zipIdx).findSome? fun x => (brokenPair (es.take x.2) x.1).map fun r => (r, x.2) with
      | some (r, i) => some { rule := r, idx := some i }
      | none => (brokenSupply f slots es).map fun x => { rule := x.1, rank := x.2.1, sub := x.2.2.1, bank := x.2.2.2 }

/-! ### The built-in service table (R162, R451) -/

/-- An entry word with SUB 0b11. -/
def entryWord (type start span rank link low mod phase : Nat) (hot : Bool) : BitVec 64 :=
  BitVec.ofNat 64 (type * 2 ^ 60 + start * 2 ^ 48 + span * 2 ^ 38 + 3 * 2 ^ 36 + rank * 2 ^ 34 + link * 2 ^ 29 +
    low * 2 ^ 20 + mod * 2 ^ 16 + phase * 16 + (if hot then 4 else 0))

/-- COURSE_SLOTS of the built-in table: courses of 4.000 us (R162). -/
def builtinSlots (mts : Nat) : Nat := if mts = 6400 then 800 else if mts = 5600 then 700 else 600

/-- The entries of one rank in the built-in table. -/
def builtinRank (c w r : Nat) : List (BitVec 64) :=
  ((List.range 4).map fun b =>
    let s := 12 * (4 * r + b)
    [entryWord 2 s w r b 0 0 0 false, entryWord 3 (42 + s) w r b 0 2 b false, entryWord 2 (84 + s) w r b 0 5 0 false,
      entryWord 2 (126 + s) w r b 0 0 0 true, entryWord 2 (168 + s) w r b 0 4 8 true]).flatten ++
    [entryWord 6 (200 + 6 * r) 206 r 0 0 15 (1024 * r) false, entryWord 4 (c - 40) 40 r 0 0 8 (64 * r) false]

/-- The order of R451: START, TYPE, RANK, BANK, MOD. -/
def entryKey (w : BitVec 64) : Nat :=
  let e := Entry.of w
  (((e.start * 16 + e.type) * 4 + e.rank) * 4 + e.bank.val) * 16 + e.mod

/-- Insert an entry in the order of R451. -/
def insertEntry (x : BitVec 64) : List (BitVec 64) → List (BitVec 64)
  | [] => [x]
  | y :: ys => if entryKey x ≤ entryKey y then x :: y :: ys else y :: insertEntry x ys

/-- The built-in service table. -/
def builtinTable (mts density : Nat) (ranks : List RankId) : Bank :=
  let c := builtinSlots mts
  let w := if density = 16 then 30 else 42
  let es := entryWord 5 0 (c - 40) 0 0 0 0 0 false :: (ranks.map fun r => builtinRank c w r.val).flatten
  { entries := es.foldr insertEntry [], tableId := 0, slots := c }

namespace State

/-- The ranks of a channel that count as fitted for a table: fitted and not FAILED (R153, R290, R451). -/
def tableRanks (s : State) (c : ChanId) : List RankId :=
  (List.finRange 4).filter fun r => s.chans[c].ranks[r].st ≠ .notFitted && s.chans[c].ranks[r].st ≠ .failed

/-- What tables of a channel are checked against. -/
def fit (s : State) (c : ChanId) : Fit :=
  { ranks := s.tableRanks c, links := s.part.links, density := s.raster.density, mhz := mckMHz s.chans[c].mts }

/-- The bank counts as active: it is, or a keystone that commits it has been accepted (R75, R151). -/
def bankActive (s : State) (c : ChanId) (b : Fin 2) : Bool := s.chans[c].active == b || s.ks.banks[c]

/-- LOAD_COURSE with its data: the table is validated and takes the bank (R151, R152). -/
def loadTable (s : State) (c : Cmd) : State :=
  let ch : ChanId := Fin.ofNat 2 (c.f 0 0 1)
  let b : Fin 2 := Fin.ofNat 2 (c.f 0 8 1)
  let tid := BitVec.ofNat 32 (c.p 4)
  let slots := c.f 5 0 12
  let ws := (List.range (c.f 3 0 11)).map fun k => BitVec.ofNat 64 (leNat ((c.buf.drop (8 * k)).take 8))
  if s.bankActive ch b then s.fail c.id .tableActive
  else match validate (s.fit ch) tid slots (ws.map Entry.of) with
    | some x =>
      (s.logCourse 0x0201 ch.val x.sub x.rank x.bank (s.slotNow ch) (x.idx.getD 0xFFFF) x.rule tid.toNat).fail c.id
        .tableRejected x.rule (x.idx.getD 0xFFFFFFFF)
    | none =>
      let bank : Bank := { entries := ws, tableId := tid, slots := slots, loaded := true }
      (s.updChan ch fun k => { k with banks := vset k.banks b bank }).succeed c.id

/-! ### The page queue -/

/-- The record of a link in a descriptor (R166). -/
def readRecord (d : List Byte) (n : LinkId) : PageLink :=
  let r := d.drop (64 + 16 * n.val)
  let le (o k : Nat) : Nat := leNat ((r.drop o).take k)
  { strip := BitVec.ofNat 32 (le 0 4), firstLine := le 4 2, lines := le 6 2, phaseLines := BitVec.ofNat 32 (le 8 4)
    phaseFrac := BitVec.ofNat 16 (le 12 2), blank := bits (le 14 1) 0 1 == 1, phaseValid := bits (le 14 1) 1 1 == 1 }

/-- The page that a descriptor of 576 bytes names. -/
def readPage (d : List Byte) : Page :=
  let le (o k : Nat) : Nat := leNat ((d.drop o).take k)
  { id := BitVec.ofNat 16 (le 0 2), reverse := bits (le 2 2) 0 1 == 1, haltAfter := bits (le 2 2) 1 1 == 1
    length := le 4 2, gap := le 6 2, tableA := BitVec.ofNat 32 (le 8 4), tableB := BitVec.ofNat 32 (le 12 4)
    links := Vector.ofFn (readRecord d) }

/-- A reserved field of a descriptor is not 0, or a record of a link that the part lacks is not. -/
def reservedPage (s : State) (d : List Byte) : Bool :=
  decide (4 ≤ leNat ((d.drop 2).take 2)) || (d.drop 16).take 48 != List.replicate 48 0 ||
    (List.finRange 32).any fun n =>
      let r := (d.drop (64 + 16 * n.val)).take 16
      if n.val < s.part.links then decide (4 ≤ ((r.getD 14 0).toNat)) || r.getD 15 0 != 0
      else r != List.replicate 16 0

/-- A link record breaks R167 in another way than by the state of its strip. -/
def recordBad (s : State) (l : PageLink) : Bool :=
  let named := l.strip != 0
  (named && l.blank) || (!named && !l.blank && l.lines != 0) ||
    match if named then s.findStrip l.strip.toNat else none with
    | some t => (!t.raw && l.firstLine != 0) || decide (t.lines < l.firstLine + l.lines)
    | none => false

/-- The refusal of a descriptor, `k` pages of the array being accepted before it with the given identifiers (R167). -/
def refusePage (s : State) (ids : List (BitVec 16)) (d : List Byte) : Option Answer :=
  let p := readPage d
  let strips := (s.partLinks.map fun n => p.links[n].strip.toNat).filter (· ≠ 0)
  if 16 ≤ s.seq.pages.length + ids.length then some { status := .resourceConflict, detail := 0x0C }
  else if strips.any fun h => (s.findStrip h).isNone then some { status := .invalidField, detail := 0x08 }
  else if strips.any fun h => ((s.findStrip h).map fun t => !t.sealed).getD false then
    some { status := .invalidField, detail := 0x0F }
  else if s.reservedPage d || p.id == 0xFFFF || ids.contains p.id || (s.findPage p.id).isSome || p.length == 0 ||
      (s.partLinks.all fun n => p.links[n].lines == 0) || (s.partLinks.any fun n => s.recordBad p.links[n]) ||
      (!s.inUse 0 && p.tableA != 0) || (!s.inUse 1 && p.tableB != 0) || (p.reverse && !s.passMode) then
    some { status := .invalidField, detail := 0x8008 }
  else none

/-- Take the descriptors in turn: the pages, or the first refusal with its index. -/
def readPages (s : State) : List (List Byte) → List Page → Except (Answer × Nat) (List Page)
  | [], acc => .ok acc
  | d :: ds, acc =>
    match s.refusePage (acc.map (·.id)) d with
    | some a => .error (a, acc.length)
    | none => readPages s ds (acc ++ [readPage d])

/-- PAGE_QUEUE with its data: all of the pages or none (R167). -/
def queuePages (s : State) (c : Cmd) : State :=
  let ds := (List.range (c.f 2 0 5)).map fun k => (c.buf.drop (576 * k)).take 576
  match s.readPages ds [] with
  | .error (a, i) => s.finish c.id { a with r0 := s.seq.pages.length, r1 := i }
  | .ok ps =>
    let s1 := s.updSeq fun q => { q with pages := q.pages ++ ps }
    s1.succeed c.id s1.seq.pages.length

/-- Remove QUEUED pages of a test, with what has been primed for them (R168, R194). -/
def cancelPages (s : State) (which : Page → Bool) : State :=
  let s1 := s.dropPages fun p => !p.active && which p
  let ids := (s.seq.pages.filter fun p => !p.active && which p).map (·.id)
  { s1 with links := s1.links.map fun l => { l with fetch := { l.fetch with
      primed := l.fetch.primed.filter fun x => !ids.contains x.1 } } }

/-- A HALT_DRAIN of a mode while the drain is not HALTED; a stricter mode takes the place of the one under way (R189). -/
def halt (s : State) (mode : Fin 3) : State :=
  if mode = 2 then s.haltNow
  else if mode = 1 then (if s.seq.drain = .halting ∧ s.seq.haltMode = 1 then s else s.haltAtLine)
  else if s.seq.drain = .running then (s.updSeq fun q => { q with drain := .halting, haltMode := 0 }).settlePages
  else s

end State

/-! ### Meanings -/

/-- LOAD_COURSE: a bank that counts as active is refused; else the entries are read (R75, R151). -/
def bodyLoadCourse (c : Cmd) (s : State) : State :=
  if s.bankActive (Fin.ofNat 2 (c.f 0 0 1)) (Fin.ofNat 2 (c.f 0 8 1)) then s.fail c.id .tableActive
  else s.updCmd c.id fun x => { x with prog := .source c.sourceLen }

/-- PAGE_QUEUE reads its descriptors (R166). -/
def bodyPageQueue (c : Cmd) (s : State) : State := s.updCmd c.id fun x => { x with prog := .source c.sourceLen }

/-- PAGE_CANCEL (R75, R168). -/
def bodyPageCancel (c : Cmd) (s : State) : State :=
  if c.f 0 16 1 = 1 then
    let n := (s.seq.pages.filter fun p => !p.active).length
    (s.cancelPages fun _ => true).succeed c.id n
  else
    let id := BitVec.ofNat 16 (c.p 0)
    match s.findPage id with
    | none => s.fail c.id .invalidField 0x0E
    | some p =>
      if p.active then s.fail c.id .resourceConflict 0x0D
      else (s.cancelPages fun q => q.id = id).succeed c.id 1

/-- SET_LOOKAHEAD loads a KS shadow (R76, R422). -/
def bodySetLookahead (c : Cmd) (s : State) : State :=
  let d : Dword := BitVec.ofNat 32 (c.f 0 0 9 + 2 ^ 16 * c.f 1 0 9)
  { s with ks := { s.ks with shadow := { s.ks.shadow with lookahead := d } } }.succeed c.id

/-- RUN (R188). -/
def bodyRun (c : Cmd) (s : State) : State :=
  if s.drainHalted then
    let s1 := s.updSeq fun q => { q with drain := .running, prevEnd := none, lastLine := none, joinable := false }
    s1.succeed c.id ((s.seq.pages.head?).map (·.id.toNat) |>.getD 0xFFFFFFFF)
  else s.succeed c.id

/-- HALT_DRAIN (R189). -/
def bodyHaltDrain (c : Cmd) (s : State) : State :=
  if s.drainHalted then s.succeed c.id s.seq.haltR0.toNat s.seq.haltR1.toNat
  else (s.updSeq fun q => { q with haltCmds := q.haltCmds ++ [c.id] }).halt (Fin.ofNat 3 (c.f 0 0 2))

/-! ### Rows of the table -/

/-- LOAD_COURSE. -/
def execLoadCourse (c : Issue) (s : State) : Host.Outcome State Fault Refusal := .next (s.submit 0x20 bodyLoadCourse c)

/-- PAGE_QUEUE. -/
def execPageQueue (c : Issue) (s : State) : Host.Outcome State Fault Refusal := .next (s.submit 0x22 bodyPageQueue c)

/-- PAGE_CANCEL. -/
def execPageCancel (c : Issue) (s : State) : Host.Outcome State Fault Refusal := .next (s.submit 0x23 bodyPageCancel c)

/-- SET_LOOKAHEAD. -/
def execSetLookahead (c : Issue) (s : State) : Host.Outcome State Fault Refusal :=
  .next (s.submit 0x24 bodySetLookahead c)

/-- RUN. -/
def execRun (c : Issue) (s : State) : Host.Outcome State Fault Refusal := .next (s.submit 0x25 bodyRun c)

/-- HALT_DRAIN. -/
def execHaltDrain (c : Issue) (s : State) : Host.Outcome State Fault Refusal := .next (s.submit 0x26 bodyHaltDrain c)

end Sys2Proof.Machine
end

