-- ==== Sys2Proof/Machine/WebLoop.lean ====
section
/-! DEFINITION. The web loop and the placement of fire instants (R257 to R285): encoder counts, lock and loss, reversals and
arming, the commitment of markers (R272), fire phases, marks, page boundaries, and the loop's settings. -/

namespace Sys2Proof.Machine

/-- Position of a count boundary, in 1/65,536 line (R257). -/
def Web.posOf (w : Web) (count : Int) : Int := w.posBase + (count - w.countBase) * lineUnit * w.cfg.den.toNat / w.cfg.num.toNat

/-- COAST_LIMIT in microseconds; 0 selects 500 (R264). -/
def Web.coastUs (w : Web) : Nat := if w.cfg.coast = 0 then 500 else w.cfg.coast.toNat

/-- The code of an encoder loss (R258). -/
def lossCode : EncoderLoss → Nat
  | .failsafe _ => 1 | .illegal => 2 | .overrange => 3

/-- 64 CCK in tau (R261): 53.33 ns at 1.2 GHz. -/
def loopTau : Nat := 8533

/-- 2 ns and 100 ns in tau (R258). -/
def illegalTau : Nat := 320

/-- The place of the levels of A and B in the sequence in which A leads B (R257, R278). -/
def quadrature : Bool → Bool → Int
  | false, false => 0 | true, false => 1 | true, true => 2 | false, true => 3

/-- What the present levels of A and B make of the count modulo 4, in the sense that INVERT gives (R278). -/
def Web.phase (w : Web) : Int := if w.cfg.invert then -quadrature w.inA w.inB else quadrature w.inA w.inB

/-- The count is numbered so that it agrees with the levels of A and B modulo 4; counts are only ever compared. -/
def Web.align (w : Web) : Web :=
  let d := (w.phase - w.count) % 4
  { w with count := w.count + d, countBase := w.countBase + d, furthest := w.furthest + d, indexRef := w.indexRef.map (· + d) }

namespace State

/-! ### Entries and states -/

/-- Write a web log entry (R285). -/
def logWeb (s : State) (type link cause before after : Nat) (value : Int) (page : Nat) : State :=
  s.logErr type 255 [fld 12 1 link, fld 13 1 cause, fld 14 1 before, fld 15 1 after, fld 16 8 (s.pos % 2 ^ 64).toNat,
    fld 24 8 (value % 2 ^ 64).toNat, fld 32 2 page]

/-- Time that the MARK filter reaches back, in tau (R280). -/
def markReach (s : State) : Nat := bits s.ks.force.markCtrl.toNat 0 14 * (Config.usTau / 10)

/-- The position moves otherwise from now on: how it moved so far is kept for as long as the MARK filter reaches back (R280). -/
def moveWeb (s : State) (f : Web → Web) : State :=
  s.updWeb fun w => { f w with
    past := ((s.time, w.motion) :: w.past).filter fun x => decide (s.time ≤ x.1 + s.markReach) }

/-- The estimate at the present moment, with the velocity that it has come to (R261). -/
def estNow (s : State) : Motion :=
  let k := s.web.est
  { k with p := k.posAt s.time, v := k.v + k.a * (s.time - k.at_ : Nat) / Config.secTau, at_ := s.time }

/-- The loop changes state: WEB_STATE is written and source 64 is raised (R260). In COASTING the acceleration is 0 and the
velocity stays what it was last (R278); in LOST the position is held (R279). -/
def setWeb (s : State) (st : WebState) : State :=
  if s.web.st = st then s
  else
    let cause := if st = .coasting ∨ st = .lost then s.web.lossCause else 0
    let m := s.pos
    let e := s.estNow
    let s1 := s.moveWeb fun w => { w with
      st := st, held := m, stamps := []
      est := { e with
        a := if st = .coasting ∨ st = .lost then 0 else e.a
        v := if st = .lost then 0 else e.v } }
    (s1.logWeb 0x0A01 0xFF cause s.web.st.code st.code 0 0xFFFF).raise 64

/-- The loop enters ACQUIRE (R260): the master position follows the counts, and the estimate starts from there. -/
def acquire (s : State) : State :=
  let s1 := s.setWeb .acquire
  s1.moveWeb fun w => { w with
    held := w.posOf w.count, est := { w.est with p := w.posOf w.count, at_ := s.time }
    lastCount := s.time, lockRun := 0, offRun := 0, updated := s.time }

/-- The loop enters ACQUIRE with the count re-based on the position (R264, R279). -/
def rebase (s : State) : State :=
  let m := s.pos
  s.updWeb fun w => { w.align with countBase := w.align.count, posBase := m, furthest := w.align.count }

/-- Assert for 1 us the pins with a function (R423). -/
def pulsePins (s : State) (fn : Nat) : State :=
  let on (k : Fin 2) : Option Nat := if evtFunction s.ks.force.evtOut[k] = fn then some s.time else s.events.pulse[k]
  { s with events := { s.events with pulse := #v[on 0, on 1] } }

/-! ### Arming and reversal -/

/-- The largest position since the estimate was last corrected: where a position that slows down has turned (R276). -/
def peak (s : State) : Int :=
  let k := s.web.est
  let turn := k.at_ + (k.v * Config.secTau / (-k.a)).toNat
  if s.webMoves && decide (k.a < 0) && decide (0 < k.v) && decide (turn < s.time) then max s.pos (k.posAt turn) else s.pos

/-- H: the largest value of M that has been reached since the loop left OFF (R276). -/
def highWater (s : State) : Int := if s.web.st = .off then s.web.hwm else max s.web.hwm s.peak

/-- Refresh the high-water mark and arm the links again when the position exceeds it (R276). -/
def noteHigh (s : State) : State :=
  if s.highWater ≤ s.web.hwm then s else s.updWeb fun w => { w with hwm := s.highWater, armed := true }

/-- A count of -1 in PRESS mode disarms every link and withdraws the markers that have not left (R276). -/
def disarm (s : State) : State := (s.updWeb fun w => { w with armed := false }).withdrawMarkers fun _ _ => true

/-- Lines of a link in a page that have neither a marker that has left nor been passed over. -/
def openLines (p : Page) (n : LinkId) : Nat :=
  let l := p.links[n]
  ((List.range l.lines).filter fun i => decide (l.commit ≤ i) && !l.passed.contains i).length

/-- The last page to fire ends with all of its lines fired or skipped: HALT_DRAIN reports the last line that every link has
(R189, R277). -/
def noteEnded (s : State) : State :=
  match s.seq.lastLine.bind fun x => s.findPage x.2 with
  | some p =>
    if p.active then
      let ns := (s.partLinks.map fun n => p.links[n].lines).filter (· ≠ 0)
      s.updSeq fun q => { q with lastLine := some ((least ns).getD 0, p.id) }
    else s
  | none => s

/-- A declared reversal ends the pass in PASS mode (R277). -/
def endPass (s : State) : State :=
  let s1 := s.withdrawMarkers fun _ _ => true
  let skipped := ((s1.seq.pages.filter Page.active).map fun p => (s1.partLinks.map (openLines p)).sum).sum
  let s2 := (s1.countSkips skipped).noteEnded.endPages.flush
  (s2.updSeq fun q => { q with firstOfPass := true }).settlePages

/-- A reversal is declared once the position has moved REV_HYST counts back from the furthest point (R275). -/
def checkReversal (s : State) : State :=
  let w := s.web
  let back := if w.reverse then w.count - w.furthest else w.furthest - w.count
  if back < (s.ks.force.webCtrl.extractLsb' 0 8).toNat then
    s.updWeb fun x => { x with furthest := if x.reverse then min x.furthest x.count else max x.furthest x.count }
  else
    let s1 := s.updWeb fun x => { x with reverse := !x.reverse, furthest := x.count }
    let s2 := (s1.logWeb 0x0A03 0xFF 0 w.st.code w.st.code 0 0xFFFF).raise 66
    if s.passMode then s2.endPass else s2

/-- By how much a boundary lies ahead of the estimate at a time, scaled by `posDen` (R261). -/
def countError (s : State) (t : Nat) (boundary : Int) : Int :=
  s.web.posOf boundary * posDen - s.web.est.num (4 * (t - s.web.est.at_))

/-- The error of a count is within a part of a count: `k` times it is at most one count (R262). -/
def within (s : State) (err : Int) (k : Nat) : Bool :=
  decide (err.natAbs * k * s.web.cfg.num.toNat ≤ lineUnit.toNat * s.web.cfg.den.toNat * posDen.toNat)

/-- One count of the encoder (R257, R261, R262, R275, R276): the boundary that it crosses is timed, and the loop's error at it
is compared. -/
def oneCount (s : State) (fwd : Bool) : State :=
  let s0 := s.noteHigh
  let next := if fwd then s0.web.count + 1 else s0.web.count - 1
  let boundary := max s0.web.count next
  let err := s0.countError s.time boundary
  let s1 := s0.updWeb fun w => { w with count := next, valid := w.valid + 1 }
  let s2 := if !fwd && !s.passMode then s1.disarm else s1
  match s.web.st with
  | .off | .lost => s2
  | st =>
    let s3 := s2.updWeb fun w => { w with
      lastCount := s.time
      stamps := if st = .coasting then [] else w.stamps ++ [(s.time, boundary)]
      lockRun := if st = .acquire ∧ s.within err 8 = true then w.lockRun + 1 else 0
      offRun := if st = .locked ∧ s.within err 2 = false then w.offRun + 1 else 0 }
    let s4 := if st = .acquire then s3.moveWeb fun w => { w with held := w.posOf w.count } else s3
    let s5 := if st = .coasting then s4 else s4.checkReversal
    s5.noteHigh.settlePages

/-- Edges of A and B (R257, R258): the inputs take the levels given. One edge is a count; both at once cannot be told from one
another, and are less than 2 ns apart, as an edge of one input is that comes so soon after one of the other. -/
def encoderCount (s : State) (a b : Bool) : State :=
  let w := s.web
  let onA := a != w.inA
  let onB := b != w.inB
  let soon (o : Option Nat) : Bool := (o.map fun t => decide (s.time < t + illegalTau)) == some true
  let close := (onA && onB) || (onA && soon w.edgeB) || (onB && soon w.edgeA)
  let edges := List.replicate ((if onA then 1 else 0) + (if onB then 1 else 0)) s.time
  let s1 := s.updWeb fun x => { x with
    inA := a, inB := b
    edgeA := if onA then some s.time else x.edgeA
    edgeB := if onB then some s.time else x.edgeB
    illegal := x.illegal || close
    recent := edges ++ x.recent.filter fun t => decide (s.time < t + Config.usTau) }
  if onA == onB then s1
  else s1.oneCount (((quadrature a b - quadrature w.inA w.inB) % 4 == 1) != w.cfg.invert)

/-! ### Lock, loss and coasting -/

/-- The loop locks, or loses lock (R262): its error has been within 1/8 count at 64 consecutive counts, or no count has come for
1 ms; or its error has been beyond 1/2 count at 4 consecutive counts. -/
def lockChange (s : State) : State :=
  match s.web.st with
  | .acquire =>
    if 64 ≤ s.web.lockRun ∨ s.web.lastCount + Config.msTau ≤ s.time then s.setWeb .locked else s
  | .locked => if 4 ≤ s.web.offRun then s.acquire else s
  | _ => s

/-- The loop enters LOST (R279): the position is held, markers are withdrawn, and the drain halts at once. -/
def webLost (s : State) : State :=
  let before := s.web.st
  let s1 := (s.setWeb .lost).withdrawMarkers fun _ _ => true
  (s1.logWeb 0x0A02 0xFF s.web.lossCause before.code 4 0 0xFFFF).haltNow.raise 65

/-- The condition of an encoder loss holds (R258): a fail-safe for 100 ns, edges of A and B less than 2 ns apart, or more than
40 counts within the last microsecond. -/
def lossHolds (s : State) : EncoderLoss → Bool
  | .failsafe held => decide (Config.usTau / 10 ≤ held)
  | .illegal => s.web.illegal
  | .overrange => decide (40 < (s.web.recent.filter fun t => decide (s.time < t + Config.usTau)).length)

/-- The encoder is lost (R258, R278, R279). -/
def encoderLost (s : State) (loss : EncoderLoss) : State :=
  if !s.lossHolds loss then s
  else
    let cause := lossCode loss
    let s0 := s.updWeb fun w => { w with
      lossCause := if w.st = .off ∨ w.st = .lost then w.lossCause else cause, valid := 0, illegal := false, recent := [] }
    match s.web.st with
    | .locked =>
      let s1 := (s0.setWeb .coasting).updWeb fun w => { w with coastFrom := s.time }
      (s1.logWeb 0x0A02 0xFF cause 2 3 0 0xFFFF).raise 65
    | .acquire => s0.webLost
    | _ => s0

/-- COAST_LIMIT has passed in COASTING (R279). -/
def coastLimit (s : State) : State :=
  if s.web.st = .coasting ∧ s.web.coastFrom + s.web.coastUs * Config.usTau ≤ s.time then s.webLost else s

/-- The count nearest to a position among those that agree with the present levels of A and B modulo 4 (R278). -/
def nearestCount (w : Web) (m : Int) : Int :=
  let c := w.countBase + (m - w.posBase) * w.cfg.num.toNat / (lineUnit * w.cfg.den.toNat)
  let base := c - (c - w.phase) % 4
  let dist (k : Int) : Nat := (w.posOf k - m).natAbs
  if dist base ≤ dist (base + 4) then base else base + 4

/-- 64 valid counts within COAST_LIMIT re-base the count, and the loop is LOCKED again: it takes up the difference between the
position and the count's boundary as its error, at its bandwidth (R261, R278). -/
def encoderRebase (s : State) : State :=
  if s.web.st = .coasting ∧ 64 ≤ s.web.valid ∧ s.time < s.web.coastFrom + s.web.coastUs * Config.usTau then
    let k := nearestCount s.web s.pos
    let s1 := s.updWeb fun w => { w with
      count := k, furthest := if w.reverse then min w.furthest k else max w.furthest k, offRun := 0 }
    s1.setWeb .locked
  else s

/-- What the loop does as its conditions come to hold (R258, R262, R276, R278, R279). -/
def webKeep (s : State) : State :=
  ((((s.noteHigh.encoderLost .illegal).encoderLost .overrange).encoderRebase).coastLimit).lockChange

/-! ### Commitment of markers -/

/-- Position of line `i` of a link in a page, in 1/65,536 line of the travel coordinate (R270). -/
def firePos (p : Page) (n : LinkId) (i : Nat) : Int :=
  p.start * lineUnit + p.links[n].phase + i * p.links[n].pitch

/-- The link carries frames and markers: it is UP and not in training (R251). -/
def carries (s : State) (n : LinkId) : Bool := s.links[n].st == .up && s.links[n].step == .idle

/-- Boundary and fine delay of the marker of an instant (R235, R272). -/
def placeMarker (s : State) (n : LinkId) (instant : Nat) : Int × Nat :=
  let sym : Int := s.symOf n
  let target : Int := instant * 256 - s.links[n].lat * sym
  let b := target / (256 * sym) * sym
  let fine := (2 * (target - b * 256) + sym) / (2 * sym)
  if fine = 256 then (b + sym, 0) else (b, fine.toNat)

/-- The next line of a link that has no marker committed: its page and its index. -/
def nextCommit (s : State) (n : LinkId) : Option (Page × Nat) :=
  s.seq.pages.findSome? fun p =>
    if p.active && decide (p.links[n].commit < p.links[n].lines) then some (p, p.links[n].commit) else none

/-- A halt at the next line boundary lets no line at or beyond that boundary fire (R189). -/
def beyondHalt (s : State) (p : Page) (x : Int) : Bool :=
  match s.seq.haltAt with
  | some (lo, hi) =>
    let edge := if p.reverse && s.passMode then s.travel true (lo * lineUnit) else s.travel false (hi * lineUnit)
    decide (edge ≤ x)
  | none => false

/-- A marker at a boundary keeps clear of the three symbols of the link's other markers (R230). DESIGN CHOICE: the manual says only
that a marker is never placed inside another; a line whose marker would be is skipped (log entry 106). -/
def markClear (s : State) (n : LinkId) (b : Int) : Bool :=
  (s.links[n].lastMark.toList ++ s.links[n].markers.map (·.boundary)).all fun m => decide ((m : Int) + 3 * s.symOf n ≤ b)

/-- What R272 does with a link's next line. -/
inductive Turn where
  | skip | wait
  | commit (boundary : Nat) (fine instant : Nat)

/-- Judge a link's line (R272, R273). -/
def judgeLine (s : State) (n : LinkId) (p : Page) (i : Nat) : Turn :=
  let x := firePos p n i
  if (p.start + p.length) * lineUnit ≤ x then .skip
  else if s.beyondHalt p x || s.clk.stopped || s.power.thermalStop then .wait
  else if !s.passMode && !s.web.armed then .wait
  else if x ≤ s.travelNow p.reverse then .skip
  else
    let sym := s.symOf n
    match s.reaches p.reverse x (s.links[n].lat * sym / 64 + 4 * Config.usTau) with
    | none => .wait
    | some h =>
      if !s.carries n then .skip
      else
        let (b, fine) := s.placeMarker n (s.time + h)
        if b < (s.time : Int) + 64 || !s.markClear n b then .skip else .commit b.toNat fine (s.time + h)

/-- Take a link's lines in turn until the next is not yet due (R272). -/
def commitLink (n : LinkId) : Nat → State → State
  | 0, s => s
  | fuel + 1, s =>
    match s.nextCommit n with
    | none => s
    | some (p, i) =>
      if p.links[n].passed.contains i then
        commitLink n fuel (s.updPageLink p.id n fun l => { l with commit := i + 1 })
      else match s.judgeLine n p i with
        | .wait => s
        | .skip => commitLink n fuel (s.skipLine n p.id i)
        | .commit b fine t =>
          let k : Marker := { page := p.id, line := i, count := p.links[n].lineNo i, boundary := b, fine := fine, instant := t }
          commitLink n fuel ((s.updLink n fun l => { l with markers := l.markers ++ [k] }).updPageLink p.id n fun l =>
            { l with commit := i + 1 })

/-- Commit what is due on every link, then see what the skips bring about. -/
def commitAll (s : State) : State :=
  let fuel (n : LinkId) : Nat := (s.seq.pages.map fun p => p.links[n].lines - p.links[n].commit).sum + 1
  ((s.partLinks.foldl (fun acc n => commitLink n (fuel n) acc) s).checkFloor).settlePages

/-- By how much a position without counts has left the count interval that it last entered, scaled by `posDen` (R258). -/
def strayed (s : State) : Int :=
  let m := s.web.est.num (4 * (s.time - s.web.est.at_))
  let lo := s.web.posOf s.web.count * posDen
  let hi := s.web.posOf (s.web.count + 1) * posDen
  if m < lo then lo - m else if hi < m then hi - m else 0

/-- The loop's error at an update: the mean of the errors of the counts since the last one, or how far the position has strayed
without any (R258, R261). In 2^-32 line. -/
def loopError (s : State) : Int :=
  let es := s.web.stamps.map fun x => s.countError x.1 x.2
  (if es = [] then s.strayed else es.sum / es.length) * 65536 / posDen

/-- The three states after an error (R261): a third-order loop with three equal poles at 2 pi BANDWIDTH. DESIGN CHOICE: the manual
gives the loop's order, damping and bandwidth; the sums that bring them about are the model's (log entry 12). -/
def correct (s : State) (err : Int) : Motion :=
  let k := s.estNow
  let w : Nat := 6283185307 * s.web.cfg.bandwidth.toNat
  let g : Nat := 1000000000
  let t : Nat := min (s.time - s.web.est.at_) (g * Config.secTau / (3 * w + 1))
  { k with
    p := wrapPos (k.p + 3 * w * t * err / (g * Config.secTau * 65536))
    v := k.v + 3 * w * w * t * err / (g * g * Config.secTau * 65536)
    a := k.a + w * w * w * t * err / (g * g * g * Config.secTau * 65536) }

/-- One update of the loop, every 64 CCK (R261), and what it commits (R272). -/
def loopUpdate (s : State) : State :=
  if s.time < s.web.updated + loopTau then s
  else
    let s0 := s.noteHigh
    let err := s0.loopError
    let corrects := s0.web.st == .locked || s0.web.st == .acquire
    let s1 := if corrects && (s0.web.stamps != [] || err != 0) then
        s0.moveWeb fun w => { w with est := s0.correct err, stamps := [] }
      else s0
    ((s1.updWeb fun w => { w with updated := s.time }).noteHigh).commitAll

/-! ### Fire phases (R274) -/

/-- A line is skipped under the command's own evaluation: its new instant has passed, or falls before its marker could
leave. -/
def phaseSkips (s : State) (n : LinkId) (p : Page) (i : Nat) : Bool :=
  let x := firePos p n i
  if (p.start + p.length) * lineUnit ≤ x then false
  else if x ≤ s.travelNow p.reverse then true
  else match s.reaches p.reverse x (s.links[n].lat * s.symOf n / 64 + 4 * Config.usTau) with
    | none => false
    | some h => decide ((s.placeMarker n (s.time + h)).1 < (s.time : Int) + 64)

/-- Lines that a phase change skips. -/
def phaseSkipped (s : State) (n : LinkId) : Nat :=
  ((s.seq.pages.filter Page.active).map fun p =>
    ((List.range p.links[n].lines).filter fun i =>
      decide (p.links[n].commit ≤ i) && !p.links[n].passed.contains i && s.phaseSkips n p i).length).sum

/-! ### Index, marks and page boundaries -/

/-- A rising edge of Z (R259). -/
def indexEdge (s : State) : State :=
  if s.web.st = .off then s
  else
    let s1 := s.updWeb fun w => { w with indexRef := some w.count }
    match s.web.indexRef with
    | none => s1
    | some r =>
      let d := s.web.count - r
      let period : Int := (s.ks.force.webCtrl.extractLsb' 8 24).toNat
      if period = 0 ∨ d.natAbs = period.natAbs then s1
      else (s1.updWeb fun w => { w with slips := satAdd 0xFF w.slips 1 }).logWeb 0x0A04 0xFF 0 s.web.st.code s.web.st.code
        (if d < 0 then d + period else d - period) 0xFFFF

/-- A MARK edge is seen when the input has held its new level for FILTER x 0.1 us; its position is M at the instant of the
crossing, which lies as far back (R280, R281). -/
def markSeen (s : State) (rising : Bool) (held : Nat) : State :=
  let c := s.ks.force.markCtrl.toNat
  let w := s.ks.force.markWin
  let crossed := ((s.web.motionAt (s.time - held)).posAt (s.time - held))
  let seen := (rising == (bits c 30 1 == 0)) && held == s.markReach
  if !seen then s
  else
    let u := s.travel s.web.reverse crossed
    let lo := (w.extractLsb' 16 16).toInt
    let len : Int := (w.extractLsb' 0 16).toNat
    let inside := len == 0 || match s.web.lastStart with
      | some st => decide ((st + lo) * lineUnit ≤ u) && decide (u < (st + lo + len) * lineUnit)
      | none => false
    let beyond := match s.web.markLast with
      | some m => decide ((bits c 16 14 : Int) * lineUnit ≤ (if s.web.reverse then m - crossed else crossed - m))
      | none => true
    if !inside then s.updWeb fun x => { x with outside := satAdd 0xFF x.outside 1 }
    else if bits c 31 1 == 0 then s
    else if beyond then
      ((s.updWeb fun x => { x with
        markPos := crossed, markLast := some crossed, accepted := satAdd 0xFFFF x.accepted 1
        chatterRaised := false }).pulsePins 8).raise 67
    else
      let s1 := s.updWeb fun x => { x with chatter := satAdd 0xFFFF x.chatter 1, chatterRaised := true }
      let l := s1.logs.error
      match if s.web.chatterRaised then l.reverse.findIdx? fun e => e.type = 0x0A05 else none with
      | some k =>
        let more (e : LogEntry) : LogEntry :=
          { e with merged := satAdd 255 e.merged 1, body := e.body + BitVec.twoPow 416 96 }
        { s1 with logs := { s1.logs with error := l.modify (l.length - 1 - k) more } }
      | none =>
        let s2 := s1.logWeb 0x0A05 0xFF 0 s.web.st.code s.web.st.code 1 0xFFFF
        if s.web.chatterRaised then s2 else s2.raise 67

/-- The position reaches the start line of a page (R171). -/
def pageBoundary (s : State) (id : BitVec 16) : State :=
  match s.findPage id with
  | none => s
  | some p =>
    if p.active && !p.passed && decide (p.start * lineUnit ≤ s.travelNow p.reverse) then
      let s1 := (s.updPage id fun q => { q with passed := true }).updWeb fun w => { w with lastStart := some p.start }
      ((s1.pulsePins 7).raise 75).settlePages
    else s

/-! ### WEB_CONFIG in force (R169, R264) -/

/-- NUM, DEN, MODE and INVERT of a configuration take force; the position does not step. -/
def ratioInForce (s : State) (c : WebCfg) : State :=
  let s1 := s.updWeb fun w => Web.align { w with
    countBase := w.count, posBase := w.posOf w.count, pending := none
    cfg := { w.cfg with num := c.num, den := c.den, pass := c.pass, invert := c.invert } }
  if s.web.cfg.pass && !c.pass then
    let gone := s1.seq.pages.filter fun p => !p.active && p.reverse
    if gone = [] then s1
    else
      let s2 := gone.foldl (fun acc p => acc.logCourse 0x0207 0xFF 0xFF 0xFF 0xFF (acc.slotNow acc.lead) 0xFFFF p.id.toNat 0) s1
      (s2.cancelPages fun p => p.reverse).raise 87
  else if !s.web.cfg.pass && c.pass then s1.updSeq fun q => { q with firstOfPass := true }
  else s1

/-- A keystone commits a WEB_CONFIG (R264, R279). -/
def commitWeb (s : State) (c : WebCfg) : State :=
  match s.web.st with
  | .off =>
    let s1 := s.updWeb fun w => Web.align { w with
      cfg := c, hwm := w.held, armed := true, reverse := false, indexRef := none
      countBase := w.count, posBase := w.held, furthest := w.count }
    s1.acquire
  | st =>
    let s1 := s.updWeb fun w => { w with
      cfg := { w.cfg with bandwidth := c.bandwidth, coast := c.coast }
      pending := if w.cfg.num = c.num ∧ w.cfg.den = c.den ∧ w.cfg.pass = c.pass ∧ w.cfg.invert = c.invert then none
        else some c }
    if st = .lost then s1.rebase.acquire else s1

/-- A change that waits for a halt takes force (R264). -/
def settleWeb (s : State) : State :=
  match s.web.pending with
  | some c => if s.drainHalted then s.ratioInForce c else s
  | none => s

end State

/-! ### Meanings -/

/-- WEB_CONFIG loads KS shadows (R264). -/
def bodyWebConfig (c : Cmd) (s : State) : State :=
  let w : WebCfg := { num := BitVec.ofNat 24 (c.f 0 0 24), den := BitVec.ofNat 24 (c.f 1 0 24)
                      bandwidth := BitVec.ofNat 12 (c.f 2 0 12), pass := c.f 2 16 1 == 1, invert := c.f 2 17 1 == 1
                      coast := BitVec.ofNat 12 (c.f 3 0 12) }
  { s with ks := { s.ks with shadow := { s.ks.shadow with web := w, webSet := true } } }.succeed c.id

/-- FIRE_PHASE (R172, R274). DEDUCED: a FIRE_PHASE with NOW at 1 takes the place of one with NOW at 0 that still waits for its
page (log entry 103). -/
def bodyFirePhase (c : Cmd) (s : State) : State :=
  let n : LinkId := Fin.ofNat 32 (c.f 0 0 5)
  let phi : Int := (BitVec.ofNat 32 (c.p 1)).toInt * lineUnit + c.f 2 0 16
  if c.f 0 8 1 = 1 then
    let s1 := s.updSeq fun q => { q with pages := q.pages.map fun p =>
      if p.active then { p with links := vmod p.links n fun l => { l with phase := phi } } else p }
    let s2 := s1.updLink n fun l => { l with phase := phi, phaseNext := none }
    let k := s2.phaseSkipped n
    let s3 := if k = 0 then s2 else s2.logWeb 0x0A06 n.val 0 s.web.st.code s.web.st.code k 0xFFFF
    s3.succeed c.id k
  else (s.updLink n fun l => { l with phaseNext := some phi }).succeed c.id

/-- WAVE_BANK loads KS shadows, of one link or of every link that the part has (R283). -/
def bodyWaveBank (c : Cmd) (s : State) : State :=
  let w : WaveCfg := { fixed := c.f 0 8 1 == 1, bank := Fin.ofNat 4 (c.f 0 12 2), up := BitVec.ofNat 18 (c.f 1 0 18)
                       down := BitVec.ofNat 18 (c.f 2 0 18) }
  let sel (n : LinkId) : Bool := decide (n.val < s.part.links) && (c.f 0 31 1 == 1 || n.val == c.f 0 0 5)
  let k := s.ks.shadow
  { s with ks := { s.ks with shadow := { k with
      wave := Vector.ofFn fun n : LinkId => if sel n then w else k.wave[n]
      waveSet := (List.finRange 32).foldl (fun acc n => if sel n then acc ||| BitVec.twoPow 32 n.val else acc)
        k.waveSet } } }.succeed c.id

/-! ### Rows of the table -/

/-- WEB_CONFIG. -/
def execWebConfig (c : Issue) (s : State) : Host.Outcome State Fault Refusal := .next (s.submit 0x32 bodyWebConfig c)

/-- FIRE_PHASE. -/
def execFirePhase (c : Issue) (s : State) : Host.Outcome State Fault Refusal := .next (s.submit 0x33 bodyFirePhase c)

/-- WAVE_BANK. -/
def execWaveBank (c : Issue) (s : State) : Host.Outcome State Fault Refusal := .next (s.submit 0x34 bodyWaveBank c)

/-- LOOP_UPDATE (R261, R272). -/
def execLoopUpdate (s : State) : Host.Outcome State Fault Refusal := .next (s.inCore State.loopUpdate)

/-- ENCODER_COUNT (R257): the inputs A and B take new levels. -/
def execEncoderCount (a b : Bool) (s : State) : Host.Outcome State Fault Refusal := .next (s.inCore fun t => t.encoderCount a b)

/-- WEB_LOCK_CHANGE (R262). -/
def execWebLockChange (s : State) : Host.Outcome State Fault Refusal := .next (s.inCore State.lockChange)

/-- ENCODER_LOST (R258). -/
def execEncoderLost (cause : EncoderLoss) (s : State) : Host.Outcome State Fault Refusal := .next (s.inCore fun t => t.encoderLost cause)

/-- ENCODER_REBASE (R278). -/
def execEncoderRebase (s : State) : Host.Outcome State Fault Refusal := .next (s.inCore State.encoderRebase)

/-- COAST_LIMIT (R279). -/
def execCoastLimit (s : State) : Host.Outcome State Fault Refusal := .next (s.inCore State.coastLimit)

/-- INDEX_SLIP: a Z edge (R259). -/
def execIndexSlip (s : State) : Host.Outcome State Fault Refusal := .next (s.inCore State.indexEdge)

/-- INDEX_FAILSAFE: a fail-safe on Z is logged and is not a loss (R259). The manual names no entry type for it, so the type is
a free value. -/
def execIndexFailsafe (s : State) : Host.Outcome State Fault Refusal :=
  .next (s.inCore fun t => t.useFree.logWeb ((Config.openDword t.free).toNat % 65536) 0xFF 0 t.web.st.code t.web.st.code 0 0xFFFF)

/-- MARK_SEEN (R280, R281). -/
def execMarkSeen (rising : Bool) (held : Nat) (s : State) : Host.Outcome State Fault Refusal :=
  .next (s.inCore fun t => t.markSeen rising held)

/-- PAGE_BOUNDARY (R171). -/
def execPageBoundary (page : BitVec 16) (s : State) : Host.Outcome State Fault Refusal := .next (s.inCore fun t => t.pageBoundary page)

end Sys2Proof.Machine
end

