-- ==== Sys2Proof/Machine/Links.lean ====
section
/-! DEFINITION. The Funil links (R226 to R256): states, the fall to DOWN, training and latency, LINE frames and no-data, FIRE
markers, messages and return frames. -/

namespace Sys2Proof.Machine

/-- PRBS-31 bits from a register of 31 bits (R241): the bit is that of x^31 + x^28 + 1. -/
def prbsBits : Nat → Nat → List Bool
  | 0, _ => []
  | n + 1, r =>
    let b := (r / 2 ^ 30 + r / 2 ^ 27) % 2
    (b == 1) :: prbsBits n ((2 * r + b) % 2 ^ 31)

/-- Bytes from bits, least significant bit first. -/
def packBits : Nat → List Bool → List Byte
  | 0, _ => []
  | n + 1, bs =>
    BitVec.ofNat 8 (((bs.take 8).zipIdx.map fun x => if x.1 then 2 ^ x.2 else 0).sum) :: packBits n (bs.drop 8)

/-- The payload of a TEST frame: 2,304 bytes of PRBS-31 started from all-ones (R241). -/
def testPayload : List Byte := packBits 2304 (prbsBits 18432 (2 ^ 31 - 1))

/-- Put a value into an ascending list. -/
def ascend (x : Nat) : List Nat → List Nat
  | [] => [x]
  | y :: ys => if x ≤ y then x :: y :: ys else y :: ascend x ys

/-- Twice the median of a list (R244, R245): of an even number of values, the sum of the two in the middle. -/
def median2 (l : List Nat) : Nat :=
  let s := l.foldr ascend []
  let k := s.length
  if k = 0 then 0 else s.getD ((k - 1) / 2) 0 + s.getD (k / 2) 0

/-- LAT from round trips (R244), rounded to the nearest 1/256 symbol. -/
def latOf (b : Board) (trips : List Nat) : Int := ((median2 trips : Int) - 2 * b.turnaround + 4 * b.fireLatency + 2) / 4

/-- Limit of a training step in tau (R241). -/
def TrainStep.limit : TrainStep → Nat
  | .search => 10 * Config.msTau
  | .ident => Config.msTau
  | .test | .status => 5 * Config.msTau
  | .measure => 2 * Config.msTau
  | .idle => 0

/-- Number of a training step in a TRAIN_FAILED entry. -/
def TrainStep.number : TrainStep → Nat
  | .idle => 0 | .search => 1 | .ident => 2 | .test | .status => 3 | .measure => 4

/-- Cause with which a step fails at its limit (R241). -/
def TrainStep.cause : TrainStep → Nat
  | .idle => 0 | .search => 1 | .ident => 2 | .test | .status => 5 | .measure => 6

/-- A board's declarations (R247). -/
def Board.of (w : BitVec 256) : Board :=
  { identity := w.extractLsb' 0 32, rates := w.extractLsb' 40 8, buffers := (w.extractLsb' 48 8).toNat
    maxWords := (w.extractLsb' 64 16).toNat, minFrameLead := (w.extractLsb' 80 16).toNat
    fireLatency := (w.extractLsb' 96 32).toNat, turnaround := (w.extractLsb' 128 32).toNat }

/-- A return frame of a type is valid (R247, R248): its payload has a length of the type, and its CRC is right. -/
def goodReturn (f : ReturnFrame) (rtype lo hi : Nat) : Bool :=
  decide (lo ≤ f.payload.length) && decide (f.payload.length ≤ hi) &&
    f.crc == crc32 (leBytes 1 rtype ++ [f.seq] ++ leBytes 2 f.payload.length ++ leBytes 4 0 ++ f.payload)

namespace State

/-! ### Entries and states -/

/-- Fields of a link log entry (R256). -/
def linkFields (n : LinkId) (cause before after count page line : Nat) : List Nat :=
  [fld 12 1 n.val, fld 13 1 cause, fld 14 1 before, fld 15 1 after, fld 16 4 count, fld 20 2 page, fld 22 2 line]

/-- A change of state raises source 16 + n (R251). -/
def setLink (s : State) (n : LinkId) (st : LinkState) : State :=
  if s.links[n].st = st then s else (s.updLink n fun l => { l with st := st }).raiseLink n

/-- The link has lines in a FILLING or FIRING page. -/
def hasLines (s : State) (n : LinkId) : Bool := s.seq.pages.any fun p => p.active && p.links[n].lines != 0

/-- The link has lines in a FILLING or FIRING page that have neither fired nor been skipped. -/
def carriesLines (s : State) (n : LinkId) : Bool :=
  s.seq.pages.any fun p => p.active && decide (s.doneLines p n < p.links[n].lines)

/-- The first line of a link whose marker has not left: count, page and line, or all-ones. -/
def firstOpen (s : State) (n : LinkId) : Nat × Nat × Nat :=
  match s.links[n].markers.find? fun m => !m.sent with
  | some m => (m.count, m.page.toNat, m.line)
  | none => match s.nextCommit n with
    | some (p, i) => (p.links[n].lineNo i, p.id.toNat, i)
    | none => (0xFFFFFFFF, 0xFFFF, 0xFFFF)

/-- An UP link goes DOWN (R252): the entry holds the last STATUS payload. -/
def goDown (s : State) (n : LinkId) (cause : Nat) : State :=
  if s.links[n].st ≠ .up then s
  else
    let (count, page, line) := s.firstOpen n
    let s1 := s.logLinkRun 0x0901 (fld 24 16 s.links[n].lastStatus.toNat ::
      linkFields n cause LinkState.up.code LinkState.down.code count page line)
    (s1.updLink n fun l => { l with downCause := cause }).setLink n .down

/-! ### Training (R241 to R244) -/

/-- A LINK_TRAIN completes once none of its links is still in training (R242). -/
def settleTrain (s : State) (id : Nat) : State :=
  match s.findCmd id with
  | none => s
  | some c =>
    if c.mask ≠ 0 then s
    else
      let links := s.partLinks.filter fun n => (c.passed ||| c.failed).getLsbD n.val
      let s1 := links.foldl (fun acc n => acc.raiseLink n) s
      if c.noAnswer then s1.fail id .timeout 0 c.passed.toNat c.failed.toNat
      else s1.succeed id c.passed.toNat c.failed.toNat

/-- A link leaves training: its command records the result. -/
def trainEnd (s : State) (n : LinkId) (ok silent : Bool) : State :=
  let bit := BitVec.twoPow 32 n.val
  let s1 := s.updLink n fun l => { l with step := .idle, trainCmd := none }
  match s.links[n].trainCmd with
  | none => s1
  | some id =>
    (s1.updCmd id fun c => { c with
      mask := c.mask &&& ~~~bit
      passed := if ok then c.passed ||| bit else c.passed
      failed := if ok then c.failed else c.failed ||| bit
      noAnswer := c.noAnswer || silent }).settleTrain id

/-- A training that is under way ends as failed, when another command trains the link, when its settings change, or when it loses
its domain. DESIGN CHOICE: the manual gives such an end no cause, so no entry is written (log entry 105). -/
def trainStop (s : State) (n : LinkId) : State := if s.links[n].trainCmd.isSome then s.trainEnd n false false else s

/-- The link is not enabled, or its domain is off: DISABLED and undriven (R228, R251). It falls to DOWN first under lines. -/
def disableLink (s : State) (n : LinkId) : State :=
  let s1 := s.trainStop n
  let s2 := if s1.carriesLines n then s1.goDown n 7 else s1
  if s2.links[n].st = .disabled then s2 else (s2.updLink n fun l => { l with rate := 3 }).setLink n .disabled

/-- The link is enabled at a rate that its settings in force give it anew: UNTRAINED (R251). -/
def enableLink (s : State) (n : LinkId) (rate : Fin 3) : State :=
  (s.updLink n fun l => { l with rate := rate.castSucc }).setLink n .untrained

/-- Put link settings in force (R251): a link that is disabled or changes its rate under lines falls to DOWN first. -/
def applyLink (s : State) (n : LinkId) (old new : LinkCfg) : State :=
  if s.links[n].st = .absent then s
  else if !new.enable then s.disableLink n
  else if !s.domainOn (linkDomain n).val then s
  else if !old.enable || s.links[n].st == .disabled then s.enableLink n new.rate
  else if old.rate ≠ new.rate then
    let s1 := s.trainStop n
    (if s1.carriesLines n then s1.goDown n 7 else s1).enableLink n new.rate
  else s

/-- Training fails for a link with a cause (R241, R242). -/
def trainFail (s : State) (n : LinkId) (cause : Nat) : State :=
  let l := s.links[n]
  let s1 := s.logLinkRun 0x0902
    (fld 24 1 l.step.number :: linkFields n cause l.st.code LinkState.untrained.code 0xFFFFFFFF 0xFFFF 0xFFFF)
  ((s1.updLink n fun l => { l with trainCause := cause }).setLink n .untrained).trainEnd n false (cause == 1 || cause == 2)

/-- The lines of a link that are neither fired nor skipped are numbered from 0 (R233, R253). -/
def renumber (s : State) (n : LinkId) : State :=
  let (pages, count) := s.seq.pages.foldl (fun (acc : List Page × Nat) p =>
    if p.active then
      let l := p.links[n]
      let base := (acc.2 + 2 ^ 32 - l.commit) % 2 ^ 32
      (acc.1 ++ [{ p with links := vset p.links n { l with base := base } }], acc.2 + (l.lines - l.commit))
    else (acc.1 ++ [p], acc.2)) ([], 0)
  (s.updSeq fun q => { q with pages := pages }).updLink n fun l => { l with count := count }

/-- Training passes (R241 step 5, R244): FLUSH, then SEQ and the link line count are 0. An UP link stays UP (R242). -/
def trainPass (s : State) (n : LinkId) : State :=
  let lat := (latOf s.links[n].board s.links[n].trips).toNat
  let s1 := ((s.sendFrame n 3 0 0 0 0xFFFF 0 []).updLink n fun l => { l with
    seq := 0, held := [], lat := lat, latTrained := lat, trips := [], sinceEcho := 0, awaited := []
    marked := 0, statuses := [], lastReturn := s.time }).renumber n
  let next := match s.links[n].st with
    | .untrained => if s.hasLines n then LinkState.rejoin else LinkState.up
    | .down => LinkState.rejoin
    | x => x
  (s1.setLink n next).trainEnd n true false

/-- Go on to a training step. -/
def enterStep (s : State) (n : LinkId) (st : TrainStep) : State := s.updLink n fun l => { l with step := st, stepStart := s.time }

/-- The present step of a link's training has its limit still ahead. -/
def inTime (s : State) (n : LinkId) : Bool := decide (s.time ≤ s.links[n].stepStart + s.links[n].step.limit)

/-- A link starts training from step 1. -/
def trainStart (s : State) (id : Nat) (n : LinkId) : State :=
  ((s.trainStop n).updLink n fun l => { l with
    trainCmd := some id, testFrames := 0, testBad := false, echoes := 0, trips := [], awaited := [] }).enterStep n .search

/-- Send a frame that the board answers by a return frame with its SEQ (R247). -/
def sendAsking (s : State) (n : LinkId) (ftype : Nat) : State :=
  (s.sendFrame n ftype 0 0 0 0xFFFF 0 []).updLink n fun l => { l with awaited := l.awaited ++ [s.links[n].seq] }

/-- A return frame is the answer to a frame of the device: that one is not awaited any more. -/
def answered (s : State) (n : LinkId) (seq : Byte) : State := s.updLink n fun l => { l with awaited := l.awaited.erase seq }

/-- A return frame that is not valid is discarded and counted (R248). -/
def badReturn (s : State) (n : LinkId) : State := s.updLink n fun l => { l with badReturns := l.badReturns + 1 }

/-- A valid return frame has come (R252). -/
def heard (s : State) (n : LinkId) : State := s.updLink n fun l => { l with lastReturn := s.time }

/-- A return frame of a type arrives: one that is not valid is discarded (R247, R248). -/
def onReturn (s : State) (n : LinkId) (f : ReturnFrame) (rtype lo hi : Nat) (act : State → State) : State :=
  if goodReturn f rtype lo hi then act (s.heard n) else s.badReturn n

/-- Step 1 passes once the lane has shown comma alignment for 1,024 symbols (R241). -/
def comma (s : State) (n : LinkId) (symbols : Nat) : State :=
  if s.links[n].step = .search ∧ s.inTime n = true ∧ 1024 ≤ symbols then (s.sendAsking n 6).enterStep n .ident else s

/-- An IDENT frame in step 2 (R241, R247). -/
def ident (s : State) (n : LinkId) (f : ReturnFrame) : State :=
  if s.links[n].step = .ident ∧ s.inTime n = true ∧ s.links[n].awaited.contains f.seq = true then
    let b := Board.of (BitVec.ofNat 256 (leNat f.payload))
    let s0 := s.answered n f.seq
    if !b.rates.getLsbD s.links[n].rate.val then s0.trainFail n 3
    else if b.buffers < 2 ∨ 16 < b.buffers ∨ b.maxWords < 1 ∨ 1024 < b.maxWords then s0.trainFail n 4
    else
      let s1 := s0.updLink n fun l => { l with board := b }
      ((List.range 256).foldl (fun acc _ => acc.sendFrame n 4 0 2304 0 0xFFFF 0 testPayload) s1).enterStep n .test
  else s

/-- A TEST return frame in step 3. -/
def testReturn (s : State) (n : LinkId) (f : ReturnFrame) : State :=
  if s.links[n].step = .test ∧ s.inTime n = true then
    s.updLink n fun l => { l with
      testFrames := l.testFrames + 1, testBad := l.testBad || f.payload != testPayload
      step := if 256 ≤ l.testFrames + 1 then .status else .test }
  else s

/-- The next of the 64 ECHO frames of step 4. -/
def measureEcho (s : State) (n : LinkId) : State :=
  let l := s.links[n]
  if l.step = .measure ∧ l.echoes < 64 ∧ l.stepStart + l.echoes * 4096 * s.symOf n ≤ s.time then
    (s.sendAsking n 5).updLink n fun l => { l with echoes := l.echoes + 1 }
  else s

/-- A training step's limit has passed (R241). -/
def stepTimeout (s : State) (n : LinkId) : State :=
  let st := s.links[n].step
  if st = .idle ∨ s.inTime n = true then s else s.trainFail n st.cause

/-! ### What a frame may do next (R238 to R240) -/

/-- A line may no longer be framed: it has been skipped, or its marker has left. -/
def framePast (s : State) (p : Page) (n : LinkId) (i : Nat) : Bool :=
  p.links[n].passed.contains i ||
    (decide (i < p.links[n].commit) && !(s.links[n].markers.any fun m => m.page = p.id && m.line == i && !m.sent))

/-- The next line of a link to be framed: its page and its index (R238). -/
def nextFrame (s : State) (n : LinkId) : Option (Page × Nat) :=
  s.seq.pages.findSome? fun p =>
    if p.active then
      ((List.range p.links[n].lines).find? fun i => decide (p.links[n].frame ≤ i) && !s.framePast p n i).map fun i => (p, i)
    else none

/-- The board can take the frame of a link line count (R238). -/
def boardTakes (s : State) (n : LinkId) (count : Nat) : Bool :=
  let l := s.links[n]
  decide (l.held.length < l.board.buffers) && l.held.all fun h => decide ((count + 2 ^ 32 - h) % 2 ^ 32 < 16)

/-- Symbol boundary at which the marker of a line leaves, as committed or as the estimate has it now. -/
def departure (s : State) (n : LinkId) (p : Page) (i : Nat) : Option Int :=
  match s.links[n].markers.find? fun m => m.page = p.id && m.line == i with
  | some m => some m.boundary
  | none =>
    (s.reaches p.reverse (firePos p n i) (10 * Config.secTau)).map fun h => (s.placeMarker n (s.time + h)).1

/-- A frame of so many symbols ends, with its two idles, before a LINE frame could next start (R240). -/
def gapFits (s : State) (n : LinkId) (symbols : Nat) : Bool :=
  decide (s.links[n].laneFree ≤ s.time) &&
    match s.nextFrame n with
    | none => true
    | some (p, i) =>
      if !s.carries n then true
      else if s.boardTakes n (p.links[n].lineNo i) then false
      else
        let next := match s.links[n].markers.find? fun m => !m.sent with
          | some m => some (m.boundary : Int)
          | none => (s.nextCommit n).bind fun x => s.departure n x.1 x.2
        match next with
        | none => true
        | some b => decide ((s.time : Int) + (symbols + 2) * s.symOf n ≤ b)

/-- The slot of a line. -/
def slotOf (s : State) (n : LinkId) (page : BitVec 16) (i : Nat) : Option Slot :=
  s.links[n].slots.find? fun x => x.page = page && x.line == i

/-- The wave bank of a frame (R283). -/
def waveBank (s : State) (n : LinkId) (pitch : Nat) : Fin 4 :=
  let w := s.ks.force.wave[n]
  if w.fixed then w.bank
  else
    let v := s.estNow.v.natAbs
    if w.up.toNat * pitch ≤ v then 1
    else if v ≤ w.down.toNat * pitch ∨ s.links[n].autoStarted = false then 0
    else s.links[n].bank

/-- Write a drain log entry (R211). -/
def logDrain (s : State) (type : Nat) (n : LinkId) (cause engine strip page stripLine line value : Nat) : State :=
  s.logErr type 255 [fld 12 1 n.val, fld 13 1 cause, fld 14 1 (if cause = 4 then 0x0C else if cause = 5 ∨ cause = 6 then 0x0A
    else 0), fld 15 1 engine, fld 16 4 strip, fld 20 2 page, fld 24 4 stripLine, fld 28 4 line, fld 32 8 value]

/-- The number of a link's engine in a log entry, 0xFF for none. -/
def engineNo (s : State) (n : LinkId) : Nat := (s.links[n].engine.map (·.val)).getD 0xFF

/-- The link reads an uncorrectable word from a slot (R219): the line is poisoned with cause SLOT_UE. DESIGN CHOICE: R211 gives
bytes 32 to 39 for the causes 1 to 7 only; with cause 8 they hold the address of the slot word (log entry 104). -/
def slotUe (s : State) (n : LinkId) (p : Page) (i : Nat) (addr : Nat) : State :=
  let l := p.links[n]
  let s1 := s.updLink n fun k => { k with slots := k.slots.map fun x =>
    if x.page = p.id ∧ x.line = i then { x with poison := true } else x }
  (s1.logDrain 0x0801 n 8 (s.engineNo n) l.strip.toNat p.id.toNat (l.firstLine + i) i addr).raise 86

/-- Send the LINE frame of a line: flags, bank and payload (R234). -/
def sendLine (s : State) (n : LinkId) (p : Page) (i flag : Nat) (payload : List Byte) : State :=
  let l := p.links[n]
  let bank := s.waveBank n l.pitch
  let last := if i + 1 = l.lines then 4 else 0
  let words := if l.blank then s.links[n].board.maxWords else s.pageWords l
  let s1 := s.sendFrame n 1 (flag + last + 16 * bank.val) words (l.lineNo i) p.id i payload
  (s1.updLink n fun k => { k with held := k.held ++ [l.lineNo i], bank := bank, autoStarted := true }).updPageLink p.id n
    fun k => { k with frame := i + 1 }

/-- Count a LINE frame sent NO_DATA. -/
def countNoData (s : State) (n : LinkId) : State := s.updLink n fun l => { l with noData := satAdd 0xFFFF l.noData 1 }

/-- The line width of a link in a page exceeds the MAX_WORDS that its board has declared (R254). -/
def tooWide (s : State) (n : LinkId) (l : PageLink) : Bool := decide (s.links[n].board.maxWords < s.pageWords l)

/-- Send the next LINE frame of a link if it may go out (R234, R238, R250, R254). -/
def lineFrame (s : State) (n : LinkId) (ue : SlotRead) : State :=
  match s.nextFrame n with
  | none => s
  | some (p, i) =>
    let l := p.links[n]
    if !s.carries n || !s.boardTakes n (l.lineNo i) || decide (s.time < s.links[n].laneFree) then s
    else if l.blank then s.sendLine n p i 2 []
    else match s.slotOf n p.id i with
      | none => s
      | some x =>
        if !x.complete then s
        else if s.tooWide n l then (s.sendLine n p i 8 []).countNoData n
        else if x.poison then s.sendLine n p i 1 []
        else match ue with
          | .good => s.sendLine n p i 0 x.image
          | .badBefore a => (s.slotUe n p i a.toNat).sendLine n p i 1 []
          | .badDuring a k =>
            let s1 := (s.slotUe n p i a.toNat).sendLine n p i 0 (x.image.take k)
            let s2 := match s1.out with
              | .frame m h bytes _ :: before => { s1 with out := .abortedFrame m h bytes :: before }
              | _ => s1
            (s2.updLink n fun z => { z with
              aborted := satAdd 0xFFFF z.aborted 1, laneFree := z.laneFree - 4 * s.symOf n }).logLinkRun 0x0904
                (linkFields n 0 3 3 (l.lineNo i) p.id.toNat i)

/-- The deadline of a line's frame has come (R238). -/
def deadline (s : State) (n : LinkId) (p : Page) (i : Nat) : Bool :=
  match s.departure n p i with
  | none => false
  | some b =>
    let lb := lineBytes (s.pageWords p.links[n])
    decide (b ≤ (s.time : Int) + (s.frameLead n + 25 + lb) * s.symOf n)

/-- A NO_DATA frame goes out at the deadline of a line whose slot is not complete; when the board cannot take it, no frame is
sent for the line (R238). -/
def noDataFrame (s : State) (n : LinkId) : State :=
  match s.nextFrame n with
  | none => s
  | some (p, i) =>
    let l := p.links[n]
    let complete := l.blank || ((s.slotOf n p.id i).map (·.complete)).getD false
    if !s.carries n || complete || !s.deadline n p i then s
    else if s.boardTakes n (l.lineNo i) && decide (s.links[n].laneFree ≤ s.time) then
      ((s.sendLine n p i 8 []).countNoData n).logLinkRun 0x0903 (linkFields n 0 3 3 (l.lineNo i) p.id.toNat i)
    else s.updPageLink p.id n fun k => { k with frame := i + 1 }

/-! ### Markers and fire instants -/

/-- The first committed marker leaves at its boundary (R235); none leaves for a link that is not UP, and its line is then skipped
(R251, R253). -/
def fireMarker (s : State) (n : LinkId) : State :=
  match s.links[n].markers.find? fun m => !m.sent with
  | none => s
  | some m =>
    if s.time < m.boundary then s
    else if !s.carries n then
      let s1 := s.updLink n fun l => { l with markers := l.markers.filter fun k => k ≠ m }
      (((s1.freeSlot n m.page m.line).countSkips 1).noteSkip m.page).checkFloor.settlePages
    else
      (s.emit (.marker n m.boundary m.fine (BitVec.ofNat 8 m.count))).updLink n fun l => { l with
        markers := l.markers.map fun k => if k = m then { k with sent := true } else k
        lastMark := some m.boundary, marked := l.marked + 1, sinceEcho := l.sinceEcho + 1
        held := l.held.filter fun h => 0 < (h + 2 ^ 32 - m.count) % 2 ^ 32 ∧ (h + 2 ^ 32 - m.count) % 2 ^ 32 < 2 ^ 31
        laneFree := if s.time < l.laneFree then l.laneFree + 3 * s.symOf n else l.laneFree }

/-- A line's fire instant passes (R171, R218): its slot is free. -/
def fireInstant (s : State) (n : LinkId) : State :=
  match s.links[n].markers.find? fun m => m.sent && decide (m.instant ≤ s.time) with
  | none => s
  | some m =>
    let s1 := s.updLink n fun l => { l with markers := l.markers.filter fun k => k ≠ m }
    ((s1.freeSlot n m.page m.line).noteLast m.page).checkFloor.settlePages

/-! ### Latency tracking and return frames (R245 to R248) -/

/-- An ECHO goes out in the first gap after every 4,096th marker (R245). -/
def echoTracking (s : State) (n : LinkId) : State :=
  let l := s.links[n]
  if s.carries n && decide (4096 ≤ l.sinceEcho) && s.gapFits n 22 then
    (s.sendAsking n 5).updLink n fun k => { k with sinceEcho := k.sinceEcho - 4096, awaited := [l.seq] }
  else s

/-- An ECHO return frame (R243 to R245). -/
def echo (s : State) (n : LinkId) (f : ReturnFrame) (rt : Nat) : State :=
  let s0 := s.answered n f.seq
  let l := s.links[n]
  if l.awaited.contains f.seq = false then s
  else if l.step = .measure then
    if s.inTime n = false then s0
    else
      let trips := rt :: l.trips
      let s1 := s0.updLink n fun k => { k with trips := trips }
      if trips.length < 64 then s1
      else if 8 < trips.foldl max 0 - trips.foldl min rt then s1.trainFail n 6
      else s1.trainPass n
  else if s.carries n then
    let trips := (rt :: l.trips).take 8
    let target := latOf l.board trips
    let lat : Int := if target - l.lat > 1 then l.lat + 1 else if l.lat - target > 1 then l.lat - 1 else l.lat
    let s1 := s0.updLink n fun k => { k with trips := trips, lat := lat.toNat }
    if 64 < (target - l.latTrained).natAbs then s1.goDown n 5 else s1
  else s0

/-- A STATUS return frame (R241 step 3, R247, R252). -/
def status (s : State) (n : LinkId) (f : ReturnFrame) : State :=
  let w := BitVec.ofNat 128 (leNat f.payload)
  let bad := (w.extractLsb' 32 16).toNat
  let l := s.links[n]
  let recent := l.statuses.filter fun x => decide (l.marked ≤ x.2 + 256)
  let s0 := s.updLink n fun k => { k with lastStatus := w, statuses := recent ++ [(bad, l.marked)] }
  if l.step = .status ∧ s.inTime n = true then
    if l.testBad ∨ bad ≠ 0 then s0.trainFail n 5 else s0.enterStep n .measure
  else if s.carries n then
    if recent.any fun x => decide (4 ≤ (bad + 65536 - x.1) % 65536) then s0.goDown n 4
    else if w.getLsbD 81 then s0.goDown n 6
    else s0
  else s0

/-- A MESSAGE return frame (R248). -/
def message (s : State) (n : LinkId) (f : ReturnFrame) : State :=
  if s.links[n].inbox.length < 8 then (s.updLink n fun l => { l with inbox := l.inbox ++ [f.payload] }).raiseLink n
  else s.logLinkRun 0x0905 (linkFields n 0 s.links[n].st.code s.links[n].st.code 0xFFFFFFFF 0xFFFF 0xFFFF)

/-- No valid return frame has come for 100 us (R252). -/
def statusTimeout (s : State) (n : LinkId) : State :=
  if s.links[n].lastReturn + 100 * Config.usTau ≤ s.time then s.goDown n 3 else s

/-! ### Messages to the board (R240, R248) -/

/-- The oldest LINK_MSG of a link with its message at hand and not yet taken up. -/
def nextMessage (s : State) (n : LinkId) : Option Cmd :=
  s.cmds.find? fun c =>
    c.op == 0x35 && c.prog == .event && c.f 0 9 1 == 0 && c.f 0 0 5 == n.val && c.buf.length == c.f 3 0 8 &&
      !(s.links[n].sending.any fun m => m.cmd == c.id)

/-- Take up a link's next message, and send it once a gap qualifies. -/
def serveMessages (s : State) (n : LinkId) : State :=
  let s1 := match s.links[n].sending, s.nextMessage n with
    | none, some c => s.updLink n fun l => { l with sending := some { cmd := c.id, start := s.time } }
    | _, _ => s
  match s1.links[n].sending with
  | none => s1
  | some m =>
    match m.seq, s1.findCmd m.cmd with
    | none, some c =>
      if s1.links[n].step == .idle && (s1.links[n].st == .up || s1.links[n].st == .rejoin) && s1.gapFits n (22 + c.buf.length) then
        let seq := s1.links[n].seq
        (s1.sendFrame n 2 0 c.buf.length 0 0xFFFF 0 c.buf).updLink n fun l => { l with
          sending := some { m with seq := some seq, sentAt := s.time } }
      else s1
    | _, _ => s1

/-- End a link's send and take up the next. -/
def endSend (s : State) (n : LinkId) (a : Answer) : State :=
  match s.links[n].sending with
  | none => s
  | some m => ((s.updLink n fun l => { l with sending := none }).finish m.cmd a).serveMessages n

/-- A message has found no gap for 1 ms (R240). -/
def gapTimeout (s : State) (n : LinkId) : State :=
  match s.links[n].sending with
  | some m => if m.seq.isNone ∧ m.start + Config.msTau ≤ s.time then s.endSend n { status := .timeout } else s
  | none => s

/-- No ACK has come 1 ms after the frame was sent (R248). -/
def ackTimeout (s : State) (n : LinkId) : State :=
  match s.links[n].sending with
  | some m => if m.seq.isSome ∧ m.sentAt + Config.msTau ≤ s.time then s.endSend n { status := .timeout } else s
  | none => s

/-- An ACK return frame (R248). -/
def ack (s : State) (n : LinkId) (f : ReturnFrame) : State :=
  match s.links[n].sending with
  | some m =>
    if m.seq = some f.seq then s.endSend n { r0 := ((s.findCmd m.cmd).map (·.buf.length)).getD 0 } else s
  | none => s

/-- The message of a LINK_MSG has come from the host. -/
def messageReady (s : State) (c : Cmd) : State :=
  (s.updCmd c.id fun x => { x with prog := .event }).serveMessages (Fin.ofNat 32 (c.f 0 0 5))

end State

/-! ### Meanings -/

/-- LINK_CONFIG loads KS shadows (R76, R268). -/
def bodyLinkConfig (c : Cmd) (s : State) : State :=
  let l : LinkCfg := { enable := c.f 0 8 1 == 1, rate := Fin.ofNat 3 (c.f 1 0 2), pitch := BitVec.ofNat 32 (c.p 2)
                       frameLead := BitVec.ofNat 16 (c.f 3 0 16) }
  { s with ks := { s.ks with shadow := { s.ks.shadow with link := vset s.ks.shadow.link (Fin.ofNat 32 (c.f 0 0 5)) l } } }.succeed
    c.id

/-- LINK_TRAIN (R241, R242). -/
def bodyLinkTrain (c : Cmd) (s : State) : State :=
  let ns := s.partLinks.filter fun n => c.p 0 / 2 ^ n.val % 2 = 1
  if ns.any fun n => s.links[n].st == .up && s.hasLines n then s.fail c.id .resourceConflict
  else
    let s1 := s.updCmd c.id fun x => { x with mask := BitVec.ofNat 32 (c.p 0) }
    (ns.foldl (fun acc n => acc.trainStart c.id n) s1).settleTrain c.id

/-- LINK_MSG (R248). -/
def bodyLinkMsg (c : Cmd) (s : State) : State :=
  let n : LinkId := Fin.ofNat 32 (c.f 0 0 5)
  if c.f 0 9 1 = 1 then
    match s.links[n].inbox with
    | [] => s.succeed c.id
    | m :: rest =>
      ((s.updLink n fun l => { l with inbox := rest }).emit (.hostWrite c.host (c.hostAddr 1) m)).succeed c.id m.length
  else if s.links[n].st ≠ .up ∧ s.links[n].st ≠ .rejoin then s.fail c.id .resourceConflict
  else s.updCmd c.id fun x => { x with prog := .source c.sourceLen }

/-! ### Rows of the table -/

/-- LINK_CONFIG. -/
def execLinkConfig (c : Issue) (s : State) : Host.Outcome State Fault Refusal := .next (s.submit 0x30 bodyLinkConfig c)

/-- LINK_TRAIN. -/
def execLinkTrain (c : Issue) (s : State) : Host.Outcome State Fault Refusal := .next (s.submit 0x31 bodyLinkTrain c)

/-- LINK_MSG. -/
def execLinkMsg (c : Issue) (s : State) : Host.Outcome State Fault Refusal := .next (s.submit 0x35 bodyLinkMsg c)

/-- FIRE_MARKER (R235). -/
def execFireMarker (n : LinkId) (s : State) : Host.Outcome State Fault Refusal := .next (s.fireMarker n)

/-- FIRE_INSTANT (R218). -/
def execFireInstant (n : LinkId) (s : State) : Host.Outcome State Fault Refusal := .next (s.fireInstant n)

/-- LINE_FRAME (R238). -/
def execLineFrame (n : LinkId) (ue : SlotRead) (s : State) : Host.Outcome State Fault Refusal := .next (s.lineFrame n ue)

/-- NO_DATA (R238). -/
def execNoData (n : LinkId) (s : State) : Host.Outcome State Fault Refusal := .next (s.noDataFrame n)

/-- ECHO_TRACKING (R245). -/
def execEchoTracking (n : LinkId) (s : State) : Host.Outcome State Fault Refusal := .next (s.echoTracking n)

/-- ECHO_REPLY (R245). -/
def execEchoReply (n : LinkId) (f : ReturnFrame) (roundTrip : Nat) (s : State) : Host.Outcome State Fault Refusal :=
  .next (s.onReturn n f 5 0 0 fun t => t.echo n f roundTrip)

/-- STATUS_FRAME (R247). -/
def execStatusFrame (n : LinkId) (f : ReturnFrame) (s : State) : Host.Outcome State Fault Refusal :=
  .next (s.onReturn n f 1 16 16 fun t => t.status n f)

/-- MESSAGE_FRAME (R248). -/
def execMessageFrame (n : LinkId) (f : ReturnFrame) (s : State) : Host.Outcome State Fault Refusal :=
  .next (s.onReturn n f 2 1 240 fun t => t.message n f)

/-- ACK_FRAME (R248). -/
def execAckFrame (n : LinkId) (f : ReturnFrame) (s : State) : Host.Outcome State Fault Refusal :=
  .next (s.onReturn n f 3 0 0 fun t => t.ack n f)

/-- IDENT_FRAME (R241). -/
def execIdentFrame (n : LinkId) (f : ReturnFrame) (s : State) : Host.Outcome State Fault Refusal :=
  .next (s.onReturn n f 4 32 32 fun t => t.ident n f)

/-- TEST_FRAME (R241). -/
def execTestFrame (n : LinkId) (f : ReturnFrame) (s : State) : Host.Outcome State Fault Refusal :=
  .next (s.onReturn n f 6 2304 2304 fun t => t.testReturn n f)

/-- TRAINING_STEP_TIMEOUT (R241). -/
def execTrainingStepTimeout (n : LinkId) (s : State) : Host.Outcome State Fault Refusal := .next (s.stepTimeout n)

/-- MESSAGE_GAP_TIMEOUT (R240). -/
def execMessageGapTimeout (n : LinkId) (s : State) : Host.Outcome State Fault Refusal := .next (s.gapTimeout n)

/-- ACK_TIMEOUT (R248). -/
def execAckTimeout (n : LinkId) (s : State) : Host.Outcome State Fault Refusal := .next (s.ackTimeout n)

/-- LOSS_OF_SIGNAL: the receive lane has been below signal detect for so many tau (R252). -/
def execLossOfSignal (n : LinkId) (held : Nat) (s : State) : Host.Outcome State Fault Refusal :=
  .next (if Config.usTau ≤ held then s.goDown n 1 else s)

/-- CODE_ERRORS: sixteen errors within so many symbols (R252). -/
def execCodeErrors (n : LinkId) (span : Nat) (s : State) : Host.Outcome State Fault Refusal :=
  .next (if span ≤ 4096 then s.goDown n 2 else s)

/-- STATUS_TIMEOUT (R252). -/
def execStatusTimeout (n : LinkId) (s : State) : Host.Outcome State Fault Refusal := .next (s.statusTimeout n)

/-- COMMA_ALIGNMENT (R241). -/
def execCommaAlignment (n : LinkId) (symbols : Nat) (s : State) : Host.Outcome State Fault Refusal :=
  .next (s.comma n symbols)

/-- MEASURE_ECHO (R241). -/
def execMeasureEcho (n : LinkId) (s : State) : Host.Outcome State Fault Refusal := .next (s.measureEcho n)

/-- INVALID_RETURN_FRAME (R248). -/
def execInvalidReturnFrame (n : LinkId) (s : State) : Host.Outcome State Fault Refusal := .next (s.badReturn n)

end Sys2Proof.Machine
end

