-- ==== Sys2Proof/Machine/Keys.lean ====
section
/-! DEFINITION. Keystones (R11, R174 to R178, R222, R387, R421, R423): the checks that refuse one, its acceptance, and the
settings and banks that take force together. -/

namespace Sys2Proof.Machine

/-- SOURCE and FREQ of a CLKOUT control register that selects FSYN (R386). -/
def fsynFreq (d : Dword) : Option Nat := if bits d.toNat 27 2 = 2 then some (bits d.toNat 0 19) else none

/-- The frequency of a clock output in Hz, or none while it is disabled (R386): REF passes the reference through, and the others derive
from TBCK. -/
def clkoutHz (refSel : BitVec 2) (d : Dword) : Option Nat :=
  let ref := if refSel = 0 then 25000000 else if refSel = 1 then 50000000 else 100000000
  if d.getLsbD 31 = false then none
  else match bits d.toNat 27 2 with
    | 0 => some ref
    | 1 => some (1250000000 / bits d.toNat 20 6)
    | _ => some (1000 * bits d.toNat 0 19)

/-- How long an output is held low for a keystone that changes it: two periods of the old frequency and two of the new (R388). -/
def holdTau (refSel : BitVec 2) (old new : Dword) : Nat :=
  match clkoutHz refSel old, clkoutHz refSel new with
  | some a, some b => if old = new then 0 else ceilDiv (2 * Config.secTau) a + ceilDiv (2 * Config.secTau) b
  | _, _ => 0

/-- ENABLE of a regulator's settings (R327). -/
def regOn (d : Dword) : Bool := d.getLsbD 31

/-- DEPTH of a regulator's settings, in tokens. -/
def regDepth (d : Dword) : Nat := 256 * bits d.toNat 16 12

namespace State

/-! ### Refusals -/

/-- The pool sizes do not fit: the losing allocation's detail code (R222, R81). -/
def poolLoser (k : Ks) : Option Nat :=
  let left := 12 - poolExtra k.pool
  let left2 := if poolStaging k.pool ≤ left then left - poolStaging k.pool else left
  if left2 < poolShares k.pool then some 0x20 else if left < poolStaging k.pool then some 0x21 else none

/-- Two pins or a pin's old and new settings name the same function; sources count for function 1 only (R423). -/
def sameFunction (a b : Dword) : Bool :=
  evtFunction a == evtFunction b && (evtFunction a != 1 || evtSource a == evtSource b)

/-- A pin is taken (R423). -/
def pinTaken (s : State) (k : Ks) : Bool :=
  (evtFunction k.evtOut[0] != 0 && sameFunction k.evtOut[0] k.evtOut[1]) ||
    (List.finRange 2).any fun i =>
      evtFunction s.ks.force.evtOut[i] != 0 && evtFunction k.evtOut[i] != 0 &&
        !sameFunction s.ks.force.evtOut[i] k.evtOut[i]

/-- Both clock outputs select FSYN with different frequencies (R387). -/
def clkoutTaken (k : Ks) : Bool :=
  match fsynFreq k.clkout[0], fsynFreq k.clkout[1] with
  | some a, some b => a != b
  | _, _ => false

/-- The detail with which a keystone of the present shadows is refused, in the order of R81 (R75). -/
def keyRefusal (s : State) : Option Nat :=
  (poolLoser s.ks.shadow).or
    (if s.pinTaken s.ks.shadow then some 0x22 else if clkoutTaken s.ks.shadow then some 0x23 else none)

/-! ### Taking force -/

/-- Shadow banks that a keystone has accepted become active (R174). -/
def swapBanks (s : State) : State :=
  let swap (c : ChanId) (ch : Chan) : Chan :=
    if s.ks.banks[c] then
      { ch with active := ch.active + 1, banks := ch.banks.map fun (b : Bank) => { b with loaded := false } }
    else ch
  { s with chans := #v[swap 0 s.chans[0], swap 1 s.chans[1]], ks := { s.ks with banks := #v[false, false] } }

/-- Requesters that the new settings disable take part until what they had started ends (R312). -/
def noteDisabled (s : State) (new : Ks) : State :=
  { s with ks := { s.ks with offAt := Vector.ofFn fun r : Fin 12 =>
      if s.ks.force.arbEnable.getLsbD r.val && !new.arbEnable.getLsbD r.val then s.nextId else s.ks.offAt[r] } }

/-- Links whose automatic mode takes force choose afresh (R283). -/
def freshWaves (s : State) (new : Ks) : State :=
  { s with links := Vector.ofFn fun n : Fin 32 =>
      if s.ks.force.wave[n].fixed && !(new.wave[n]).fixed then { s.links[n] with autoStarted := false } else s.links[n] }

/-- Regulators under new settings: one that is enabled starts full, and a bucket is cut to the new depth (R326). -/
def settleBuckets (s : State) (old new : Ks) : State :=
  { s with buckets := Vector.ofFn fun h : Fin 4 =>
      let d := new.reg[h]
      let full := regOn d && !regOn old.reg[h]
      { s.buckets[h] with tokens := if full then regDepth d else min (regDepth d) s.buckets[h].tokens } }

/-- The frequency at a clock output now, or none while it is off or held low: its domain is unpowered, it is disabled, or a keystone has
just changed it (R13, R386, R388). -/
def clkoutNow (s : State) (k : Fin 2) : Option Nat :=
  if s.domainOn 1 && decide (s.clk.outHeld[k] ≤ s.time) then clkoutHz s.clk.refSel s.ks.force.clkout[k] else none

/-- Outputs that new settings change while they run are held low (R388). -/
def holdClkouts (s : State) (old new : Ks) : State :=
  let end_ (k : Fin 2) : Nat := max s.clk.outHeld[k] (s.time + holdTau s.clk.refSel old.clkout[k] new.clkout[k])
  s.updClk fun x => { x with outHeld := Vector.ofFn end_ }

/-- What waits for the first course boundary at which the drain is HALTED (R223, R264). -/
def settleHalted (s : State) : State := if s.drainHalted then s.settleWeb.cutAnvil else s

/-- Complete the KEYSTONE commands that waited, with the number of the first course on the new settings (R75). -/
def completeKeys (s : State) (course : Nat) : State :=
  let cs := s.ks.cmds
  cs.foldl (fun acc x => acc.succeed x.1 (x.2 % 2 ^ 32) (course % 2 ^ 32)) { s with ks := { s.ks with cmds := [] } }

/-- The accepted settings and banks take force (R175, R178, R421). -/
def takeForce (s : State) (course : Nat) : State :=
  match s.ks.accepted with
  | none => s
  | some new =>
    let old := s.ks.force
    let s1 := (((s.noteDisabled new).freshWaves new).settleBuckets old new).holdClkouts old new
    let s2 := { s1 with ks := { s1.ks with
      force := new, accepted := none, outcome := if s.ks.outcome = 1 then 2 else s.ks.outcome } }
    let s3 := s2.swapBanks
    let s4 := s3.partLinks.foldl (fun acc n => acc.applyLink n old.link[n] new.link[n]) s3
    let s5 := if new.webSet then s4.commitWeb new.web else s4
    (s5.settlePool.checkFloor).completeKeys course

/-! ### Acceptance -/

/-- Accept a keystone of the present shadows and qualifying banks; while no course runs it takes force at once (R175, R178,
R421). -/
def acceptKey (s : State) (cmd : Option Nat) : State :=
  let k := s.ks
  let (web, wave) := match k.accepted with
    | some a => (a.webSet, a.waveSet)
    | none => (false, 0)
  let seq := k.seq + 1
  let s1 := { s with ks := { k with
    accepted := some { k.shadow with webSet := k.shadow.webSet || web, waveSet := k.shadow.waveSet ||| wave }
    shadow := { k.shadow with webSet := false, waveSet := 0 }
    banks := #v[k.banks[0] || s.bankQualifies 0, k.banks[1] || s.bankQualifies 1]
    seq := seq, outcome := 1
    cmds := match cmd with
      | some id => k.cmds ++ [(id, seq)]
      | none => k.cmds } }
  if s.coursesRun then s1 else (s1.takeForce s.seq.number).settleHalted

/-- Refuse a keystone: nothing is committed, and KEYSTONE_STATUS shows the refusal (R75, R176). -/
def refuseKey (s : State) (detail : Nat) : State := { s with ks := { s.ks with outcome := 3, detail := detail } }

end State

/-! ### Meanings -/

/-- KEYSTONE (R75, R175, R177). -/
def bodyKeystone (c : Cmd) (s : State) : State :=
  match s.keyRefusal with
  | some d => (if c.f 0 0 1 = 1 then s else s.refuseKey d).fail c.id .resourceConflict d
  | none => if c.f 0 0 1 = 1 then s.succeed c.id else s.acceptKey (some c.id)

/-! ### Rows of the table -/

/-- KEYSTONE. -/
def execKeystone (c : Issue) (s : State) : Host.Outcome State Fault Refusal := .next (s.submit 0x21 bodyKeystone c)

end Sys2Proof.Machine
end

