-- ==== Sys2Proof/Machine/Drain.lean ====
section
/-! DEFINITION. The drain (R191 to R214): what the fetch engine reads for a line, the placing of bursts, decoding one line per
course, poisoned lines, engine faults and spares. -/

namespace Sys2Proof.Machine

/-- Stream bursts that a compressed strip has (R192). -/
def Strip.bursts (t : Strip) : Nat := ceilDiv t.bits 512

/-- The input that an engine holds, from its bursts (R195), up to a bit. -/
def inputOf (bursts : List (Nat × BitVec 512)) (limit : Nat) : Input :=
  { bit := fun p => match bursts.find? fun b => b.1 = p / 512 with
      | some b => b.2.getLsbD (p % 512)
      | none => false
    limit := limit }

/-- The first burst from `q` on that is not in the buffer. -/
def firstGap (bursts : List (Nat × BitVec 512)) : Nat → Nat → Nat
  | 0, q => q
  | fuel + 1, q => if bursts.any fun b => b.1 = q then firstGap bursts fuel (q + 1) else q

namespace State

/-! ### Pages and slots -/

/-- The strip of a link in a page. -/
def pageStrip (s : State) (p : Page) (n : LinkId) : Option Strip :=
  if p.links[n].fills then s.findStrip p.links[n].strip.toNat else none

/-- The fill of the FILLING page is complete: it is FIRING, and source 75 is raised (R165, R171). -/
def pageFilled (s : State) (id : BitVec 16) : State :=
  match s.findPage id with
  | none => s
  | some p =>
    if p.st == .filling && s.partLinks.all fun n =>
        decide (p.links[n].lines ≤ p.links[n].taken) && !(s.links[n].fetch.busy && s.links[n].fetch.page == id) then
      (((s.updPage id fun q => { q with st := .firing }).updSeq fun q => { q with joinable := true }).raise 75).settlePages
    else s

/-- Put a line's slot (R218). -/
def fillSlot (s : State) (n : LinkId) (page : BitVec 16) (i : Nat) (image : List Byte) (poison : Bool) : State :=
  s.updLink n fun l => { l with slots := l.slots.map fun x =>
    if x.page = page ∧ x.line = i then { x with complete := true, poison := poison, image := image } else x }

/-- A line has ended: the engine is free for the next. -/
def endLine (s : State) (n : LinkId) (page : BitVec 16) : State :=
  (((s.updFetch n fun f => { f with busy := false }).checkFloor).pageFilled page)

/-! ### Poisoned lines (R207 to R211) -/

/-- A cause marks the strip as poisoned (R207, R209). -/
def markStrip (s : State) (t : Strip) (cause : Nat) : State :=
  if 2 ≤ cause ∧ cause ≤ 6 then s.putStrip { t with poisoned := true } else s

/-- Poison a line for a cause that does not follow from an earlier one: source 86 and a DRAIN_POISON record (R210); `rest` when
the rest of the link's lines of the page are poisoned too, and nothing more is read for the link (R195, R208). -/
def poisonLine (s : State) (n : LinkId) (p : Page) (t : Strip) (i cause value : Nat) (rest : Bool) : State :=
  let s1 := (s.fillSlot n p.id i [] true).updFetch n fun f =>
    { f with poisoning := rest, want := if rest then [] else f.want }
  let s2 := s1.logDrain 0x0801 n cause (s.engineNo n) t.handle p.id.toNat (p.links[n].firstLine + i) i value
  ((s2.raise 86).markStrip t cause).endLine n p.id

/-! ### Reading a link's bursts (R140 to R143, R157, R193) -/

/-- Which raster use a burst has stays with it: place a burst that has been read. Stream and raw bursts go to the engine's
input buffer (R195), index entries to the index buffer of three bursts or to the primed entries (R191, R194). -/
def placeBurst (s : State) (n : LinkId) (u : Used) (data : BitVec 512) (bad : List (Nat × Bool)) : State :=
  let words : List (BitVec 64) := (List.range 8).map (wordOf data)
  let input (b : Nat) : State :=
    let s1 := match s.links[n].engine with
      | some e => s.updEngine e fun x => { x with input := x.input ++ [(b, data)] }
      | none => s
    s1.updFetch n fun f => { f with badWords := f.badWords ++ bad.map fun k => (64 * b + 8 * k.1, u.addr + 8 * k.1, k.2) }
  let badLines (j : Nat) : List (Nat × Bool × Nat) := bad.map fun k => (8 * j + k.1, k.2, u.addr + 8 * k.1)
  match u.use with
  | .stream b => input b
  | .raw k => input k
  | .index page j prime =>
    s.updFetch n fun f =>
      if prime then { f with primed := some (page, words, badLines j) }
      else
        let all := f.index ++ [(j, words)]
        { f with index := all.drop (all.length - 3), badIndex := f.badIndex ++ badLines j }

/-- The words of a burst that cannot be trusted: their numbers, and POISON or not. -/
def badAll (ds : List Decoded) : List (Nat × Bool) :=
  ds.zipIdx.filterMap fun x => match x.1.out with
    | .uncorrectable => some (x.2, false)
    | .poison => some (x.2, true)
    | _ => none

/-- An activate for a FETCH entry may be sampled: the mitigation logic then holds a pending need (R297). -/
def sampleAct (s : State) (a : Nat) : State :=
  let shift := bits s.ks.force.rfm.toNat 0 4
  if s.rowOpen a ∨ shift = 0 then s
  else
    let l := s.raster.loc a
    let s1 := s.useFree
    if (Config.lfsrDraw s.free).toNat % 2 ^ shift = 0 then
      s1.updBank l.chan (s.physRank a) l.sub l.bank fun k => { k with need := true }
    else s1

/-- The fetch engine reads a used burst: nothing is issued for one in an unwritten or filling ashlar (R143). -/
def fetchBurst (s : State) (i : Nat) (n : LinkId) (u : Used) : State :=
  if s.raster.isWritten (s.raster.ashlar u.addr) then
    let s1 := ((s.sampleAct u.addr).readRow u.addr (By.slot 0 i)).noteRead 2 u.addr
    let ds := s.decodeBurst u.addr
    s1.placeBurst n u (dataOf ds) (badAll ds)
  else s.placeBurst n u 0 []

/-- A used burst will not be read in its course: a line is short of it, an index burst is owed (R142, R157, R193). -/
def loseBurst (s : State) (n : LinkId) (u : Used) : State :=
  s.updFetch n fun f => match u.use with
    | .stream b => { f with missing := f.missing ++ [b] }
    | .raw k => { f with missing := f.missing ++ [k] }
    | .index _ j false => { f with owed := f.owed ++ [j] }
    | .index _ _ true => f

/-- Bursts on each subchannel that a FETCH entry provides in a course of so many slots (R133, R139). -/
def entryCap (es : List Entry) (slots i : Nat) (e : Entry) : Nat :=
  if e.fin ≤ slots then e.reserve
  else min e.reserve (2 * (slots - e.start - (if firstOfRun es i e then 2 else 0)))

/-- The bursts that a FETCH entry under way has still to read on a subchannel: the first of those left to its link there, up to
what the entry provides (R140). -/
def givenOn (s : State) (c : ChanId) (i : Nat) (e : Entry) (u : SubId) : List Used :=
  let cap := entryCap (s.table c).table s.grid i e - s.chans[c].fetched[u]
  let want := s.links[Fin.ofNat 32 e.link].fetch.want
  (want.filter fun x => let l := s.raster.loc x.addr; l.chan == c && l.sub == u).take cap

/-- The bursts that a FETCH entry under way has still to read. -/
def givenTo (s : State) (c : ChanId) (i : Nat) (e : Entry) : List Used := s.givenOn c i e 0 ++ s.givenOn c i e 1

/-- The guard holds the read of a used burst (R155, R297), or a replay of a write to it is still to come (R299). -/
def fetchHeld (s : State) (u : Used) : Bool :=
  let l := s.raster.loc u.addr
  s.raster.isWritten (s.raster.ashlar u.addr) &&
    (s.actHeld u.addr || s.chans[l.chan].subs[l.sub].replay.any fun k => k.addr == u.addr)

/-- A FETCH entry reads its bursts of a subchannel in their order, up to one that the guard holds. -/
def readGiven (c : ChanId) (i : Nat) (n : LinkId) (u : SubId) : List Used → State → State
  | [], s => s
  | x :: xs, s =>
    if s.fetchHeld x then s.holdAccess (s.physRank x.addr) x.addr
    else
      let s1 := (s.fetchBurst i n x).updFetch n fun f => { f with want := f.want.erase x }
      readGiven c i n u xs (s1.updChan c fun ch => { ch with fetched := vmod ch.fetched u (· + 1) })

/-! ### Entries of the course that act -/

/-- A FETCH entry before this one in the table has still to act. -/
def fetchBefore (s : State) (c : ChanId) (i : Nat) : Bool :=
  s.chans[c].due.any fun j => decide (j < i) && ((s.table c).table[j]?.map Entry.isFetch) == some true

/-- The entry `i` of a channel's active table, when it may act: the slot counter has reached its START, or for a FETCH entry
stands at most 10 slots before it and no earlier FETCH entry has still to act (R138). -/
def nextEntry (s : State) (c : ChanId) (i : Nat) : Option Entry :=
  if s.chanServes c && !s.storming c && s.chans[c].due.contains i then
    ((s.table c).table[i]?).filter fun e =>
      decide (s.mckOf c e.start ≤ s.mckNow c + if e.isFetch then 160 else 0) && !(e.isFetch && s.fetchBefore c i)
  else none

/-- Write a course log entry about a table entry (R161). -/
def logEntry (s : State) (type : Nat) (c : ChanId) (i : Nat) (e : Entry) (value : Nat) : State :=
  let rank := if e.isOverlay || e.type == 4 then e.rank else 0xFF
  let bank := if e.type = 2 ∨ e.type = 3 then e.bank.val else 0xFF
  s.logCourse type c.val 0xFF rank bank (s.slotNow c) i value (s.table c).tableId.toNat

/-- A hold of the slot counter at a value ends at a time, and lengthens the course (R156). -/
def endHold (s : State) (c : ChanId) (i : Nat) (e : Entry) (m until_ : Nat) : State :=
  let hold := if m ≤ s.mckNow c then mckIn s.chans[c].mts (until_ - s.timeOf c m) else 0
  if hold = 0 then s else (s.holdAt c m until_).logEntry 0x0202 c i e hold

/-- An entry ends: what the counter has waited for it past the slot at which it holds lengthens the course (R156). -/
def passEntry (s : State) (c : ChanId) (i : Nat) (e : Entry) (until_ : Nat) : State :=
  (s.endHold c i e (s.mckOf c (s.holdSlot c i e)) until_).updChan c fun ch =>
    { ch with due := ch.due.erase i, fetched := if e.isFetch then #v[0, 0] else ch.fetched }

/-- The counter has waited STALL_LIMIT at the slot at which an entry holds it (R157). -/
def stalled (s : State) (c : ChanId) (i : Nat) (e : Entry) : Bool :=
  let m := s.mckOf c (s.holdSlot c i e)
  decide (m ≤ s.mckNow c) && decide (s.timeOf c m + 200 * Config.usTau ≤ s.time)

/-- A hold reaches STALL_LIMIT: the guard abandons the held command, and the entry ends at once (R157). The bursts given to a
FETCH entry that it has not read are not read in that course. -/
def stall (s : State) (c : ChanId) (i : Nat) : State :=
  match s.nextEntry c i with
  | none => s
  | some e =>
    if !s.stalled c i e then s
    else
      let ended := s.timeOf c (s.mckOf c (s.holdSlot c i e)) + 200 * Config.usTau
      let s1 := ((s.passEntry c i e ended).logEntry 0x0206 c i e 0).raiseChan c
      if e.isFetch then
        let n : LinkId := Fin.ofNat 32 e.link
        let given := s.givenTo c i e
        (given.foldl (fun acc u => acc.loseBurst n u) s1).updFetch n fun f =>
          { f with want := f.want.filter fun u => !given.contains u }
      else s1

/-- An entry of a type acts; one that has held the counter for STALL_LIMIT is abandoned (R156, R157). -/
def actEntry (s : State) (c : ChanId) (i type : Nat) (act : Entry → State) : State :=
  match s.nextEntry c i with
  | none => s
  | some e => if e.type ≠ type then s else if s.stalled c i e then s.stall c i else act e

/-- A FETCH entry's slots arrive (R138, R140, R141): it reads the bursts given to it, and ends with the last. An access that the
guard holds keeps it waiting (R155, R297). -/
def fetchEntry (s : State) (c : ChanId) (i : Nat) : State :=
  s.actEntry c i 1 fun e =>
    let n : LinkId := Fin.ofNat 32 e.link
    let s1 := readGiven c i n 0 (s.givenOn c i e 0) s
    let s2 := readGiven c i n 1 (s1.givenOn c i e 1) s1
    if (s2.givenTo c i e).isEmpty then s2.passEntry c i e s2.time else s2

/-! ### Strip boundaries (R197, R213, R254) -/

/-- The lowest-numbered spare engine. -/
def spareEngine (s : State) : Option (Fin 34) := (List.finRange 34).find? fun e => s.engines[e].st = .spare

/-- The lowest spare takes the link; when there is none, every line of the link in the page is poisoned (R213). -/
def engageSpare (s : State) (n : LinkId) (p : Page) : State :=
  let l := p.links[n]
  match s.spareEngine with
  | some e =>
    let s1 := (s.updLink n fun k => { k with engine := some e }).updEngine e fun x => { x with st := .serving }
    (s1.logDrain 0x0803 n 0 e.val l.strip.toNat p.id.toNat l.firstLine 0 0).raise 85
  | none =>
    let s1 := (s.updLink n fun k => { k with engine := none }).updFetch n fun f => { f with poisoning := true }
    (s1.logDrain 0x0801 n 7 0xFF l.strip.toNat p.id.toNat l.firstLine 0 (2 ^ 64 - 1)).raise 86

/-- The link's engine serves it. -/
def engineServes (s : State) (n : LinkId) : Bool :=
  match s.links[n].engine with
  | some e => s.engines[e].st == .serving
  | none => false

/-- The line width of a page is more than the MAX_WORDS that the link's board has declared (R254). DESIGN CHOICE: of a board that
declares it after the strip boundary the lines go out NO_DATA all the same, without an entry (log entry 109). -/
def checkWidth (s : State) (n : LinkId) (p : Page) (t : Strip) : State :=
  let l := s.links[n]
  if l.board.maxWords ≠ 0 ∧ l.board.maxWords < t.words then
    (s.logLinkRun 0x0906 (fld 24 2 t.words :: fld 26 2 l.board.maxWords ::
      linkFields n 0 l.st.code l.st.code (p.links[n].lineNo 0) p.id.toNat 0)).raiseLink n
  else s

/-- A link takes the first line that it fills of a page: fetch state and engine start afresh (R191, R197), and a faulted engine
is replaced (R213). -/
def stripStart (s : State) (n : LinkId) (p : Page) (t : Strip) : State :=
  let s1 := s.updFetch n fun f =>
    let (idx, bad) := match f.primed with
      | some (_, es, b) => if t.raw then ([], []) else ([(0, es)], b)
      | none => ([], [])
    { f with
      strip := p.links[n].strip, page := p.id, nextLine := p.links[n].firstLine, nextBurst := 0, index := idx
      badIndex := bad, owed := [], primed := if t.raw then f.primed else none, want := [], missing := []
      badWords := [], poisoning := false }
  let s2 := if s1.engineServes n then s1 else s1.engageSpare n p
  let s3 := match s2.links[n].engine with
    | some e => s2.updEngine e fun x => { x with dec := {}, input := [] }
    | none => s2
  s3.checkWidth n p t

/-! ### Taking a line (R180, R192 to R194, R201, R208) -/

/-- The index burst that is due with a line of a compressed strip: that of R193, or the oldest owed. -/
def dueIndex (f : Fetch) (i lines : Nat) : Option Nat :=
  if i % 8 = 0 ∧ i + 8 < lines then some (i / 8 + 1) else f.owed.head?

/-- The next page of the queue, when it names a compressed strip for the link that is not primed (R194). -/
def toPrime (s : State) (n : LinkId) : Option (Page × Strip) :=
  (s.seq.pages.find? fun p => p.st = .queued).bind fun p => (s.pageStrip p n).bind fun t =>
    if t.raw || (s.links[n].fetch.primed.map (·.1)) == some p.id then none else some (p, t)

/-- The read of an index burst of a page's strip. -/
def indexUse (s : State) (t : Strip) (page : BitVec 16) (j : Nat) (prime : Bool) : Used :=
  { addr := chainAt s.raster t.index j, use := .index page j prime }

/-- The stream bursts of a line of a compressed strip from its index entry: those to read, and those that R192 refuses. The third
part is the stream burst that comes next. -/
def streamUses (s : State) (t : Strip) (f : Fetch) (entry : BitVec 64) : List Used × List Nat × Nat :=
  let k := bits entry.toNat 55 9
  let bs := (List.range k).map (f.nextBurst + ·)
  ((bs.filter (· < t.bursts)).map fun b => { addr := chainAt s.raster (extentAshlars t.extents) b, use := .stream b },
    bs.filter fun b => decide (t.bursts ≤ b), f.nextBurst + k)

/-- The index entry of a strip line, when the index buffer holds it (R193). -/
def Fetch.entry (f : Fetch) (line : Nat) : Option (BitVec 64) :=
  (f.index.find? fun x => x.1 = line / 8).map fun x => x.2.getD (line % 8) 0

/-- A line slot that the link takes; a line that has fired or been skipped by then has none (R218). -/
def takeSlot (s : State) (n : LinkId) (p : Page) (t : Strip) (i : Nat) : State :=
  let s1 := if s.lineDone p n i then s
    else s.updLink n fun l => { l with slots := l.slots ++ [{ page := p.id, line := i, words := t.words }] }
  s1.updPageLink p.id n fun l => { l with taken := i + 1 }

/-- The stream bit at which a link's engine stands. -/
def stoppedAt (s : State) (n : LinkId) : Nat := (s.links[n].engine.map fun e => s.engines[e].dec.bit).getD 0

/-- The link takes line `i` (R180): what the fetch engine is to read for it. A line whose index entry is not in the index buffer is
an underrun (R193). -/
def takeLine (s : State) (n : LinkId) (p : Page) (t : Strip) (i : Nat) : State :=
  let line := p.links[n].firstLine + i
  let s1 := (s.takeSlot n p t i).updFetch n fun f => { f with nextLine := line + 1 }
  let f := s1.links[n].fetch
  if f.poisoning then (s1.fillSlot n p.id i [] true).endLine n p.id
  else match f.badIndex.find? (fun x => !t.raw && x.1 == line), if t.raw then some 0 else State.Fetch.entry f line with
    | some (_, poison, addr), _ => s1.poisonLine n p t i (if poison then 6 else 5) addr true
    | none, none => s1.poisonLine n p t i 1 (s1.stoppedAt n) true
    | none, some entry =>
      let (own, lost, next) :=
        if t.raw then
          ((List.range (ceilDiv (lineBytes t.words) 64)).map fun k =>
            ({ addr := t.addr + line * t.stride + 64 * k, use := .raw k } : Used), [], 0)
        else s1.streamUses t f entry
      let due := if t.raw then none else dueIndex f line (p.links[n].firstLine + p.links[n].lines)
      let extra := match due with
        | some j => [s1.indexUse t p.id j false]
        | none => match s1.toPrime n with
          | some (q, u) => [s1.indexUse u q.id 0 true]
          | none => []
      let s2 := match s1.links[n].engine with
        | some e => if t.raw then s1.updEngine e fun x => { x with input := [] } else s1
        | none => s1
      s2.updFetch n fun g => { g with
        busy := true
        want := own ++ extra
        missing := lost
        badWords := if t.raw then [] else g.badWords
        nextBurst := next
        owed := if due = g.owed.head? then g.owed.tail else g.owed }

/-- The ring has room for one more line of a width (R217). -/
def ringRoom (s : State) (n : LinkId) (w : Nat) : Bool :=
  decide (((s.links[n].slots.map fun x => slotBytes x.words).sum) + slotBytes w ≤ s.ringBytes)

/-- Record that a link takes no line only because its engine is late; one entry covers consecutive courses (R201, R211). -/
def logLate (s : State) (n : LinkId) (p : Page) (i : Nat) : State :=
  let l := p.links[n]
  let t := s.logDrain 0x0805 n 0 (s.engineNo n) l.strip.toNat p.id.toNat (l.firstLine + i) i 0
  let t1 := if (s.links[n].fetch.lateCourse.map (· + 1)) == some s.seq.number then
      { s with logs := { s.logs with error := match t.logs.error.getLast? with
        | some e => mergeInto s.logs.error
            (fun x => x.type == 0x0805 && x.body.extractLsb' 0 8 == e.body.extractLsb' 0 8) e
        | none => s.logs.error } }
    else t
  t1.updFetch n fun f => { f with lateCourse := some s.seq.number }

/-- What a link does at the start of a fill course of a page (R180, R194, R201). -/
def planLink (s : State) (p : Page) (leff : Nat) (n : LinkId) : State :=
  match s.pageStrip p n with
  | none => s
  | some t =>
    let i := p.links[n].taken
    let f := s.links[n].fetch
    let room := s.ringRoom n t.words
    let unprimed := i == 0 && !t.raw && (f.primed.map (·.1)) != some p.id
    if p.links[n].lines ≤ i then s
    else if unprimed then s.updFetch n fun g => { g with want := [s.indexUse t p.id 0 true] }
    else if leff ≤ s.lead_ n then s
    else
      if f.busy then (if room then s.logLate n p (i - 1) else s)
      else if !room then s
      else (if i = 0 then s.stripStart n p t else s).takeLine n p t i

/-- The bursts of a link that its FETCH entries do not provide, on one channel and subchannel, are not read: a shortfall
(R142). -/
def shortfall (s : State) (n : LinkId) (c : ChanId) (u : Nat) : State :=
  let b := s.table c
  let cap := ((b.table.zipIdx).filter fun x => x.1.isFetch && x.1.link == n.val && decide (x.1.start < s.grid)).map
    fun x => entryCap b.table s.grid x.2 x.1
  let mine := s.links[n].fetch.want.filter fun x => let l := s.raster.loc x.addr; l.chan == c && l.sub.val == u
  let excess := mine.drop cap.sum
  if excess.isEmpty then s
  else
    let s1 := (excess.foldl (fun acc x => acc.loseBurst n x) s).updFetch n fun f =>
      { f with want := f.want.filter fun x => !excess.contains x }
    (s1.logCourse 0x0205 c.val u 0xFF 0xFF (s.slotNow c) 0xFFFF (n.val + 2 ^ 16 * excess.length) b.tableId.toNat).raise 87

/-- Shortfalls of a link in the course that starts. -/
def shortfalls (s : State) (n : LinkId) : State :=
  s.chansInUse.foldl (fun acc c => [0, 1].foldl (fun a u => a.shortfall n c u) acc) s

/-! ### A line is decoded (R198, R205 to R208) -/

/-- The engine of a link has failed (R212). -/
def engineFault (s : State) (n : LinkId) (where_ : BitVec 64) : State :=
  match s.links[n].engine with
  | none => s
  | some e =>
    if s.engines[e].st ≠ .serving then s
    else
      let f := s.links[n].fetch
      let page := s.findPage f.page
      let strip := page.bind fun p => s.pageStrip p n
      let (i, line) := match page with
        | some p =>
          let i := if f.busy then p.links[n].taken - 1 else p.links[n].taken
          (i, p.links[n].firstLine + i)
        | none => (0, 0)
      let s1 := (s.updEngine e fun x => { x with st := .out }).updFetch n fun g => { g with want := [] }
      let s2 := (s1.logDrain 0x0802 n 7 e.val f.strip.toNat f.page.toNat line i where_.toNat).raise 84
      match page, strip with
      | some p, some t =>
        if f.busy then s2.poisonLine n p t i 7 where_.toNat true
        else if p.links[n].taken < p.links[n].lines ∧ f.poisoning = false then
          ((s2.updFetch n fun g => { g with poisoning := true }).logDrain 0x0801 n 7 e.val f.strip.toNat f.page.toNat
            line i where_.toNat).raise 86
        else s2
      | _, _ => s2

/-- The first bad word of the input at or after a byte offset, as its byte offset, raster address and POISON or not. DEDUCED: of
several bad words it is the one at the lowest offset that a line's record names (R211, log entry 108). -/
def firstBadWord (f : Fetch) (low : Nat) : Option (Nat × Nat × Bool) :=
  (f.badWords.filter fun b => decide (low ≤ b.1)).foldl (fun best b => match best with
    | some x => if b.1 < x.1 then some b else some x
    | none => some b) none

/-- A raw line in copy mode: it waits for its bursts, and the first that is missing or bad poisons it alone (R197, R207). -/
def decodeRaw (s : State) (n : LinkId) (p : Page) (t : Strip) (i : Nat) (e : Fin 34) : State :=
  let f := s.links[n].fetch
  let len := lineBytes t.words
  let raw (u : Used) : Bool := match u.use with
    | .raw _ => true
    | _ => false
  if f.want.any raw then s
  else
    let lost := least f.missing
    match (firstBadWord f 0).filter fun b => decide (b.1 < len), lost with
    | some b, none => s.poisonLine n p t i (if b.2.2 then 6 else 5) b.2.1 false
    | some b, some k =>
      if b.1 < 64 * k then s.poisonLine n p t i (if b.2.2 then 6 else 5) b.2.1 false
      else s.poisonLine n p t i 1 (512 * k) false
    | none, some k => s.poisonLine n p t i 1 (512 * k) false
    | none, none =>
      let bytes := (List.range len).map fun k =>
        match s.engines[e].input.find? fun b => b.1 = k / 64 with
        | some b => byteOf b.2 (k % 64)
        | none => 0
      (s.fillSlot n p.id i (clearPads t.words bytes) false).endLine n p.id

/-- A compressed line: the engine runs over the input that has come, in stream order (R195), until the line is full or the
line goes wrong (R198, R205 to R207). While a burst of it is still to be read, the engine waits. -/
def decodeStream (s : State) (n : LinkId) (p : Page) (t : Strip) (i : Nat) (e : Fin 34) : State :=
  let f := s.links[n].fetch
  let x := s.engines[e]
  let bad := firstBadWord f (x.dec.bit / 64 * 8)
  let lost := least f.missing
  let gap := firstGap x.input (x.input.length + 1) (x.dec.bit / 512)
  let stop := match lost with
    | some b => min gap b
    | none => gap
  let limit := match bad with
    | some b => min (512 * stop) (8 * b.1)
    | none => 512 * stop
  let waits := f.want.any fun u => match u.use with
    | .stream _ => true
    | _ => false
  let (d, bytes, why) := x.dec.line (inputOf x.input limit) (lineBytes t.words)
  let line := p.links[n].firstLine + i
  match why with
  | .full =>
    let s1 := s.updEngine e fun y => { y with dec := d, input := y.input.filter fun b => decide (d.bit / 512 ≤ b.1) }
    if line + 1 = t.lines ∧ d.pending = true then s1.poisonLine n p t i 4 d.bit false
    else (s1.fillSlot n p.id i (clearPads t.words bytes) false).endLine n p.id
  | .streamEnd => s.poisonLine n p t i 2 d.bit true
  | .error => s.poisonLine n p t i 3 d.bit true
  | .short =>
    match bad with
    | some b =>
      if 8 * b.1 = limit then s.poisonLine n p t i (if b.2.2 then 6 else 5) b.2.1 true
      else if waits && lost != some stop then s else s.poisonLine n p t i 1 d.bit true
    | none => if waits && lost != some stop then s else s.poisonLine n p t i 1 d.bit true

/-- The engine of a link completes its line, or fails. -/
def decodeLine (s : State) (n : LinkId) (fault : Option (BitVec 64)) : State :=
  match fault with
  | some a => s.engineFault n a
  | none =>
    let f := s.links[n].fetch
    if !f.busy || !s.engineServes n then s
    else match s.links[n].engine, s.findPage f.page with
      | some e, some p => match s.pageStrip p n with
        | some t =>
          let i := p.links[n].taken - 1
          if t.raw then s.decodeRaw n p t i e else s.decodeStream n p t i e
        | none => s
      | _, _ => s

end State

/-! ### Rows of the table -/

/-- FETCH_ENTRY. -/
def execFetchEntry (c : ChanId) (idx : Nat) (s : State) : Host.Outcome State Fault Refusal := .next (s.fetchEntry c idx)

/-- STALL_LIMIT. -/
def execStallLimit (c : ChanId) (idx : Nat) (s : State) : Host.Outcome State Fault Refusal := .next (s.stall c idx)

/-- DECODE_LINE_COMPLETE. -/
def execDecodeLineComplete (n : LinkId) (fault : Option (BitVec 64)) (s : State) : Host.Outcome State Fault Refusal :=
  .next (s.decodeLine n fault)

end Sys2Proof.Machine
end

