-- ==== Sys2Proof/Machine/Dram.lean ====
section
/-! DEFINITION. DRAM service within courses (R144 to R147, R157 to R161, R291 to R303): refresh, mitigation, calibration and
temper entries, refresh credits, rows, power-down, and write-CRC alerts and storms. -/

namespace Sys2Proof.Machine

/-- tREFI in tau: 3.9 us, halved under hot refresh (R149). -/
def refiTau (hot : Bool) : Nat := if hot then 312000 else 624000

namespace State

/-! ### Entries and logs -/

/-- Write a DRAM service log entry (R309). -/
def logDram (s : State) (type : Nat) (c : ChanId) (sub rank b15 temp value : Nat) : State :=
  s.logErr type 255 [fld 12 1 c.val, fld 13 1 sub, fld 14 1 rank, fld 15 1 b15, fld 19 1 temp, fld 20 4 value]

/-- A command other than an access to a row goes to a rank, which leaves power-down for it; a spare returns there (R302, R303). -/
def serviced (s : State) (c : ChanId) (r : RankId) (by_ : By) (act : State → State) : State :=
  let k := s.chans[c].ranks[r]
  let s1 := act (s.useRank c r by_)
  if k.st == .spare && k.powerDown then (s1.issueBoth c 14 r by_).updRank c r fun x => { x with powerDown := true } else s1

/-- Some row of a bank index is open on a rank and a subchannel. -/
def indexOpen (s : State) (c : ChanId) (r : RankId) (u : SubId) (b : Fin 4) (x : Row) : Bool :=
  x.rank == r && x.sub == u && x.bank == b && s.chans[c].rows.contains x

/-- tRP in tau: 16.25 ns (R149). -/
def rpTau (s : State) (c : ChanId) : Nat := s.guardTau c 16250

/-- tRFCsb in tau: 130 or 190 ns (R149). -/
def rfcTau (s : State) (c : ChanId) : Nat := s.guardTau c (if s.raster.density = 16 then 130000 else 190000)

/-- REFsb 6 or RFMsb 7 goes to a bank index on one subchannel: the bank is closed in every bank group, and the command issues as soon
as tRP allows (R144, R145). It takes RAAIMT off the activate counts, and a port may cause activates anew (R297, R298). -/
def refreshCmd (s : State) (c : ChanId) (code : Nat) (r : RankId) (u : SubId) (b : Fin 4) (by_ : By) : State :=
  let open_ := s.chans[c].rows.any (s.indexOpen c r u b)
  let raaimt := s.chans[c].ranks[r].raaimt
  let until_ := s.time + (if open_ then s.rpTau c else 0) + s.rfcTau c
  (s.serviced c r by_ fun t =>
    ((t.closeRows c (s.indexOpen c r u b) by_).issue c code r u 0 b.val by_).updBank c r u b fun k =>
      { k with raas := k.raas.map (· - raaimt), acts := Vector.replicate 4 0, busyTo := max k.busyTo until_ }).updChan c
    fun ch => { ch with rfmDue := ch.rfmDue.erase (r, u, b) }

/-- Issue REFsb to a bank index on one subchannel (R144, R158). -/
def refresh (s : State) (c : ChanId) (r : RankId) (u : SubId) (b : Fin 4) (by_ : By) : State :=
  ((s.refreshCmd c 6 r u b by_).updBank c r u b fun k => { k with credit := min 4 (k.credit + 1) }).settleForced c

/-- Issue RFMsb to a bank index on one subchannel: the pending need is cleared (R145, R297). -/
def mitigate (s : State) (c : ChanId) (r : RankId) (u : SubId) (b : Fin 4) (by_ : By) : State :=
  ((s.refreshCmd c 7 r u b by_).updBank c r u b fun k => { k with need := false }).settleForced c

/-- The guard holds REFsb or RFMsb to a bank index: it is being refreshed, its rank has had ZQCal Latch, or a replay of a write to it
is still to come (R149, R155, R299). -/
def indexHeld (s : State) (c : ChanId) (r : RankId) (u : SubId) (b : Fin 4) : Bool :=
  decide (s.time < (s.bankIdx c r u b).busyTo) || decide (s.time < s.chans[c].ranks[r].zqTo) ||
    s.chans[c].subs[u].replay.any fun k => s.physRank k.addr == r && (s.raster.loc k.addr).bank == b

/-- The subchannels in an entry's SUB. -/
def entrySubs (e : Entry) : List SubId := (List.finRange 2).filter fun u => e.onSub u.val

/-! ### Overlay entries -/

/-- An entry has issued a command on a subchannel, and blocks there until its end (R136, R144, R145). -/
def block (s : State) (c : ChanId) (i : Nat) (u : SubId) : State :=
  s.updChan c fun ch => { ch with blocks := ch.blocks ++ [(i, u)] }

/-- A REFSB entry on one subchannel: it refreshes, or skips and blocks nothing (R144, R159). -/
def refsbOn (c : ChanId) (i : Nat) (e : Entry) (s : State) (u : SubId) : State :=
  let r := e.rankId
  if s.chans[c].ranks[r].st = .retired then s
  else if !s.wouldIssue c e u then
    s.logCourse 0x0204 c.val u.val r.val e.bank.val (s.slotNow c) i 0 (s.table c).tableId.toNat
  else (s.refresh c r u e.bank (By.slot 2 i)).block c i u

/-- A MITIG entry on one subchannel issues RFMsb when a need is pending (R145). -/
def mitigOn (c : ChanId) (i : Nat) (e : Entry) (s : State) (u : SubId) : State :=
  if s.wouldIssue c e u then (s.mitigate c e.rankId u e.bank (By.slot 2 i)).block c i u else s

/-- A REFSB or MITIG entry acts, once the guard holds none of its commands. -/
def bankEntry (s : State) (c : ChanId) (i type : Nat) (on : Entry → State → SubId → State) : State :=
  s.actEntry c i type fun e =>
    if (entrySubs e).any fun u => s.wouldIssue c e u && s.indexHeld c e.rankId u e.bank then s
    else (entrySubs e).foldl (on e) (s.passEntry c i e s.time)

/-- A REFSB entry acts. -/
def refsbEntry (s : State) (c : ChanId) (i : Nat) : State := s.bankEntry c i 2 (refsbOn c i)

/-- A MITIG entry acts. -/
def mitigEntry (s : State) (c : ChanId) (i : Nat) : State := s.bankEntry c i 3 (mitigOn c i)

/-- ZQCal Start on the subchannels of an entry (R146, R295): Latch is to follow unless it lies beyond the end of the course (R133). -/
def zqStart (s : State) (c : ChanId) (i : Nat) (e : Entry) : State :=
  let r := e.rankId
  if s.rankAsleep c r then s
  else
    let by_ := By.slot 2 i
    let s1 := s.serviced c r by_ fun t => (entrySubs e).foldl (fun acc u => acc.issue c 10 r u 0 0 by_) t
    (s1.updRank c r fun k => { k with zqReady := s.time + s.guardTau c 1000000 }).updChan c fun ch =>
      { ch with latch := if e.blockFrom < s.grid then ch.latch ++ [i] else ch.latch }

/-- ZQCal Latch on the subchannels of an entry, in its last 6 slots and not before tZQCAL has passed: the rank's rows are closed, and
it takes no command for tZQLAT (R146, R149, R291). -/
def zqLatch (s : State) (c : ChanId) (i : Nat) (e : Entry) : State :=
  let r := e.rankId
  let m := s.mckOf c e.blockFrom
  if !s.chanServes c || s.storming c || s.mckNow c < m || s.time < s.chans[c].ranks[r].zqReady then s
  else
    let by_ := By.slot 2 i
    let s1 := (s.endHold c i e m s.time).updChan c fun ch => { ch with latch := ch.latch.erase i }
    let s2 := if s.rankAsleep c r then s1
      else (s1.serviced c r by_ fun t => (entrySubs e).foldl
        (fun acc u => ((acc.closeRank c r u by_).issue c 11 r u 0 0 by_).block c i u) t).updRank c r
          fun k => { k with zqTo := s.time + s.guardTau c 30000 }
    s2

/-- A ZQCAL entry acts: it starts, and then latches. -/
def zqcalEntry (s : State) (c : ChanId) (i : Nat) : State :=
  match (s.table c).table[i]? with
  | none => s
  | some e =>
    if s.chans[c].latch.contains i then s.zqLatch c i e
    else s.actEntry c i 6 fun e => (s.passEntry c i e s.time).zqStart c i e

/-! ### Temper steps (R293, R294, R296, R301) -/

/-- A rank reports its temperature (R296). -/
def noteTemp (s : State) (c : ChanId) (r : RankId) (temp : Nat) : State :=
  let k := s.chans[c].ranks[r]
  let s1 := s.updRank c r fun x => { x with
    temp := temp, cool := if temp ≤ 80 then min 4 (x.cool + 1) else 0, over95 := decide (95 < temp)
    sawHot := x.sawHot || decide (85 < temp) }
  if 95 < temp ∧ k.over95 = false then (s1.logDram 0x0B07 c 0xFF r.val 0 temp 0).raise 71 else s1

/-- Step 9 of training has passed on a rank (R288): its temperature and its RFM thresholds are read, and drift is counted from now. -/
def applyBaseline (s : State) (c : ChanId) (r : RankId) (b : Baseline) : State :=
  (s.updRank c r fun k => { k with
    raaimt := b.raaimt, raammt := b.raammt, centring := #v[{ count := b.count0 }, { count := b.count1 }] }).noteTemp c r b.temp

/-- A mode register reads back otherwise than written: it is written again, counted and logged (R301). -/
def noteMismatch (s : State) (c : ChanId) (r : RankId) (reg : Byte) (by_ : By) : State :=
  let again := (s.chans[c].ranks[r].lastMismatch.map fun t => decide (s.time < t + Config.secTau)) == some true
  let s1 := ((s.issueBoth c 8 r by_).updRank c r fun x => { x with lastMismatch := some s.time }).updChan c fun ch =>
    { ch with mismatches := satAdd 0xFF ch.mismatches 1 }
  let s2 := s1.logDram 0x0B04 c 0xFF r.val 0 0 reg.toNat
  if again then s2.raiseChan c else s2

/-- What a step measures on a subchannel. -/
def onSub (x : TemperResult) (u : SubId) : CentreReading := if u = 0 then x.sub0 else x.sub1

/-- Change the centring of a subchannel of a rank. -/
def updCentring (s : State) (c : ChanId) (r : RankId) (u : SubId) (f : Centring → Centring) : State :=
  s.updRank c r fun k => { k with centring := vmod k.centring u f }

/-- An OSC step on a subchannel (R293): the change in count since training, as a change in write DQ delay, is applied when it is more
than 1/64 UI. -/
def oscOn (c : ChanId) (r : RankId) (x : TemperResult) (by_ : By) (s : State) (u : SubId) : State :=
  let d := Config.oscDelay ((onSub x u).count - (s.chans[c].ranks[r].centring[u]).count)
  (s.issue c 9 r u 0 0 by_).updCentring c r u fun k => { k with delay := if 1 < d.natAbs then d else k.delay }

/-- An OSC step (R293, R296, R301). -/
def oscStep (s : State) (c : ChanId) (r : RankId) (us : List SubId) (x : TemperResult) (by_ : By) : State :=
  let reg := Config.mrRotation s.chans[c].ranks[r].mrTurn
  let s1 := (us.foldl (oscOn c r x by_) s).noteTemp c r x.temp
  let s2 := s1.updRank c r fun k => { k with mrTurn := k.mrTurn + 1 }
  if x.mrMismatch then s2.noteMismatch c r reg by_ else s2

/-- A READ 1 or WRITE 2 step on a subchannel (R293, R294): the centre moves to the middle of the passing points. One moved by more than
8/64 UI or an eye narrower than 0.20 UI is logged, and a step without a passing point keeps the centre and marks the rank
DEGRADED. -/
def centreOn (c : ChanId) (r : RankId) (kind : Nat) (x : TemperResult) (s : State) (u : SubId) : State :=
  let m := onSub x u
  let s1 := if m.eye = 0 then s.updRank c r fun k => { k with st := .degraded }
    else s.updCentring c r u fun k =>
      if kind = 1 then { k with read := k.read + m.moved } else { k with write := k.write + m.moved }
  if 8 < m.moved.natAbs ∨ 5 * m.eye < 64 then
    (s1.logDram 0x0B08 c u.val r.val 0 0 ((m.moved % 2 ^ 16).toNat + 2 ^ 16 * (m.eye % 2 ^ 16))).raiseChan c
  else s1

/-- A WRITE step restores the burst that it has saved: the restore is one of the writes that an alert replays (R293, R294). -/
def restoreSaved (s : State) (c : ChanId) (r : RankId) (us : List SubId) (a : Nat) : State :=
  let l := s.raster.loc a
  if l.chan = c ∧ us.contains l.sub = true ∧ s.physRank a = r then
    s.updChan c fun ch => { ch with subs := vmod ch.subs l.sub fun x =>
      { x with kept := (⟨a, readBurst s.raster.dram a⟩ :: x.kept).take 16 } }
  else s

/-- A step of a kind on a rank, on some subchannels. -/
def temperStep (s : State) (c : ChanId) (r : RankId) (us : List SubId) (kind : Nat) (x : TemperResult) (by_ : By) : State :=
  if s.rankAsleep c r then s
  else s.serviced c r by_ fun t =>
    if kind = 0 then t.oscStep c r us x by_
    else
      let t1 := us.foldl (centreOn c r kind x) t
      if kind = 2 then t1.restoreSaved c r us x.saved else t1

/-- A TEMPER entry acts (R147). -/
def temperEntry (s : State) (c : ChanId) (i : Nat) (x : TemperResult) : State :=
  s.actEntry c i 4 fun e => (s.passEntry c i e s.time).temperStep c e.rankId (entrySubs e) e.kind x (By.slot 2 i)

/-! ### Refresh credit (R158, R160) and forced RFM (R297) -/

/-- A rank's refresh credits are 0 from now on, with its timers staggered (R158). -/
def resetCredits (s : State) (c : ChanId) (r : RankId) : State :=
  s.updRank c r fun k => { k with banks := Vector.ofFn fun i : Fin 8 =>
    { k.banks[i] with credit := 0, timer := s.time + 39000 * (4 * r.val + i.val % 4 + 1) } }

/-- A refresh timer subtracts one from a credit, once its interval has passed (R158); a rank in self-refresh neither gains nor loses
(R159). At -4 a forced refresh falls due (R160). -/
def creditTimer (s : State) (c : ChanId) (r : RankId) (u : SubId) (b : Fin 4) : State :=
  if s.rankTrained c r && !s.rankAsleep c r && decide ((s.bankIdx c r u b).timer ≤ s.time) then
    s.force c fun t => t.updBank c r u b fun k =>
      { k with credit := max (-4) (k.credit - 1), timer := k.timer + refiTau s.chans[c].hot }
  else s

/-- A forced command holds the slot counter while its bank is closed and tRP passes; while the counter is held already, only by the
time that it runs past the end of that hold (R160, R161). -/
def forcedHold (s : State) (c : ChanId) (r : RankId) (u : SubId) (b : Fin 4) (value : Nat) : State :=
  let ch := s.chans[c]
  let tid := (s.table c).tableId.toNat
  let ends := s.time + s.rpTau c
  let m := s.mckNow c
  let alone := !s.storming c && decide (m < s.endMck c) &&
    (decide (s.time < ch.from_) || ((s.stops c).filter fun k => decide (k ≤ m)).all fun k => some k == ch.forcedAt)
  let s1 := (s.updChan c fun k => { k with forcedTo := max k.forcedTo ends }).logCourse 0x0203 c.val u.val r.val b.val
    (s.slotNow c) 0xFFFF value tid
  let hold := if alone then mckIn ch.mts (ends - s.timeOf c m) else 0
  if hold = 0 then s1 else (s1.holdAt c m ends).logCourse 0x0202 c.val u.val r.val b.val (s.slotNow c) 0xFFFF hold tid

/-- The guard inserts a forced command: at its slot, or while the counter is held anyway (R160). -/
def forced (s : State) (c : ChanId) (r : RankId) (u : SubId) (b : Fin 4) (value : Nat) (go : State → State) : State :=
  if s.chanServes c && s.counterHeld c && !s.indexHeld c r u b then go (s.forcedHold c r u b value) else s

/-- The guard inserts a forced refresh (R160). -/
def forcedRefresh (s : State) (c : ChanId) (r : RankId) (u : SubId) (b : Fin 4) : State :=
  if s.forcedDue c r u b then s.forced c r u b 0 fun t => t.refresh c r u b By.guard else s

/-- The guard inserts a forced RFMsb for an activate held at RAAMMT (R297). -/
def forcedRfm (s : State) (c : ChanId) (r : RankId) (u : SubId) (b : Fin 4) : State :=
  if s.chans[c].rfmDue.contains (r, u, b) then s.forced c r u b 1 fun t => t.mitigate c r u b By.guard else s

/-! ### Rows and power-down (R291, R302) -/

/-- A row has been idle for 64 slots, or open for nine refresh intervals (R291). -/
def rowDue (s : State) (c : ChanId) (x : Row) : Bool :=
  decide (x.used + 64 ≤ s.slotsRun c) || decide (x.opened + 9 * refiTau s.chans[c].hot ≤ s.time)

/-- A row is closed on its timer. -/
def rowClose (s : State) (c : ChanId) (u : SubId) (r : RankId) (bg : Fin 8) (b : Fin 4) : State :=
  s.closeRows c (fun x => x.rank = r && x.sub = u && x.group = bg && x.bank = b && s.rowDue c x) {}

/-- A live entry that names a rank, or a FETCH entry, starts within the next 12 slots of this course and the next: power-down is
forbidden (R302). -/
def entrySoon (s : State) (c : ChanId) (r : RankId) : Bool :=
  let now := s.slotsBegun c
  let hot := s.chans[c].hot
  (s.table c).table.any fun e => (e.isFetch || ((e.isOverlay || e.type == 4) && e.rankId == r)) &&
    ((e.live s.seq.number hot && decide (now ≤ e.start) && decide (e.start ≤ now + 12)) ||
      (e.live (s.seq.number + 1) hot && decide (e.start + s.grid ≤ now + 12)))

/-- A rank enters power-down: its rows are closed first (R291, R302). -/
def powerDown (s : State) (c : ChanId) (r : RankId) : State :=
  let k := s.chans[c].ranks[r]
  let idle := decide (k.lastUse + 64 ≤ s.slotsRun c)
  if (s.power.pdIdle || k.st == .spare) && s.chanServes c && s.rankTrained c r && !s.rankAsleep c r && !k.powerDown && idle &&
      !s.entrySoon c r then
    ((s.closeBoth c r {}).issueBoth c 14 r {}).updRank c r fun x => { x with powerDown := true }
  else s

/-! ### Write CRC (R299, R300) -/

/-- Change the write-CRC record of a subchannel. -/
def updSub (s : State) (c : ChanId) (u : SubId) (f : SubRec → SubRec) : State :=
  s.updChan c fun ch => { ch with subs := vmod ch.subs u f }

/-- Write a CRC_ALERT entry: alerts of one subchannel within 1 ms of the entry count into it (R299). -/
def logAlert (s : State) (c : ChanId) (u : SubId) : State :=
  let b := body [s.courseFld, fld 12 1 c.val, fld 13 1 u.val, fld 14 1 0xFF, fld 20 4 1]
  let e : LogEntry := { time := s.us, type := 0x0B02, body := b }
  let same (x : LogEntry) : Bool :=
    x.type == 0x0B02 && x.body.extractLsb' 0 16 == e.body.extractLsb' 0 16 && decide (s.us < x.time + 1000)
  let l := s.logs.error
  { s with logs := { s.logs with error := match l.reverse.findIdx? same with
      | some k => l.modify (l.length - 1 - k) fun x =>
          { x with merged := satAdd 255 x.merged 1, body := x.body + BitVec.twoPow 416 64 }
      | none => l ++ [e] } }

/-- Eight alerts within 1 ms are a storm: the first in 10 ms retrains the write path and holds the slot counter (R300). -/
def checkStorm (s : State) (c : ChanId) (u : SubId) : State :=
  let x := s.chans[c].subs[u]
  if (x.alerts.filter fun t => decide (s.time < t + Config.msTau)).length < 8 then s
  else
    let s1 := s.updChan c fun ch => { ch with storms := satAdd 0xFF ch.storms 1 }
    let recent := (x.stormAt.map fun t => decide (s.time < t + 10 * Config.msTau)) == some true
    if recent then
      ((s1.updSub c u fun k => { k with alerts := [] }).logDram 0x0B03 c u.val 0xFF 0 0 0).raiseChan c
    else
      let m := s.mckNow c
      (s1.updSub c u fun k => { k with alerts := [], stormAt := some s.time, storm := true }).updChan c fun ch =>
        { ch with base := m, from_ := max ch.from_ s.time }

/-- The writes that wait to be replayed on a subchannel go out in their order, up to one that the guard holds (R299). -/
def replays (c : ChanId) (u : SubId) : List Kept → State → State
  | [], s => s.updSub c u fun k => { k with replay := [] }
  | x :: xs, s =>
    if s.actHeld x.addr then (s.holdAccess (s.physRank x.addr) x.addr).updSub c u fun k => { k with replay := x :: xs }
    else
      let s1 := (s.touchRow x.addr 3 { source := 1 }).updRaster fun r => { r with dram := writeBurst r.dram x.addr x.words }
      replays c u xs (s1.updChan c fun ch => { ch with replays := satAdd 0xFFFF ch.replays 1 })

/-- Replays that the guard has held go on on a channel. -/
def replayOn (s : State) (c : ChanId) : State :=
  if s.chanServes c then
    let s1 := replays c 0 s.chans[c].subs[(0 : SubId)].replay s
    replays c 1 s1.chans[c].subs[(1 : SubId)].replay s1
  else s

/-- ALERT_n asserts: the last `window` writes of the subchannel are replayed in their order (R299). -/
def crcAlert (s : State) (c : ChanId) (u : SubId) (window : Nat) : State :=
  if !s.chanServes c then s
  else
    let again := (s.chans[c].subs[u].kept.take window).reverse
    let s1 := s.updSub c u fun k => { k with replay := k.replay ++ again, alerts := (s.time :: k.alerts).take 8 }
    ((replays c u s1.chans[c].subs[u].replay s1).logAlert c u).checkStorm c u

/-- The retraining of a storm ends, after a hold of the slot counter of at most 199.6 us (R300). -/
def stormDone (s : State) (c : ChanId) (u : SubId) : State :=
  match s.chans[c].subs[u].storm, s.chans[c].subs[u].stormAt with
  | true, some start =>
    let ends := min s.time (start + 31936000)
    let hold := mckIn s.chans[c].mts (ends - start)
    let s1 := (s.updSub c u fun k => { k with storm := false }).holdAt c s.chans[c].base ends
    ((s1.logCourse 0x0202 c.val u.val 0xFF 0xFF (s.slotNow c) 0xFFFF hold (s.table c).tableId.toNat).logDram 0x0B03 c u.val
      0xFF 0 0 hold).raiseChan c
  | _, _ => s

end State

/-! ### Rows of the table -/

/-- REFSB. -/
def execRefsb (c : ChanId) (idx : Nat) (s : State) : Host.Outcome State Fault Refusal := .next (s.refsbEntry c idx)

/-- MITIG. -/
def execMitig (c : ChanId) (idx : Nat) (s : State) : Host.Outcome State Fault Refusal := .next (s.mitigEntry c idx)

/-- ZQCAL. -/
def execZqcal (c : ChanId) (idx : Nat) (s : State) : Host.Outcome State Fault Refusal := .next (s.zqcalEntry c idx)

/-- TEMPER_PAUSE. -/
def execTemperPause (c : ChanId) (idx : Nat) (r : TemperResult) (s : State) : Host.Outcome State Fault Refusal :=
  .next (s.temperEntry c idx r)

/-- REFRESH_CREDIT_TIMER. -/
def execRefreshCreditTimer (c : ChanId) (r : RankId) (u : SubId) (b : Fin 4) (s : State) :
    Host.Outcome State Fault Refusal := .next (s.creditTimer c r u b)

/-- FORCED_REFRESH. -/
def execForcedRefresh (c : ChanId) (r : RankId) (u : SubId) (b : Fin 4) (s : State) :
    Host.Outcome State Fault Refusal := .next (s.forcedRefresh c r u b)

/-- FORCED_RFM. -/
def execForcedRfm (c : ChanId) (r : RankId) (u : SubId) (b : Fin 4) (s : State) :
    Host.Outcome State Fault Refusal := .next (s.forcedRfm c r u b)

/-- ROW_CLOSE. -/
def execRowClose (c : ChanId) (u : SubId) (r : RankId) (bg : Fin 8) (b : Fin 4) (s : State) :
    Host.Outcome State Fault Refusal := .next (s.rowClose c u r bg b)

/-- POWER_DOWN_ENTRY. -/
def execPowerDownEntry (c : ChanId) (r : RankId) (s : State) : Host.Outcome State Fault Refusal := .next (s.powerDown c r)

/-- WRITE_CRC_ALERT. -/
def execWriteCrcAlert (c : ChanId) (u : SubId) (window : Nat) (s : State) : Host.Outcome State Fault Refusal :=
  .next (s.crcAlert c u window)

/-- STORM_RETRAIN_DONE. -/
def execStormRetrainDone (c : ChanId) (u : SubId) (s : State) : Host.Outcome State Fault Refusal :=
  .next (s.stormDone c u)

end Sys2Proof.Machine
end

