-- ==== Sys2Proof/Machine/Course.lean ====
section
/-! DEFINITION. The course boundary (R132, R133, R170 to R186): the end of a course with its debt, keystones, hot refresh,
the conditions for fill, the start of a page's fill, fill or rest, short courses, and the drift steps of RETRAIN (R307). -/

namespace Sys2Proof.Machine

/-! ### Slots that a short course skips (R183, R184) -/

/-- A slot runs as COMPRESSIBLE WINDOW on a subchannel: a live bus entry over it decides, else those that are not live
(R136). -/
def runsCompressible (es : List Entry) (number slot u : Nat) (hot : Bool) : Bool :=
  let covering := es.filter fun e => e.isBus && e.onSub u && e.covers slot
  let live := covering.filter fun e => e.live number hot
  let deciding := if live.isEmpty then covering else live
  !deciding.isEmpty && deciding.all fun e => e.type == 5 && e.compressible

/-- How far the choice of skipped slots has come: how many are left, those skipped, and the blocking parts to keep. -/
structure Skips where
  left : Nat
  skipped : List Nat := []
  kept : List (Nat × Nat) := []

/-- Take or keep one slot. -/
def Skips.next (es : List Entry) (number : Nat) (hot : Bool) (k : Skips) (slot : Nat) : Skips :=
  let guarded := k.kept.any fun x => decide (x.1 ≤ slot) && decide (slot < x.2)
  if 0 < k.left ∧ guarded = false ∧ runsCompressible es number slot 0 hot = true ∧
      runsCompressible es number slot 1 hot = true then
    { k with left := k.left - 1, skipped := k.skipped ++ [slot] }
  else
    let begun := es.filter fun e => e.isOverlay && e.start == slot && e.live number hot
    { k with kept := k.kept ++ begun.map fun e => (e.blockFrom, e.fin) }

/-- The slots that a short course skips on a channel, for so many to skip. -/
def skipSlots (es : List Entry) (slots number : Nat) (hot : Bool) (debt : Nat) : List Nat :=
  if debt = 0 then []
  else ((List.range slots).foldl (Skips.next es number hot) { left := ceilDiv debt 16 }).skipped

namespace State

/-! ### The end of a course (R133, R182, R185) -/

/-- The channels in use that run the course. -/
def runningChans (s : State) : List ChanId := s.chansInUse.filter s.chanServes

/-- The time at which the course under way ends: when the last channel has completed its last slot, and a forced refresh of one
that has waited has issued (R133). -/
def courseEnd (s : State) : Nat :=
  (s.runningChans.map fun c => max (s.timeOf c (s.endMck c)) s.chans[c].forcedTo).foldl max s.seq.begun

/-- Length of the course under way, in MCK from boundary to boundary (R182). -/
def courseLen (s : State) : Nat := mckIn s.chans[s.lead].mts (s.courseEnd - s.seq.begun)

/-- The course under way may end: every entry and Latch has been done, no forced command and no storm retrain is open, every
channel's counter has reached its end, and in QUIESCE what was granted or trains has finished (R133, R304). -/
def courseOver (s : State) : Bool :=
  s.coursesRun &&
    (s.runningChans.all fun c => s.chans[c].due.isEmpty && s.chans[c].latch.isEmpty && !s.storming c && !s.anyForced c &&
      decide (s.endMck c ≤ s.mckNow c) && decide (s.courseEnd ≤ s.time) &&
      (s.chans[c].st == .service || (s.chans[c].arb.holder.isNone && s.chans[c].service.isNone)))

/-- A channel's slot counter stands at 0 from a time on, with nothing of a course done (R131). -/
def restartChan (s : State) (t : Nat) (c : ChanId) : State :=
  s.updChan c fun ch => { ch with
    base := 0, from_ := t, due := [], latch := [], skipped := [], blocks := [], given := [], fetched := #v[0, 0]
    forcedAt := none, forcedTo := 0, mig := { ch.mig with paced := 0 } }

/-- A channel leaves the course under way at its end: its slots age the requests (R317), and a window that goes on past the
boundary keeps its end (R314). -/
def leaveCourse (s : State) (t : Nat) (c : ChanId) : State :=
  let waited := mckIn s.chans[c].mts (t - s.timeOf c (s.endMck c))
  let ended := s.endMck c + waited
  let slots := if s.chanServes c then s.grid + waited / 16 else 0
  (s.updChan c fun ch => { ch with
    slotBase := ch.slotBase + slots
    arb := { ch.arb with holder := ch.arb.holder.map fun x => (x.1, { x.2 with closes := x.2.closes - ended }) } }).restartChan t c

/-- The course ends: DEBT is updated, and a long course raises source 72 (R182, R185). The next course has the next number
(R132), and starts at the time of the boundary. -/
def endCourse (s : State) : State :=
  let len := s.courseLen
  let full := s.grid * 16
  let long := full + 256 < len
  let t := s.courseEnd
  let s1 := (s.chansInUse.foldl (fun acc c => acc.leaveCourse t c) s).updSeq fun q => { q with
    debt := min (2 ^ 32 - 1) (q.debt + len - full), number := (q.number + 1) % 2 ^ 64
    lastFill := q.fill, lastShort := q.short, overrunOpen := q.overrunOpen || decide long, begun := t }
  if long then s1.raise 72 else s1

/-! ### Hot refresh (R296) -/

/-- Hot refresh enters or leaves force on a channel, by what its ranks have read since the last boundary. -/
def hotRefresh (s0 : State) (c : ChanId) : State :=
  let ks := (List.finRange 4).filter fun r => s0.rankTrained c r && !s0.rankAsleep c r
  let on := ks.any fun r => s0.chans[c].ranks[r].sawHot
  let s := s0.updChan c fun ch => { ch with ranks := ch.ranks.map fun (k : Rank) => { k with sawHot := false } }
  let off := ks.all fun r => decide (4 ≤ s.chans[c].ranks[r].cool)
  let hot := s.chans[c].hot
  if (!hot && on) || (hot && off) then
    ((s.updChan c fun ch => { ch with hot := !hot }).logDram 0x0B06 c 0xFF 0xFF (if hot then 0 else 1) (s.hottest c) 0).raise 71
  else s

/-! ### Conditions for fill (R173) -/

/-- The page that the sequencer tests: the FILLING page, or the first QUEUED one. -/
def candidate (s : State) : Option Page := s.fillingPage.or (s.seq.pages.find? fun p => p.st = .queued)

/-- The table ID that a page asks of a channel. -/
def Page.tableOf (p : Page) (c : ChanId) : Dword := if c = 0 then p.tableA else p.tableB

/-- A channel's active table has a FETCH entry for a link. -/
def hasFetch (s : State) (c : ChanId) (n : LinkId) : Bool := (s.table c).table.any fun e => e.isFetch && e.link == n.val

/-- The code of the first condition of R173 that a page fails, or 0. -/
def waitCode (s : State) (p : Page) : Nat :=
  let cs := s.chansInUse
  let halting := s.seq.drain == .halting && s.seq.haltMode == 0 && p.st == .filling
  if cs.any fun c => (s.table c).tableId != Page.tableOf p c then 1
  else if s.part == .zr3218 && !s.raster.single && (s.table 0).slots != (s.table 1).slots then 2
  else if s.partLinks.any fun n => p.links[n].lines != 0 && p.links[n].strip != 0 && cs.any fun c => !s.hasFetch c n then 3
  else if s.passMode && p.reverse != s.web.reverse then 4
  else if s.seq.drain != .running && !halting then 5
  else 0

/-- Test the page at the boundary: WAIT_REASON, and source 87 when it leaves 0 for a code of 1 to 4 (R173). -/
def testPage (s : State) : State :=
  let code := match s.candidate with
    | some p => s.waitCode p
    | none => 0
  let s1 := s.updSeq fun q => { q with wait := code }
  if s.seq.wait = 0 ∧ 1 ≤ code ∧ code ≤ 4 then s1.raise 87 else s1

/-! ### The start of a page's fill (R166, R170, R172, R190, R233, R253, R266, R270) -/

/-- The start line of a page, and the lines by which a first page of a pass is shifted (R170, R266). -/
def startLine (s : State) (p : Page) : Int × Option Int :=
  let first := s.passMode && s.seq.firstOfPass
  let prev : Option Int := if first then some 0 else s.seq.prevEnd
  let ahead : Int := s.travelNow p.reverse / lineUnit + s.leffOf p + 2
  match prev with
  | some e =>
    if s.seq.joinable && !first then (e + p.gap, none)
    else (max e ahead + p.gap, if first && decide (e < ahead) then some ahead else none)
  | none => (ahead + p.gap, none)

/-- Links in REJOIN become UP when the fill of a page starts (R253): the next line of the link is number 0. -/
def rejoin (s : State) (n : LinkId) : State :=
  if s.links[n].st ≠ .rejoin then s else (s.renumber n).setLink n .up

/-- A link's part of a page when its fill starts: phase, pitch, line numbers, and BLANK lines that count as filled. -/
def beginLink (s : State) (l : PageLink) (n : LinkId) : PageLink :=
  { l with
    phase := if l.phaseValid then l.phaseLines.toInt * lineUnit + l.phaseFrac.toNat else s.links[n].phase
    pitch := s.ks.force.link[n].pitch.toNat
    base := s.links[n].count
    taken := if l.blank then l.lines else 0 }

/-- The fill of a page starts. -/
def beginPage (s : State) (p : Page) : State :=
  let (start, shift) := s.startLine p
  let s1 := match shift with
    | some x => s.logWeb 0x0A07 0xFF 0 s.web.st.code s.web.st.code x p.id.toNat
    | none => s
  let s2 := s1.partLinks.foldl (fun acc n => acc.rejoin n) s1
  let s3 := { s2 with links := s2.links.map fun (l : Link) => { l with phase := l.phaseNext.getD l.phase, phaseNext := none } }
  let s4 := s3.updPage p.id fun q => { q with
    st := .filling, start := start, links := Vector.ofFn fun n : Fin 32 => s3.beginLink q.links[n] n }
  let s5 := { s4 with links := Vector.ofFn fun n : Fin 32 =>
    { s4.links[n] with count := (s4.links[n].count + p.links[n].lines) % 2 ^ 32 } }
  let s6 := s5.updSeq fun q => { q with
    prevEnd := some (start + p.length), firstOfPass := false, joinable := false
    drain := if p.haltAfter && q.drain == .running then .halting else q.drain
    haltMode := if p.haltAfter && q.drain == .running then 0 else q.haltMode }
  s6.pageFilled p.id

/-- Start the fill of the page at the head when nothing is in its way; a page that cannot start at this boundary is not
joined to its predecessor any more (R170). DESIGN CHOICE: the fill waits too while the domain of a link of the page is off, which
R18 asks and for which WAIT_REASON has no code (log entry 110). -/
def startPage (s : State) : State :=
  let waits := s.updSeq fun q => { q with joinable := false }
  match s.candidate with
  | some p => if p.st = .queued ∧ s.seq.wait = 0 ∧ s.linksPowered p = true then s.beginPage p else waits
  | none => waits

/-! ### Fill or rest (R180, R183, R185) -/

/-- The course that starts is a fill course: a page fills, and its lead is below the effective lookahead (R180). -/
def willFill (s : State) : Bool :=
  s.seq.wait == 0 && match s.fillingPage.filter s.linksPowered with
    | some p => match s.runningLead p with
      | some l => decide (l < s.leffOf p)
      | none => false
    | none => false

/-- A rest course clears DEBT, and the schedule is regained (R185). -/
def restCourse (s : State) : State :=
  let s1 := s.updSeq fun q => { q with fill := false, short := false, debt := 0, overrunOpen := false }
  if s.seq.overrunOpen then s1.raise 73 else s1

/-- The course that starts is a fill course, short when DEBT is above 0 (R183), or a rest course. -/
def fillOrRest (s : State) : State :=
  if s.willFill then s.updSeq fun q => { q with fill := true, short := decide (0 < q.debt) } else s.restCourse

/-- RESERVE that a link's FETCH entries before an index provide in the course. -/
def capBefore (s : State) (c : ChanId) (i link : Nat) : Nat :=
  let es := (s.table c).table
  (((es.zipIdx.take i).filter fun x => x.1.isFetch && x.1.link == link).map fun x => entryCap es s.grid x.2 x.1).sum

/-- Bursts that a FETCH entry of a course is given on the fuller subchannel (R140, R141). -/
def givenCount (s : State) (c : ChanId) (i : Nat) (e : Entry) : Nat :=
  let mine := s.links[Fin.ofNat 32 e.link].fetch.want
  let before := s.capBefore c i e.link
  let on (u : Nat) : Nat := (mine.filter fun x => let l := s.raster.loc x.addr; l.chan == c && l.sub.val == u).length
  min (entryCap (s.table c).table s.grid i e) (max (on 0) (on 1) - before)

/-- The FETCH entries of a channel that are given bursts in the course, with how many on the fuller subchannel. -/
def giveFetch (s : State) (c : ChanId) : List (Nat × Nat) :=
  if s.seq.fill then
    (s.table c).table.zipIdx.filterMap fun x =>
      if x.1.isFetch && decide (x.1.start < s.grid) && decide (0 < s.givenCount c x.2 x.1) then
        some (x.2, s.givenCount c x.2 x.1)
      else none
  else []

/-- The entries of a channel that act in the course, in START order (R133, R150, R184). -/
def dueEntries (s : State) (c : ChanId) (skipped : List Nat) (given : List (Nat × Nat)) : List Nat :=
  let es := (s.table c).table
  (es.zipIdx.filter fun x =>
    let e := x.1
    decide (e.start < s.grid) && e.live s.seq.number s.chans[c].hot &&
      ((e.isOverlay && !skipped.contains e.start) || e.type == 4 || (e.isFetch && given.any fun g => g.1 == x.2))).map
    (·.2)

/-- Lay out the course on a channel. -/
def planChan (s : State) (c : ChanId) : State :=
  let debt := if s.seq.short then s.seq.debt else 0
  let skipped := skipSlots (s.table c).table s.grid s.seq.number s.chans[c].hot debt
  let given := s.giveFetch c
  if s.chanServes c then
    s.updChan c fun ch => { ch with due := s.dueEntries c skipped given, skipped := skipped, given := given }
  else s

/-- Bursts that no entry of the course has read are lost to it, and each link's engine is late or not (R142, R215). -/
def closeFetch (s : State) : State :=
  (List.finRange 32).foldl (fun acc n =>
    ((acc.links[n].fetch.want).foldl (fun a u => a.loseBurst n u) acc).updFetch n fun f =>
      { f with want := [], late := f.busy }) s

/-! ### Drift steps of RETRAIN (R307) -/

/-- The bit of a rank in RETRAIN's RESULT0. -/
def rankBit (c : ChanId) (r : RankId) : BitVec 32 := BitVec.twoPow 32 (2 * r.val + c.val)

/-- What a step measures that no command of the block reports: readings of the DRAM, free (log entry 61). -/
def freeReading (k : Nat) : TemperResult :=
  let word (j : Nat) : Nat := (Config.openDword (k + j)).toNat
  let sub (j : Nat) : CentreReading :=
    { count := word j, moved := (BitVec.ofNat 8 (bits (word (j + 1)) 24 8)).toInt, eye := bits (word (j + 1)) 0 8 % 65 }
  { temp := bits (word 0) 0 8, mrMismatch := bits (word 0) 8 1 == 1, sub0 := sub 1, sub1 := sub 3
    saved := word 5 * 64 }

/-- How many free values such a reading takes. -/
def readingLen : Nat := 6

/-- Complete a RETRAIN that has no rank left (R307). -/
def retrainDone (s : State) (id : Nat) : State :=
  match s.findCmd id with
  | none => s
  | some c =>
    if c.mask ≠ 0 then s
    else if c.failed = 0 then s.succeed id c.passed.toNat
    else s.fail id .invalidField 0x18 c.passed.toNat

/-- The result of a rank of a RETRAIN: a rank that fails becomes DEGRADED and raises its channel's source (R307). -/
def rankResult (s : State) (id : Nat) (c : ChanId) (r : RankId) (ok : Bool) : State :=
  let bit := rankBit c r
  let s1 := if ok then s else (s.updRank c r fun k => { k with st := .degraded }).raiseChan c
  (s1.updCmd id fun x => { x with
    mask := x.mask &&& ~~~bit
    passed := if ok then x.passed ||| bit else x.passed
    failed := if ok then x.failed else x.failed ||| bit }).retrainDone id

/-- Write a RANK_TRAIN_FAILED entry (R309). -/
def logTrainFail (s : State) (c : ChanId) (r : RankId) (cause : TrainCause) (mask : BitVec 16) : State :=
  s.logErr 0x0B01 255 [fld 12 1 c.val, fld 13 1 0xFF, fld 14 1 r.val, fld 15 1 cause.step, fld 16 2 mask.toNat,
    fld 18 1 cause.code]

/-- The cause of a drift step that finds no passing point on a subchannel: READ 1 is what step 5 of training does, WRITE 2 what
step 7 does (R288, R293). -/
def driftCause (kind : Nat) : TrainCause := if kind = 1 then .read else .write

/-- One step of a RETRAIN without FULL is placed at the boundary as a hold of the slot counter: OSC, READ and WRITE of one
rank at a time (R307). A rank fails with a step that finds no passing point. DESIGN CHOICE: the length of the hold is free
below STALL_LIMIT, and the entry of a failed rank names the step of training that the drift step repeats (log entry 61). -/
def retrainStep (s : State) (x : Cmd) : State :=
  let ranks := [(0 : ChanId), 1].flatMap fun c => (List.finRange 4).map fun r => (c, r)
  match ranks.find? fun k => x.mask &&& rankBit k.1 k.2 ≠ 0 with
  | none => s.retrainDone x.id
  | some (c, r) =>
    if !s.chanServes c then s
    else
      let kind := x.bytes % 3
      let reading := freeReading s.free
      let hold := (Config.openDword (s.free + readingLen)).toNat % mckFor s.chans[c].mts 200000
      let bad := kind ≠ 0 && (reading.sub0.eye == 0 || reading.sub1.eye == 0)
      let s1 := { s with free := s.free + readingLen + 1 }.temperStep c r [0, 1] kind reading {}
      let s2 := if hold = 0 then s1
        else (s1.holdAt c 0 (s1.seq.begun + tauOf s.chans[c].mts hold)).logCourse 0x0202 c.val 0xFF r.val 0xFF 0 0xFFFF hold
          (s1.table c).tableId.toNat
      let s3 := if bad then s2.logTrainFail c r (driftCause kind) 0 else s2
      if kind < 2 then s3.updCmd x.id fun y => { y with bytes := y.bytes + 1, poisoned := if bad then 1 else y.poisoned }
      else (s3.updCmd x.id fun y => { y with bytes := 0, poisoned := 0 }).rankResult x.id c r (!bad && x.poisoned == 0)

/-- The oldest RETRAIN without FULL under way goes on by one step. -/
def retrainBoundary (s : State) : State :=
  match s.cmds.find? fun x => x.op = 0x44 && x.prog == .event && x.f 0 8 1 == 0 with
  | some x => s.retrainStep x
  | none => s

/-! ### Boundaries -/

/-- A course starts on the tables and settings that are in force now, on channels whose counters stand at 0. -/
def startCourse (s : State) : State :=
  let s1 : State := (s.chansInUse.foldl (fun acc c => acc.hotRefresh c) s).takeForce s.seq.number
  let s2 : State := s1.settleHalted.closeFetch.testPage.startPage.fillOrRest
  let s3 : State := match s2.fillingPage with
    | some p =>
      if s2.seq.fill then
        let leff := s2.leffOf p
        let t : State := s2.partLinks.foldl (fun acc n => acc.planLink p leff n) s2
        t.partLinks.foldl (fun acc n => acc.shortfalls n) t
      else s2
    | none => s2
  let s4 : State := s3.chansInUse.foldl (fun acc c => acc.planChan c) s3
  ((s4.updSeq fun q => { q with started := true }).retrainBoundary).settlePages.checkFloor

/-- Courses begin anew, now, on every channel in use (R132, R305). -/
def beginCourses (s : State) : State :=
  ((s.chansInUse.foldl (fun acc c => acc.restartChan s.time c) s).updSeq fun q => { q with begun := s.time }).startCourse

/-- The boundary at which channels in QUIESCE go into self-refresh: a boundary at which no page fills on them (R173, R185,
R304). -/
def issueSre (s : State) : State :=
  let s1 := ([(0 : ChanId), 1].filter fun c => s.chans[c].st == .quiesce).foldl (fun acc c => acc.issueSreOn c) s
  if s1.coursesRun then s1.startCourse
  else
    let s2 := ((s1.takeForce s.seq.number).settleHalted).closeFetch.testPage.restCourse
    s2.settlePages

/-- A course boundary: the course under way ends, and the next starts, or the channels leave for self-refresh. -/
def boundary (s : State) : State :=
  if s.courseOver then
    let s1 := s.endCourse
    if s.chansInUse.any fun c => s.chans[c].st == .quiesce then s1.issueSre else s1.startCourse
  else s

end State

/-! ### Rows of the table -/

/-- COURSE_BOUNDARY. An uncorrectable word of the course tables or the page list quenches the device (R224, R360). -/
def execCourseBoundary (bad : Bool) (s : State) : Host.Outcome State Fault Refusal :=
  .next (if bad && s.courseOver then s.enterQuench 2 3 else s.boundary)

end Sys2Proof.Machine
end

