-- ==== Sys2Proof/Machine/Arbiter.lean ====
section
/-! DEFINITION. The window arbiter and the regulators (R310 to R326): eligibility, ranking, grants, pre-emption and token
periods. -/

namespace Sys2Proof.Machine

/-- Class of a requester (R316). -/
def Ks.classOf (k : Ks) (r : Fin 12) : Nat :=
  if r.val < 8 then bits k.class0.toNat (4 * r.val) 3 else bits k.class1.toNat (4 * (r.val - 8)) 3

/-- RATE of a regulator's settings. -/
def regRate (d : Dword) : Nat := bits d.toNat 0 16

/-- The transfer is a read-modify-write. -/
def Xfer.isRmw (x : Xfer) : Bool := x.bursts.any fun b => b.kind == .rmw

/-- Tokens that a transfer needs (R325). -/
def Xfer.tokens (x : Xfer) : Nat := if x.isRmw then 512 else 256 * x.bursts.length

/-- CWL in MCK (R149): 50 at 6,400 MT/s. -/
def cwlMck (mts : Nat) : Nat := ceilDiv mts 128

/-- MCK for which a burst holds its subchannel (R292): a write carries its CRC. DEDUCED: the halves of a read-modify-write lie a
write latency apart (log entry 111). -/
def Burst.mck (mts : Nat) (b : Burst) : Nat :=
  match b.kind with
  | .read => 8
  | .write => 9
  | .rmw => 17 + cwlMck mts

/-- The numbers of bursts of a transfer that may be tried, the most first. -/
def prefixes (k : Nat) : List Nat := (List.range k).map fun i => k - i

namespace State

/-- Age of a presented transfer: slots since it was presented (R317). -/
def ageOf (s : State) (c : ChanId) (x : Xfer) : Nat := min 4095 (s.slotsRun c - x.born)

/-- MCK that bursts take on a subchannel (R311, R314). -/
def mckOn (s : State) (c : ChanId) (u : SubId) (bs : List Burst) : Nat :=
  ((bs.filter fun b => (s.raster.loc b.addr).sub == u).map (Burst.mck s.chans[c].mts)).sum

/-- Bursts fall inside the windows that are open now on their subchannels (R314). DEDUCED: a freed slot of 16 MCK holds two reads on
each subchannel, so the data beats decide (log entry 111). -/
def fitsWindow (s : State) (c : ChanId) (bs : List Burst) : Bool :=
  decide (s.mckOn c 0 bs ≤ s.windowMck c 0) && decide (s.mckOn c 1 bs ≤ s.windowMck c 1)

/-- The first bursts of a transfer that the windows let start (R314). -/
def fitting (s : State) (c : ChanId) (x : Xfer) : List Burst :=
  match (prefixes x.bursts.length).find? fun k => s.fitsWindow c (x.bursts.take k) with
  | some k => x.bursts.take k
  | none => []

/-- The value of the slot counter at which a transfer that starts now ends. -/
def endsAt (s : State) (c : ChanId) (bs : List Burst) : Nat := s.mckNow c + max (s.mckOn c 0 bs) (s.mckOn c 1 bs)

/-- The value of the slot counter at which the windows of bursts that start now close. -/
def closesAt (s : State) (c : ChanId) (bs : List Burst) : Nat :=
  let of (u : SubId) : List Nat := if s.mckOn c u bs = 0 then [] else [s.windowMck c u]
  s.mckNow c + (least (of 0 ++ of 1)).getD 0

/-- No burst goes to a bank that an overlay entry blocks before the slot counter reaches a value (R315). -/
def unblocked (s : State) (c : ChanId) (src : Src) (bs : List Burst) (upTo : Nat) : Bool :=
  bs.all fun b => let l := s.raster.loc b.addr; !s.bankBlocked c (s.xferRank c src b) l.sub l.bank upTo

/-- The rows that bursts need activated: rank, subchannel, bank, bank group, row. -/
def needsAct (s : State) (bs : List Burst) : List (RankId × SubId × Fin 4 × Fin 8 × Nat) :=
  ((bs.filter fun b => !s.rowOpen b.addr).map fun b =>
    let l := s.raster.loc b.addr; (s.physRank b.addr, l.sub, l.bank, l.group, l.row)).eraseDups

/-- The activates of bursts stay within a port's ACT_LIMIT (R298). -/
def actsAllowed (s : State) (c : ChanId) (port : Option HostId) (bs : List Burst) : Bool :=
  let limit := bits s.ks.force.rfm.toNat 16 12
  match port with
  | none => true
  | some h =>
    let rows := s.needsAct bs
    limit == 0 || rows.all fun x =>
      let same := rows.filter fun y => y.1 == x.1 && y.2.1 == x.2.1 && y.2.2.1 == x.2.2.1
      decide ((s.bankIdx c x.1 x.2.1 x.2.2.1).acts[h] + same.length ≤ limit)

/-- The regulator of a requester's port holds the tokens of a transfer (R325). -/
def tokensHeld (s : State) (r : Fin 12) (x : Xfer) : Bool :=
  match portOf r with
  | none => true
  | some h => !regOn s.ks.force.reg[h] || decide (x.tokens ≤ s.buckets[h].tokens)

/-- Two bursts lie in one row: rank, bank group, bank and row (R323). -/
def sameRow (s : State) (a b : Nat) : Bool :=
  let l := s.raster.loc a
  let m := s.raster.loc b
  s.physRank a == s.physRank b && l.group == m.group && l.bank == m.bank && l.row == m.row

/-- A transfer that has been granted holds back a read that was presented after it and reads a row that it writes. -/
def guards (s : State) (y x : Xfer) : Bool :=
  (y.granted.map fun t => decide (t ≤ x.presented)) == some true &&
    y.bursts.any fun b => b.kind != .read && x.bursts.any fun a => a.kind != .write && s.sameRow a.addr b.addr

/-- The row-match rule holds a transfer back: a write to a row that it reads was granted before it was presented, and runs or
has still to restart (R323). -/
def heldBack (s : State) (c : ChanId) (x : Xfer) : Bool := (s.transfers c).any fun y => s.guards y x

/-- A write to a burst that the migrator has in transit waits until its transfer has ended (R354). -/
def inTransit (s : State) (c : ChanId) (x : Xfer) : Bool :=
  x.src != .mig && x.bursts.any fun b => b.kind != .read && s.chans[c].mig.transit.contains b.addr

/-- The bursts that a request may be granted now but for its tokens: none when it is not eligible (R315). -/
def offer (s : State) (c : ChanId) (r : Fin 12) (x : Xfer) : List Burst :=
  let bs := s.fitting c x
  if s.unblocked c x.src bs (s.endsAt c bs) && s.actsAllowed c (portOf r) bs && !s.heldBack c x && !s.inTransit c x then bs
  else []

/-- The presented requests of a channel with the bursts that may be granted. -/
def offers (s : State) (c : ChanId) : List (Fin 12 × Xfer × List Burst) :=
  (List.finRange 12).filterMap fun r => s.chans[c].arb.reqs[r].head?.map fun x => (r, x, s.offer c r x)

/-- The eligible requests of a channel (R315). DEDUCED: the whole transfer's tokens are asked for also when part of it is granted,
as R325 says (log entry 111). -/
def eligible (s : State) (c : ChanId) : List (Fin 12 × Xfer × List Burst) :=
  (s.offers c).filter fun k => k.2.2 != [] && s.tokensHeld k.1 k.2.1

/-- Rank of a request: class, then age, then the round-robin order after the last requester granted (R316). -/
def rankOf (s : State) (c : ChanId) (r : Fin 12) (x : Xfer) : Nat :=
  let after := match s.chans[c].arb.parked with
    | some p => (r.val + 11 - p.val) % 12
    | none => r.val
  (s.ks.force.classOf r * 4096 + s.ageOf c x) * 12 + (11 - after)

/-- The request that ranks highest. -/
def winner (s : State) (c : ChanId) (ks : List (Fin 12 × Xfer × List Burst)) : Option (Fin 12 × Xfer × List Burst) :=
  ks.foldl (fun best k => match best with
    | some b => if s.rankOf c b.1 b.2.1 < s.rankOf c k.1 k.2.1 then some k else some b
    | none => some k) none

/-- Change an arbiter. -/
def updArb (s : State) (c : ChanId) (f : Arb → Arb) : State := s.updChan c fun ch => { ch with arb := f ch.arb }

/-- Change a bucket. -/
def updBucket (s : State) (h : HostId) (f : Bucket → Bucket) : State := { s with buckets := vmod s.buckets h f }

/-- Count the ports that a decision passed over for want of tokens (R325). -/
def countPassed (s : State) (ks : List (Fin 12 × Xfer × List Burst)) : State :=
  (List.finRange 4).foldl (fun (acc : State) h =>
    if ks.any fun k => portOf k.1 == some h && k.2.2 != [] && !s.tokensHeld k.1 k.2.1 then
      acc.updBucket h fun b => { b with passed := satAdd 0xFFFF b.passed 1 }
    else acc) s

/-- Requesters that count as enabled choose the configuration (R313). -/
def configure (s : State) (c : ChanId) : State :=
  let n := ((List.finRange 12).filter s.takesPart).length
  s.updArb c fun a => { a with overlapped := s.part == .zr3218 && decide (6 < n) }

/-- Take or give back the tokens of a transfer (R325). -/
def chargeTokens (s : State) (r : Fin 12) (x : Xfer) (back : Bool) : State :=
  match portOf r with
  | none => s
  | some h =>
    let d := s.ks.force.reg[h]
    if regOn d then s.updBucket h fun b =>
      { b with tokens := if back then min (regDepth d) (b.tokens + x.tokens) else b.tokens - x.tokens }
    else s

/-- Grant a request the bursts that fit; those left over come next of its requester, with the age of the transfer (R314). The
requester presents its next transfer when the whole of this one is granted (R311). -/
def grant (s : State) (c : ChanId) (r : Fin 12) (x : Xfer) (bs : List Burst) : State :=
  let rest := x.bursts.drop bs.length
  let g : Xfer := { x with bursts := bs, granted := some (x.granted.getD s.time), closes := s.closesAt c bs, done := 0 }
  let s1 := s.updArb c fun a =>
    let later := a.reqs[r].drop 1
    { a with
      reqs := vset a.reqs r (if rest.isEmpty then later else { x with bursts := rest } :: later)
      holder := some (r, g), parked := some r }
  (s1.chargeTokens r g false).presentOne c r

/-- A request is among those that a decision sees: in the overlapped configuration it has been present for 2 MCK (R318). -/
def visible (s : State) (c : ChanId) (x : Xfer) : Bool :=
  !s.chans[c].arb.overlapped || decide (x.presented + tauOf s.chans[c].mts 2 ≤ s.time)

/-- The parked owner's request that starts without a decision: it has come to an idle bus, and no other eligible one has come in
its MCK or before it (R319). -/
def parkedStart (s : State) (c : ChanId) (ks : List (Fin 12 × Xfer × List Burst)) : Option (Fin 12 × Xfer × List Burst) :=
  let mck (x : Xfer) : Nat := mckIn s.chans[c].mts x.presented
  let arb := s.chans[c].arb
  (ks.find? fun k => arb.parked == some k.1).filter fun k =>
    decide (arb.freed < k.2.1.presented) && ks.all fun y => y.1 == k.1 || decide (mck k.2.1 < mck y.2.1)

/-- A decision of a channel's arbiter (R316, R318, R319): it comes with the last column command of a transfer, or on an idle bus. -/
def decision (s : State) (c : ChanId) : State :=
  if s.chans[c].st ≠ .service ∨ s.chans[c].arb.holder.isSome = true then s
  else match s.parkedStart c (s.eligible c) with
    | some (r, x, bs) => s.grant c r x bs
    | none =>
      let s1 := (s.configure c).countPassed ((s.configure c).offers c)
      match s1.winner c ((s1.eligible c).filter fun k => s1.visible c k.2.1) with
      | some (r, x, bs) => s1.grant c r x bs
      | none => s1

/-! ### Pre-emption (R320, R321) -/

/-- A burst whose column command has issued before its transfer was withdrawn completes (R320): a write is written; a read is
read, and its data is not used. -/
def issuedBurst (s : State) (c : ChanId) (r : Fin 12) (src : Src) (b : Burst) : State :=
  match b.kind, src with
  | .write, .cmd id => s.doBurst id b
  | .write, .mig => s.doMigrate c b
  | .write, _ => s.touchRow b.addr 3 (By.window r (portOf r))
  | _, .cmd id =>
    let t := s.readRow b.addr (By.window r (portOf r))
    if ((s.findCmd id).map (·.op)) == some 0x51 then t else t.noteRead 0 b.addr
  | _, .mig => (s.readRow b.addr (By.window r none)).noteRead 4 b.addr
  | _, _ => (s.readRow b.addr (By.window r none)).noteRead 3 b.addr

/-- A check finds an eligible request of strictly higher class (R320); the overlapped configuration checks in every second MCK
(R318). -/
def challenged (s : State) (c : ChanId) (r : Fin 12) : Bool :=
  (!s.chans[c].arb.overlapped || mckIn s.chans[c].mts s.time % 2 == 0) &&
    (s.eligible c).any fun k => decide (s.ks.force.classOf r < s.ks.force.classOf k.1)

/-- The FETCH entry whose early commands may issue now on a channel closes a bank that a transfer needs (R138, R320). -/
def fetchCloses (s : State) (c : ChanId) (x : Xfer) : Bool :=
  s.chans[c].due.any fun i => match s.nextEntry c i with
    | some e => e.isFetch && (s.givenTo c i e).any fun u =>
        s.raster.isWritten (s.raster.ashlar u.addr) && !s.rowOpen u.addr &&
          (x.bursts.drop x.done).any fun b =>
            let l := s.raster.loc b.addr
            let m := s.raster.loc u.addr
            s.xferRank c x.src b == s.physRank u.addr && l.sub == m.sub && l.group == m.group && l.bank == m.bank
    | none => false

/-- A holder's grant is lost: to a higher class, by the end of its window, or by an entry that needs its bank (R320). -/
def loses (s : State) (c : ChanId) (r : Fin 12) (x : Xfer) : Bool :=
  s.challenged c r || s.windowShut c x || s.fetchCloses c x || !s.unblocked c x.src (x.bursts.drop x.done) (s.mckNow c + 1)

/-- The holder's transfer is withdrawn whole, and is presented again with its age (R320). -/
def represent (s : State) (c : ChanId) (r : Fin 12) (x : Xfer) : State :=
  (s.updArb c fun a => { a with
    holder := none, preemptions := satAdd 0xFFFF a.preemptions 1
    reqs := vset a.reqs r ({ x with done := 0 } :: a.reqs[r]) }).chargeTokens r x true

/-- The read half of a granted read-modify-write has issued: its write half follows, whatever comes (R321). -/
def protect (s : State) (c : ChanId) (r : Fin 12) (x : Xfer) : State :=
  let (s1, n) := issueBursts c x.src x.bursts 0 s
  if n = 0 ∨ s1.chans[c].arb.holder = none then s1
  else s1.updArb c fun a => { a with holder := some (r, { x with half := true, done := 1 }) }

/-- The holder may lose its grant after so many of its bursts have issued (R320). A read-modify-write whose read half has issued
is not pre-empted (R321). -/
def preempt (s : State) (c : ChanId) (issued : Nat) : State :=
  match s.chans[c].arb.holder with
  | none => s
  | some (r, x) =>
    if x.half || decide (x.bursts.length ≤ issued) && !x.isRmw || !s.chanServes c || s.storming c || !s.loses c r x then s
    else if x.isRmw && decide (0 < issued) then s.protect c r x
    else
      let s1 := ((x.bursts.take issued).drop x.done).foldl (fun acc b => acc.issuedBurst c r x.src b) s
      if s1.chans[c].arb.holder = none then s1 else s1.represent c r x

/-- A token period of 64 CCK has passed (R324). -/
def refill (s : State) : State :=
  if s.time < s.refilled + loopTau then s
  else { s with
    refilled := s.refilled + loopTau
    buckets := Vector.ofFn fun h : Fin 4 =>
      let d := s.ks.force.reg[h]
      { s.buckets[h] with tokens := min (regDepth d) (s.buckets[h].tokens + regRate d) } }

end State

/-! ### Rows of the table -/

/-- TRANSFER_COMPLETE: a granted transfer of a channel ends (R311), and staging that it held may pass on (R223). -/
def execTransferComplete (c : ChanId) (staging : Option Nat) (s : State) : Host.Outcome State Fault Refusal :=
  .next ((s.transferDone c staging).settlePool)

/-- ARBITER_DECISION. -/
def execArbiterDecision (c : ChanId) (s : State) : Host.Outcome State Fault Refusal := .next (s.decision c)

/-- PREEMPTION. -/
def execPreemption (c : ChanId) (issued : Nat) (s : State) : Host.Outcome State Fault Refusal :=
  .next (s.preempt c issued)

/-- TOKEN_REFILL. -/
def execTokenRefill (s : State) : Host.Outcome State Fault Refusal := .next s.refill

end Sys2Proof.Machine
end

