-- ==== Sys2Proof/Machine/Ports.lean ====
section
/-! DEFINITION. Host ports (R20, R24, R27, R418): resets, links that come up, and the heartbeat deadlines (R40). -/

namespace Sys2Proof.Machine

/-- The queues of a port after its reset (R49). -/
def resetQueues : Vector Queue 4 := Vector.ofFn fun q : Fin 4 => { vector := ⟨q.val, by omega⟩ }

/-- A host's record after a reset of its port: queue registers, status, mask, coalescing, MSI-X and configuration space at their
reset values (R19, R27, R418); the settings of SET_FEATURE, the fence cause and the ignored writes stay. -/
def HostRec.portReset (r : HostRec) : HostRec :=
  { r with st := .down, queues := resetQueues, turn := 0, status := 0, mask := 0, vecs := Vector.replicate 32 {}, latch := [], pci := {} }

namespace State

/-- The port has come up or may: the part has it, HOST is powered, and the device is out of POR; in banked mode only the first
port to link comes up (R395, R405). -/
def portMayLink (s : State) (h : HostId) : Bool :=
  decide (h.val < s.part.ports) && s.domainOn 2 && s.boot.stage != 0 &&
    (!s.banked || (List.finRange 4).all fun k => k == h || s.hosts[k].st == .down)

/-- A port is reset: its commands stop without completions, its host detaches and is DOWN, and source 76 + h is raised once
(R27, R34). -/
def resetPort (s : State) (h : HostId) : State :=
  let was := s.hosts[h].st
  let s1 := (((s.stopHost h).vacate h).reserve h).updHost h HostRec.portReset
  let s2 : State := { s1 with ks := { s1.ks with cmds := s1.ks.cmds.filter fun x => (s1.findCmd x.1).isSome } }
  if was = .down then s2 else s2.raiseHost h

/-- A port's link comes up: its host is LINKED, with its count of ignored writes at 0 (R24). DESIGN CHOICE: its software enables MSI-X
in configuration space, for which the table has no row (log entry 8). -/
def linkPort (s : State) (h : HostId) : State :=
  if s.portMayLink h && s.hosts[h].st == .down then
    (s.updHost h fun r => { r with st := .linked, ignored := 0, pci := { r.pci with msixEnable := true } }).raiseHost h
  else s

/-- The deadline of HB_TIMEOUT has passed for an ATTACHED host (R40). -/
def hbTimeout (s : State) (h : HostId) : State :=
  if s.hosts[h].st == .attached && s.silent h 1 then s.becomeLate h else s

/-- The deadline of twice HB_TIMEOUT has passed for a LATE host that expires (R40). -/
def hbExpiry (s : State) (h : HostId) : State :=
  if s.hosts[h].st == .late && s.silent h 2 && s.expires h then s.fence h 2 0xFF else s

end State

/-! ### Rows of the table -/

/-- PORT_RESET. -/
def execPortReset (h : HostId) (_kind : PortResetKind) (s : State) : Host.Outcome State Fault Refusal :=
  .next (s.resetPort h)

/-- PORT_LINK_UP. -/
def execPortLinkUp (h : HostId) (s : State) : Host.Outcome State Fault Refusal := .next (s.linkPort h)

/-- HB_TIMEOUT. -/
def execHbTimeout (h : HostId) (s : State) : Host.Outcome State Fault Refusal := .next (s.hbTimeout h)

/-- HEARTBEAT_EXPIRY. -/
def execHeartbeatExpiry (h : HostId) (s : State) : Host.Outcome State Fault Refusal := .next (s.hbExpiry h)

end Sys2Proof.Machine
end

