-- ==== Sys2Proof/Machine/Reset.lean ====
section
/-! DEFINITION. Device resets (R396 to R398), failed starts (R404), and what AON keeps across them. -/

namespace Sys2Proof.Machine

namespace State

/-- The channel's DRAM has been trained by a start. -/
def trained (s : State) (c : ChanId) : Bool := s.chans[c].st != .absent && s.chans[c].st != .untrained

/-- The channel's DRAM is in self-refresh. -/
def resting (s : State) (c : ChanId) : Bool :=
  s.chans[c].st == .selfRefresh || s.chans[c].st == .quenched || s.chans[c].st == .domainOff

/-- Every channel in use is in self-refresh (R397). -/
def allResting (s : State) : Bool := s.chansInUse.all s.resting

/-- Every channel in use has been trained, so that its controller can put it in self-refresh without firmware (R397). -/
def allTrained (s : State) : Bool := s.chansInUse.all s.trained

/-- A channel across a warm reset: its DRAM in self-refresh, each rank with its state and temperature unknown, and a
migration with its pointer (R351, R398). -/
def keptChan (ch : Chan) : Chan :=
  { st := if ch.st = .absent ∨ ch.st = .untrained then ch.st else .selfRefresh
    ranks := ch.ranks.map fun (r : Rank) => { st := r.st, selfRefresh := true }
    arb := { overlapped := ch.arb.overlapped }
    mig := { ch.mig with paced := 0, transit := [], hasRead := false, bad := 0, due := none } }

/-- Raster memory across a warm reset: fills under way are dropped with their map bits clear, and the shadows are those in
force (R92, R98). -/
def keptRaster (r : Raster) : Raster :=
  { r with filling := [], maskShadow := r.mask, spareShadow := r.spare, refused := false, reason := 0 }

/-- What AON and the flash keep of the start-up state (R398, R401, R403). -/
def keptBoot (b : Boot) (src : Nat) (keep warm : Bool) : Boot :=
  { stage := 1, cause := b.cause, fails := b.fails, lastReset := src, force := b.force, versionA := b.versionA
    versionB := b.versionB, recs := b.recs, keep := keep, warm := warm, failStage := b.failStage, ranVersion := b.image.version
    ranSlotB := b.slotB }

/-- All logic outside AON is reset, and what the kind of reset keeps is kept (R398). Outputs, commands that wait at the
device's inputs, the pins' state and the die temperature are outside the logic. DESIGN CHOICE: where the strip records are freed,
their generations are lost with them and count from 1 again (R107, R130, log entry 121). -/
def resetLogic (s : State) (warm : Bool) (src : Nat) : State :=
  let fresh := State.init s.part
  let keep := warm && s.allTrained
  { fresh with
    pending := s.pending, free := s.free, out := s.out
    raster := if keep then keptRaster s.raster else {}
    strips := if keep then s.strips else []
    chans := if keep then s.chans.map keptChan else fresh.chans
    quench := { captured := s.quench.captured, dumps := s.quench.dumps }
    clk := { refSel := s.clk.refSel, calibrated := 0 }
    boot := keptBoot s.boot src keep warm
    power := { dieTemp := s.power.dieTemp, dieWarn := s.power.dieWarn, warned := s.power.warned } }

/-- A warm reset (R398): the drain halts at once, the DRAM is in self-refresh, and every host's commands stop. -/
def warmReset (s : State) (src : Nat) : State :=
  let s1 := s.haltNow
  ((List.finRange 4).foldl (fun acc h => acc.stopHost h) s1).resetLogic true src

/-- A full reset (R398): nothing of raster memory is kept. -/
def fullReset (s : State) (src : Nat) : State := s.resetLogic false src

/-- The reset that a RESET_DEVICE has scheduled (R396). -/
def resetDevice (s : State) (full : Bool) : State := if full then s.fullReset 2 else s.warmReset 3

/-- A failed start (R404): the counter, BOOT_CAUSE and the stage are recorded, and the device resets, warm or full (R397). -/
def failStart (s : State) (cause : Nat) (warm : Bool) : State :=
  let s1 := s.updBoot fun b => { b with fails := min 3 (b.fails + 1), cause := cause, failStage := b.stage }
  if warm then s1.warmReset 5 else s1.fullReset 5

end State

end Sys2Proof.Machine
end

