-- ==== Sys2Proof/Machine/Loops.lean ====
section
/-! DEFINITION. The multiplying loops and frequency changes (R368 to R385, R390): states, lock and coasting, the orderly stop,
and the steps of a change. -/

namespace Sys2Proof.Machine

/-- DRAM speed of a MEM_RATE code in MT/s; 0 for none (R389). -/
def rateMts : Fin 4 → Nat
  | 0 => 4800
  | 1 => 5600
  | 2 => 6400
  | _ => 0

/-- The settings with those of one loop taken from others. -/
def ClkSet.take (a b : ClkSet) (l : LoopId) : ClkSet :=
  if l = 1 then { a with memRate := b.memRate, memDepth := b.memDepth, memMode := b.memMode }
  else if l = 0 then { a with coreDepth := b.coreDepth, coreMode := b.coreMode }
  else a

/-- The window of R372: 2.56 us, in tau. -/
def windowTau : Nat := 409600

/-- The period of the spread profile: 32 us, in tau (R375). -/
def spreadTau : Nat := 5120000

/-- Mode and depth of a loop's spread: 0 off, 1 DOWN, 2 CENTRE, and steps of 0.05 % (R375, R377). -/
def ClkSet.spread (k : ClkSet) (l : LoopId) : Nat × Nat :=
  if l = 0 then (k.coreMode.val, k.coreDepth.val) else if l = 1 then (k.memMode.val, k.memDepth.val) else (0, 0)

/-- The place in the profile, in tau from the point that equals the nominal frequency, of its mean point on the way down (R379). -/
def meanPlace (mode : Nat) : Nat := if mode = 1 then spreadTau / 4 else 0

/-- How far the profile lies below the nominal frequency at a place, in parts per 10^7: a triangle between 0 and the depth in DOWN mode,
and between half the depth on either side in CENTRE mode, moving downward at place 0 (R375). -/
def spreadBelow (mode depth place : Nat) : Int :=
  let x := place % spreadTau
  let d : Int := 5000 * depth
  let saw (y : Nat) : Int := d * (2 * (if 2 * y ≤ spreadTau then y else spreadTau - y)) / spreadTau
  if mode = 1 then saw x else if mode = 2 then saw ((x + spreadTau / 4) % spreadTau) - d / 2 else 0

/-- A monitor error as the signed byte that reports it, saturating. -/
def errByte (e : Int) : Nat := (max (-128) (min 127 e) % 256).toNat

namespace State

/-- Write a clock log entry (R390). -/
def logClk (s : State) (type : Nat) (l : LoopId) (before after cause err : Nat) (r0 r1 : Fin 4) : State :=
  s.logErr type 255 [fld 12 1 l.val, fld 13 1 before, fld 14 1 after, fld 15 1 cause, fld 16 1 err, fld 17 1 r0.val,
    fld 18 1 r1.val]

/-- How far a loop's target frequency lies below the nominal one now, in parts per 10^7 (R375). -/
def spreadNow (s : State) (l : LoopId) : Int :=
  match s.clk.loops[l].spread with
  | some (t, place) => spreadBelow (s.clk.force.spread l).1 (s.clk.force.spread l).2 (place + (s.time - t))
  | none => 0

/-- A loop changes its state: an entry, and source 68, 69 or 70 (R374). With lock the spread starts at the nominal frequency, and at the
mean after coasting; a loop that coasts, stops or locks anew has none (R375, R379, R382). -/
def setLoop (s : State) (l : LoopId) (st : LoopState) (cause : Nat) : State :=
  let k := s.clk.loops[l]
  if k.st = st then s
  else
    let place := if k.st = .coasting then meanPlace (s.clk.force.spread l).1 else 0
    ((s.updLoop l fun x => { x with
      st := st, inTol := 0, missed := 0, monBad := 0, coastFrom := s.time
      window := if st = .acquire ∨ st = .relock then s.time else x.window
      spread := if st = .locked ∧ (s.clk.force.spread l).1 ≠ 0 then x.spread.or (some (s.time, place)) else none }).logClk 0x0E01 l
      k.st.code st.code cause (errByte k.err) s.clk.force.memRate s.clk.force.memRate).raise ⟨68 + l.val, by omega⟩

/-- A locked loop loses lock and coasts with its control value frozen (R372, R379). -/
def coast (s : State) (l : LoopId) (cause : Nat) : State :=
  if s.clk.loops[l].st = .locked then s.setLoop l .coasting cause else s

/-! ### The orderly stop (R380) -/

/-- The drain halts at a line boundary, no further marker leaves, and the channels go into self-refresh: steps 1 to 3. -/
def stopDevice (s : State) : State :=
  ((if s.drainHalted then s else s.halt 1).withdrawMarkers fun _ _ => true).steer

/-- An orderly stop for a loop (R380). -/
def orderlyStop (s : State) (l : LoopId) (cause : Nat) : State :=
  if s.stopRan then s
  else
    let s1 := (s.updClk fun k => { k with stopped := true }).stopDevice
    let k := s.clk.loops[l]
    let s2 := [(0 : LoopId), 1, 2].foldl
      (fun acc i => if acc.clk.loops[i].st = .coasting then acc.setLoop i .stopped cause else acc) s1
    s2.logClk 0x0E02 l k.st.code s2.clk.loops[l].st.code cause (errByte k.err) s.clk.force.memRate s.clk.force.memRate

/-! ### Steps of a change (R382, R385) -/

/-- Step 2: with every channel in self-refresh, the loop enters RELOCK. -/
def enterRelock (s : State) : State :=
  match s.clk.change with
  | none => s
  | some ch =>
    (s.updClk fun k => { k with change := some { ch with start := s.time } }).setLoop ch.loop .relock 0

/-- Bank 0 of a channel receives the built-in service table and is active; bank 1 counts as not loaded (R162, R174). -/
def builtinBanks (s : State) (c : ChanId) : State :=
  let t := builtinTable s.chans[c].mts s.raster.density (s.tableRanks c)
  (s.updChan c fun ch => { ch with active := 0, banks := #v[t, { ch.banks[(1 : Fin 2)] with loaded := false }] })

/-- Step 7: the change has ended (R382). -/
def finishChange (s : State) : State :=
  match s.clk.change with
  | none => s
  | some ch =>
    let s1 := s.updClk fun k => { k with change := none }
    let s2 := if ch.loop = 1 then s1.chansInUse.foldl (fun acc c => acc.builtinBanks c) s1 else s1
    let st := s.clk.loops[ch.loop].st.code
    (s2.logClk 0x0E03 ch.loop st st (if ch.back then s.clk.reason else 0) 0 ch.former.memRate s.clk.force.memRate).steer

/-- Step 5: lock is declared; a CORE change ends, and for a MEM change the channels leave self-refresh to be trained. -/
def relocked (s : State) (l : LoopId) : State :=
  match s.clk.change with
  | none => s
  | some ch =>
    let s1 := s.updClk fun k => { k with change := some { ch with locked := true }, force := k.force.take ch.target l }
    if l = 1 then
      (s1.chansInUse.foldl
        (fun acc c => acc.updChan c fun x => { x with mts := rateMts s1.clk.force.memRate }) s1).steer
    else s1.finishChange

/-- A MEM change fails with a reason: the device goes back to the former settings by the same procedure (R385). -/
def changeBack (s : State) (reason : Nat) : State :=
  match s.clk.change with
  | none => s
  | some ch =>
    let st := s.clk.loops[ch.loop].st.code
    let s1 := s.updClk fun k => { k with
      refused := true, reason := reason
      change := some { ch with back := true, locked := false, target := ch.former, start := s.time } }
    let s2 := s1.logClk 0x0E03 ch.loop st st reason 0 ch.former.memRate s.clk.force.memRate
    let s3 := (s2.chansInUse.filter fun c => s2.chans[c].st == .training || s2.chans[c].st == .exiting).foldl
      (fun acc c => (acc.issueSreOn c).updChan c fun x => { x with service := none }) s2
    if s3.allResting then s3.enterRelock else s3

/-- A change that has not locked 2 ms after step 2 fails: a MEM change goes back, a CORE change or a way back resets the device
warm (R385, R404). -/
def changeTimeout (s : State) (l : LoopId) : State :=
  match s.clk.change with
  | none => s
  | some ch =>
    if ch.loop ≠ l ∨ s.clk.loops[l].st ≠ .relock ∨ s.time < ch.start + 2 * Config.msTau then s
    else if l = 1 && !ch.back then s.changeBack 7
    else s.failStart 3 true

/-! ### Windows of a loop (R372, R378, R379) -/

/-- A loop that is not locked counts windows in tolerance; the 16th in a row declares lock. -/
def towardLock (s : State) (l : LoopId) (ppm : Int) : State :=
  if !s.clk.refOk then s
  else if 300 < ppm.natAbs then s.updLoop l fun x => { x with inTol := 0 }
  else if s.clk.loops[l].inTol + 1 < 16 then s.updLoop l fun x => { x with inTol := x.inTol + 1 }
  else
    let was := s.clk.loops[l].st
    let s1 := (s.updLoop l fun x => { x with err := 0 }).setLoop l .locked 0
    if was = .relock then s1.relocked l else s1

/-- A locked loop loses lock when its count misses by more than 1,000 ppm in two windows in a row. -/
def watchLock (s : State) (l : LoopId) (ppm : Int) : State :=
  if !s.clk.refOk || decide (ppm.natAbs ≤ 1000) then s.updLoop l fun x => { x with missed := 0 }
  else if s.clk.loops[l].missed = 0 then s.updLoop l fun x => { x with missed := 1 }
  else s.coast l 2

/-- The monitor's error of a running loop that is not locked. -/
def noteErr (s : State) (l : LoopId) (err : Int) : State := s.updLoop l fun x => { x with err := max (-128) (min 127 err) }

/-- A coasting loop beyond 0.1 % in two windows in a row brings the orderly stop about (R380). -/
def watchCoast (s : State) (l : LoopId) (err : Int) : State :=
  let s1 := s.noteErr l err
  if err.natAbs ≤ 10 then s1.updLoop l fun x => { x with monBad := 0 }
  else if s.clk.loops[l].monBad = 0 then s1.updLoop l fun x => { x with monBad := 1 }
  else s1.orderlyStop l 3

/-- What a window of a loop shows: its count's error in ppm, and the monitor's error in 0.01 %. -/
def judgeWindow (s : State) (l : LoopId) (ppm err : Int) : State :=
  match s.clk.loops[l].st with
  | .off => s
  | .acquire | .relock => s.towardLock l ppm
  | .locked => s.watchLock l ppm
  | .coasting =>
    let s1 := s.watchCoast l err
    if s1.clk.loops[l].st = .coasting then s1.towardLock l ppm else s1
  | .stopped => s.noteErr l err

/-- A window of 2.56 us of a loop ends, and the next begins (R372). -/
def lockWindow (s : State) (l : LoopId) (ppm err : Int) : State :=
  if s.time < s.clk.loops[l].window + windowTau then s
  else (s.updLoop l fun x => { x with window := x.window + windowTau }).judgeWindow l ppm err

/-- The reference is lost: every locked loop coasts (R369, R372). -/
def refLost (s : State) (periods : Nat) : State :=
  if s.clk.refOk && decide (4 ≤ periods) then
    [(0 : LoopId), 1, 2].foldl (fun acc l => acc.coast l 1) (s.updClk fun k => { k with refOk := false })
  else s

/-- A coasting loop resumes tracking: its spread restarts at the mean, and its windows count anew (R379). -/
def resumeLoop (s : State) (l : LoopId) : Loop :=
  let x := s.clk.loops[l]
  let mode := (s.clk.force.spread l).1
  if x.st = .coasting then
    { x with inTol := 0, window := s.time, spread := if mode = 0 then none else some (s.time, meanPlace mode) }
  else x

/-- The reference is present again: coasting loops resume tracking (R369, R379). -/
def refPresent (s : State) (periods : Nat) : State :=
  if s.clk.refOk || s.boot.stage == 0 || decide (periods < 1024) then s
  else s.updClk fun k => { k with refOk := true, loops := Vector.ofFn s.resumeLoop }

/-- A loop has coasted for 1 s (R380). -/
def coastTrust (s : State) (l : LoopId) : State :=
  let k := s.clk.loops[l]
  if k.st = .coasting ∧ k.coastFrom + Config.secTau ≤ s.time then s.orderlyStop l 4 else s

/-- The ring oscillator is calibrated against the reference once a millisecond while a loop is locked (R378). -/
def calibrate (s : State) : State :=
  if s.clk.refOk && decide (s.clk.calibrated + Config.msTau ≤ s.time) && (s.clk.loops.toList.any fun k => k.st == .locked) then s.updClk fun k => { k with calibrated := s.time }
  else s

/-! ### Starting a change (R381 to R384) -/

/-- The first reason to refuse a change of the plan, or 0 (R383). -/
def changeRefusal (s : State) : Nat :=
  let p := s.clk.plan
  let top := s.boot.image.speed
  if !s.drainHalted then 1
  else if top.val < p.memRate.val ∨ (p.memRate = 2 ∧ s.chansInUse.any (fun c => decide (2 < (s.tableRanks c).length)) = true)
  then 2
  else if p.memMode = 2 ∧ p.memRate.val = top.val then 3
  else if s.clk.loops.toList.any fun k => k.st != .locked then 4
  else if s.clk.change.isSome then 5
  else 0

/-- A GO of a loop: refused with a reason, or the change begins (R382, R383). -/
def goChange (s : State) (l : LoopId) : State :=
  let k := s.clk
  let st := k.loops[l].st.code
  match s.changeRefusal with
  | 0 =>
    let ch : Change := { loop := l, former := k.force, target := k.force.take k.plan l, start := s.time }
    let s1 := { s with clk := { k with change := some ch }, sr := { s.sr with idle := false, wanted := false } }
    if s1.allResting then s1.enterRelock else s1.steer
  | r =>
    (s.updClk fun x => { x with refused := true, reason := r }).logClk 0x0E03 l st st r 0 k.force.memRate k.force.memRate

end State

/-! ### Rows of the table -/

/-- REF_LOST. -/
def execRefLost (periods : Nat) (s : State) : Host.Outcome State Fault Refusal := .next (s.refLost periods)

/-- REF_PRESENT. -/
def execRefPresent (periods : Nat) (s : State) : Host.Outcome State Fault Refusal := .next (s.refPresent periods)

/-- LOCK_WINDOW. -/
def execLockWindow (l : LoopId) (ppm monitor : Int) (s : State) : Host.Outcome State Fault Refusal :=
  .next (s.lockWindow l ppm monitor)

/-- COAST_TRUST. -/
def execCoastTrust (l : LoopId) (s : State) : Host.Outcome State Fault Refusal := .next (s.coastTrust l)

/-- MONITOR_CALIBRATION. -/
def execMonitorCalibration (s : State) : Host.Outcome State Fault Refusal := .next s.calibrate

/-- FREQ_CHANGE_TIMEOUT. -/
def execFreqChangeTimeout (l : LoopId) (s : State) : Host.Outcome State Fault Refusal := .next (s.changeTimeout l)

end Sys2Proof.Machine
end

