-- ==== Sys2Proof/Machine/Service.lean ====
section
/-! DEFINITION. Self-refresh (R304 to R306), training while the device runs (R307, R357, R382, R393), the switching of power
domains (R393, R394), and the release of a quench (R366, R367). -/

namespace Sys2Proof.Machine

namespace State

/-- Fitted ranks of a channel that were trained and are not retired (R307). -/
def liveRanks (s : State) (c : ChanId) : List RankId :=
  (s.tableRanks c).filter fun r => s.chans[c].ranks[r].st != .retired

/-! ### Courses that start or stop with their channels (R178) -/

/-- After a change of the channels' states: courses begin when none ran before, and what waits for a boundary takes force when
none runs any more (R178, R305). -/
def regrid (s : State) (ran : Bool) : State :=
  if s.coursesRun then (if ran then s else s.beginCourses)
  else if ran then ((s.takeForce s.seq.number).settleHalted) else s

/-- A channel goes into service. While courses run on the other, it waits at the end of the course under way (R133). -/
def enterService (s : State) (ran : Bool) (c : ChanId) : State :=
  (s.restartChan s.time c).updChan c fun ch => { ch with
    st := .service, base := if ran then 16 * s.grid else 0, slotBase := if ran then ch.slotBase - s.grid else ch.slotBase }

/-! ### Self-refresh -/

/-- The conditions of R304 for self-refresh hold now. -/
def idleNow (s : State) : Bool :=
  s.drainHalted && !(s.cmds.any s.needsDram) &&
    s.chansInUse.all fun c => s.chans[c].mig.st != .copying && s.chans[c].service.isNone

/-- The entry delay has passed with the conditions of R304: every channel in use begins QUIESCE, but for one that a quench or its
domain keeps in self-refresh. -/
def restEntry (s : State) : State :=
  let rests (c : ChanId) : Bool := s.chans[c].st == .quenched || s.chans[c].st == .domainOff
  if s.power.srIdle && s.idleNow && !s.sr.idle && (s.chansInUse.all fun c => s.chans[c].st == .service || rests c) &&
      !s.chansInUse.all rests &&
      decide (s.sr.idleFrom + s.power.srDelay * Config.usTau ≤ s.time) then
    { s with
      sr := { s.sr with idle := true, wanted := false }
      chans := s.chans.map fun (ch : Chan) => if ch.st = .service then { ch with st := .quiesce } else ch }
  else s

/-- Commands that need DRAM and are under way end when the device has stopped for good (R380, R406). -/
def stopCommands (s : State) : State :=
  let a : Answer := { status := .resourceConflict, detail := if s.power.thermalStop then 0x10 else 0 }
  (s.cmds.filter fun c => c.isStarted && s.needsDram c).foldl (fun acc c => acc.abort c.id a) s

/-- Every channel in use is in self-refresh: a request that waited begins exit, a stopped device ends what needs DRAM, and a
change of a loop goes on with step 2 (R304, R380, R382). -/
def allRest (s : State) : State :=
  let s1 : State := if s.sr.wanted then { s with sr := { s.sr with idle := false, wanted := false, idleFrom := s.time } } else s
  let s2 := if s1.stopRan then s1.stopCommands else s1
  match s2.clk.change with
  | some ch => if !ch.locked && s2.clk.loops[ch.loop].st != .relock && !s2.stopRan then s2.enterRelock else s2
  | none => s2

/-- A channel's ranks have entered self-refresh and met their minimum residency (R304). -/
def restEntered (s : State) (c : ChanId) : State :=
  if s.chans[c].st ≠ .sreIssued then s
  else
    let s1 := s.updChan c fun ch => { ch with
      st := .selfRefresh
      ranks := ch.ranks.map fun (r : Rank) => { r with selfRefresh := true, powerDown := false } }
    let s2 := s1.logSelfRefresh c 1
    (if s2.allResting then s2.allRest else s2).steer

/-- A rank leaves self-refresh (R305): SRX, with its refresh credits at 0 (R158). -/
def srxRank (s : State) (c : ChanId) (r : RankId) : State :=
  ((s.issueBoth c 13 r {}).updRank c r fun k => { k with selfRefresh := false, powerDown := false }).resetCredits c r

/-- A rank enters power-down. -/
def pdeRank (s : State) (c : ChanId) (r : RankId) : State :=
  (s.issueBoth c 14 r {}).updRank c r fun k => { k with powerDown := true }

/-- A rank is calibrated, and one OSC step runs on it (R305); a spare returns to power-down (R303). -/
def wakeRank (s : State) (c : ChanId) (r : RankId) : State :=
  let s1 := ((s.srxRank c r).issueBoth c 10 r {}).issueBoth c 11 r {}
  let s2 := ({ s1 with free := s1.free + readingLen } : State).temperStep c r [0, 1] 0 (freeReading s1.free) {}
  if s2.chans[c].ranks[r].st = .spare ∧ s2.chans[c].mig.st ≠ .copying then s2.pdeRank c r else s2

/-- Self-refresh exit on a channel (R305): every rank wakes, but for retired ones, which stay in self-refresh (R303). What comes
next is training, or service. -/
def exitChan (s : State) (ran : Bool) (c : ChanId) : State :=
  let rs := s.liveRanks c
  let s2 := rs.foldl (fun acc r => acc.wakeRank c r) s
  let next : Option TrainFor :=
    if s.speedDue then some .speed
    else if s.power.todo.head? = some (memDomain c, true) then some .domain else none
  (match next with
    | some k => s2.updChan c fun ch => { ch with st := .training, service := some (k, rs) }
    | none => s2.enterService ran c).logSelfRefresh c 3

/-- Self-refresh exit ends on every channel that exits, and the grid restarts with the next course (R305). -/
def restExit (s : State) : State :=
  let outs := s.chansInUse.filter fun c => s.chans[c].st == .exiting
  if outs = [] then s
  else
    let s1 := outs.foldl (fun acc c => acc.exitChan s.coursesRun c) s
    let s2 : State := { s1 with sr := { s1.sr with entries := satAdd 0xFFFF s1.sr.entries 1, idleFrom := s1.time } }
    (s2.regrid s.coursesRun).steer

/-! ### Switching domains (R393, R394) -/

/-- Set or clear a domain's power. -/
def setPower (s : State) (d : DomainId) (up : Bool) : State :=
  s.updPower fun p => { p with on := if up then p.on ||| BitVec.twoPow 8 d.val else p.on &&& ~~~ (BitVec.twoPow 8 d.val) }

/-- Write a DOMAIN entry and raise source 80 (R394, R410). -/
def noteSwitch (s : State) (d : DomainId) (up : Bool) (cause : Nat) : State :=
  (s.logErr 0x0F02 255 [fld 12 1 d.val, fld 13 1 (if up then 1 else 0), fld 14 1 cause]).raise 80

/-- The switch at the head of the list has ended; after the last one POWER_POLICY completes. -/
def popSwitch (s : State) : State :=
  match s.power.todo with
  | [] => s
  | (d, up) :: rest =>
    let s1 := (s.updPower fun p => { p with todo := rest }).noteSwitch d up s.power.cause
    match rest, s1.power.cmd with
    | [], some id => ((s1.updPower fun p => { p with cmd := none }).succeed id s1.power.on.toNat).steer
    | _, _ => s1.steer

/-- The channel of MEMA or MEMB. -/
def domainChan (d : DomainId) : ChanId := if d = 4 then 1 else 0

/-- The links of LINKL or LINKH. -/
def domainLinks (s : State) (d : DomainId) : List LinkId := s.partLinks.filter fun n => linkDomain n == d

/-- A link gains its domain: it is UNTRAINED if it is enabled (R393). -/
def linkOn (s : State) (n : LinkId) : State :=
  if s.enabled n then s.enableLink n s.ks.force.link[n].rate else s

/-- The forge pool is written with zeros and valid check bits (R367, R393): every page leaves the queue, and bank 0 of each
channel in use holds the built-in table and is active. -/
def clearPool (s : State) : State :=
  let s1 := s.dropPages fun _ => true
  let s2 : State := { s1 with
    links := s1.links.map fun (l : Link) => { l with fetch := {}, slots := [] }
    engines := s1.engines.map fun (e : Engine) => { e with dec := {}, input := [] } }
  s2.chansInUse.foldl (fun acc c => acc.builtinBanks c) s2

/-- The switch-off at the head is done when what it waits for has come (R393, R394). -/
def switchOff (s : State) (d : DomainId) : State :=
  match d.val with
  | 3 | 4 =>
    let c := domainChan d
    if s.inUse c && s.trained c && !s.resting c then s.steer
    else
      ((s.updChan c fun ch => if ch.st = .selfRefresh then { ch with st := .domainOff } else ch).setPower d false).popSwitch
  | 5 => if s.allResting || !s.allTrained then (s.setPower d false).popSwitch else s.steer
  | _ => (((s.domainLinks d).foldl (fun acc n => acc.disableLink n) s).setPower d false).popSwitch

/-- The switch-on at the head: the domain is powered, and does its work (R393). -/
def switchOn (s : State) (d : DomainId) : State :=
  if s.domainOn d.val then s
  else
    let s1 := s.setPower d true
    match d.val with
    | 3 | 4 =>
      let c := domainChan d
      if s.chans[c].st = .domainOff then s1.updChan c fun ch => { ch with st := .exiting } else s1.popSwitch
    | 5 => ({ s1.clearPool with sr := { s1.sr with idle := false, wanted := false } } : State).popSwitch
    | _ => ((s.domainLinks d).foldl (fun acc n => acc.linkOn n) s1).popSwitch

/-- A domain's switch ends. -/
def domainSwitch (s : State) (d : DomainId) : State :=
  match s.power.todo.head? with
  | some (e, up) => if e ≠ d then s else if up then s.switchOn d else if s.busyDomain d then s else s.switchOff d
  | none => s

/-- A domain may be switched off (R393). -/
def mayLeave (s : State) (d : DomainId) : Bool :=
  match d.val with
  | 3 | 4 =>
    let c := domainChan d
    s.drainHalted && s.chans[c].mig.st != .copying && s.chans[c].service.isNone &&
      !(s.cmds.any fun x => x.prog == .event &&
        (x.op == 0x44 && x.f 0 c.val 1 == 1 || x.op == 0x41 && x.f 0 0 1 == c.val))
  | 5 => s.drainHalted
  | 6 | 7 => !((s.domainLinks d).any s.hasLines)
  | _ => true

/-! ### Training of ranks -/

/-- Channels that have been trained go back to service, or on into self-refresh when something keeps them there. -/
def serve (s : State) (cs : List ChanId) : State :=
  let one (acc : State) (c : ChanId) : State :=
    let s1 := acc.updChan c fun ch => { ch with service := none }
    if s1.chans[c].st ≠ .training then s1
    else if s.mustRest c && !s.coursesRun then s1.issueSreOn c else s1.enterService s.coursesRun c
  ((cs.foldl one s).regrid s.coursesRun).steer

/-- Some channel in use has ranks of a MEM change still to train. -/
def speedLeft (s : State) : Bool :=
  s.chansInUse.any fun c => s.chans[c].st == .exiting || s.chans[c].st == .selfRefresh ||
    match s.chans[c].service with
    | some (.speed, _ :: _) => true
    | _ => false

/-- The last rank of a channel has been trained. -/
def chanDone (s : State) (c : ChanId) (k : TrainFor) : State :=
  match k with
  | .speed =>
    let s1 := s.updChan c fun ch => { ch with service := some (.speed, []) }
    if s1.speedLeft then s1
    else s1.finishChange.serve (s1.chansInUse.filter fun x => s1.chans[x].st == .training)
  | .domain => (s.serve [c]).popSwitch
  | _ => s.serve [c]

/-- A rank has been trained, and the next one's turn has come. -/
def nextRank (s : State) (c : ChanId) (k : TrainFor) (rest : List RankId) : State :=
  if rest = [] then s.chanDone c k else s.updChan c fun ch => { ch with service := some (k, rest) }

/-- A rank's health is GOOD again, with its counts at 0 (R349). -/
def clearHealth (s : State) (c : ChanId) (r : RankId) : State :=
  (s.updRank c r fun k => { k with health := .good, ceHour := 0, ueDay := 0, ueTen := 0, ceRaised := false }).updChan c
    fun ch => { ch with ueSeen := ch.ueSeen.filter fun (x : Seen) => x.rank ≠ r }

/-- A retired rank has been tested: it is the channel's spare, or stays retired and returns to self-refresh (R357). -/
def reinstated (s : State) (id : Nat) (c : ChanId) (r : RankId) (res : TrainResult) : State :=
  match res with
  | .pass b =>
    let s1 := (((s.updRank c r fun k => { k with st := .spare }).applyBaseline c r b).pdeRank c r).clearHealth c r
    ((s1.logInteg 0x0D05 c.val r.val RankState.retired.code RankState.spare.code 0).serve [c]).succeed id 1
  | .fail cause _ =>
    let s1 := ((s.issueBoth c 5 r {}).issueBoth c 12 r {}).updRank c r fun k => { k with selfRefresh := true }
    ((s1.logInteg 0x0D05 c.val r.val RankState.retired.code RankState.retired.code cause.step).serve [c]).fail id
      .invalidField 0x18

/-- A rank of a MEM change fails: the device goes back, or resets when it was on its way back (R385). -/
def speedFailed (s : State) : State :=
  if (s.clk.change.map (·.back)) == some true then s.failStart 3 true else s.changeBack 6

/-- A rank of a channel has passed: step 9 has read it anew (R288), unless a MEM change is on its way back, which restores the
rank's former settings (R385). -/
def rankPassed (s : State) (c : ChanId) (r : RankId) (b : Baseline) (k : TrainFor) : State :=
  if k = .speed ∧ (s.clk.change.map (·.back)) = some true then s
  else ((s.issueBoth c 10 r {}).issueBoth c 11 r {}).applyBaseline c r b

/-- The training steps on a rank end (R307, R357, R382, R393). -/
def rankDone (s : State) (c : ChanId) (r : RankId) (res : TrainResult) : State :=
  match s.chans[c].service with
  | some (k, x :: rest) =>
    if x ≠ r then s
    else match res, k with
      | .pass _, .reinstate id => s.reinstated id c r res
      | .pass b, .retrain id => ((s.rankPassed c r b k).nextRank c k rest).rankResult id c r true
      | .pass b, _ => (s.rankPassed c r b k).nextRank c k rest
      | .fail cause mask, _ =>
        let s1 := s.logTrainFail c r cause mask
        match k with
        | .retrain id => (s1.nextRank c k rest).rankResult id c r false
        | .reinstate id => s1.reinstated id c r res
        | .speed => s1.speedFailed
        | .domain => ((s1.updRank c r fun y => { y with st := .degraded }).raiseChan c).nextRank c k rest
  | _ => s

/-- Channels begin the training of a RETRAIN with FULL: no course runs on them meanwhile, and their rows are closed. -/
def beginTraining (s : State) (id : Nat) (cs : List ChanId) : State :=
  let one (acc : State) (c : ChanId) : State :=
    ((s.liveRanks c).foldl (fun t r => t.closeBoth c r {}) acc).updChan c fun ch => { ch with
      st := .training, service := some (.retrain id, s.liveRanks c), rows := [] }
  (cs.foldl one s).regrid s.coursesRun

/-! ### Quench release (R366, R367) -/

/-- A channel leaves quench: it exits self-refresh unless something else keeps it there, and the counts of its failing ranks
restart from 0. -/
def unquench (s : State) (c : ChanId) : State :=
  let s1 := s.updChan c fun ch => { ch with
    st := if s.domainOn (memDomain c).val then .selfRefresh else .domainOff
    ranks := ch.ranks.map fun (r : Rank) =>
      if r.health = .failing then { r with ceHour := 0, ueDay := 0, ueTen := 0, ceRaised := false } else r
    ueSeen := ch.ueSeen.filter fun (x : Seen) => ch.ranks[x.rank].health ≠ .failing }
  { s1 with quench := { s1.quench with chans := vset s1.quench.chans c false } }

/-- The release is recorded, and the channels go on as they must. -/
def released (s : State) (scope : Nat) : State :=
  let dump := (s.quench.captured + 255) % 256
  let s1 : State := { s with sr := { s.sr with idle := false, wanted := false } }
  ((s1.steer).logInteg 0x0D04 (if scope < 2 then scope else 0xFF) 0xFF 1 0 (scope + 256 * s.quench.cause + 2 ^ 16 * dump)).raise
    63

end State

/-! ### Meanings -/

/-- RANK_REINSTATE (R77, R357). DEDUCED: its own refusals come in the order of R357 after those that log entry 37 names, the state
of the rank before BUSY_MIGRATING. -/
def bodyRankReinstate (c : Cmd) (s : State) : State :=
  let ch : ChanId := Fin.ofNat 2 (c.f 0 0 1)
  let r : RankId := Fin.ofNat 4 (c.f 0 8 2)
  if s.chans[ch].ranks[r].st ≠ .retired then s.fail c.id .invalidField 0x8008
  else if s.migrating ch then s.fail c.id .busyMigrating
  else if (s.freeSpare ch).isSome then s.fail c.id .resourceConflict
  else
    (s.srxRank ch r).updChan ch fun k => { k with service := some (.reinstate c.id, [r]) }

/-- RETRAIN (R307). -/
def bodyRetrain (c : Cmd) (s : State) : State :=
  let cs := s.chansInUse.filter fun k => c.f 0 k.val 1 == 1
  let mask := (cs.flatMap fun k => (s.liveRanks k).map fun r => State.rankBit k r).foldl (· ||| ·) 0
  let s1 := s.updCmd c.id fun x => { x with mask := mask }
  if c.f 0 8 1 = 0 then s1.retrainDone c.id
  else if !s.drainHalted then s.fail c.id .resourceConflict
  else (s1.beginTraining c.id cs).retrainDone c.id

/-- POWER_POLICY (R77, R393, R394). -/
def bodyPowerPolicy (c : Cmd) (s : State) : State :=
  let req (d : DomainId) : Bool := c.f 0 d.val 1 == 1
  let offs := ([7, 6, 5, 4, 3] : List DomainId).filter fun d => s.domainOn d.val && !req d
  let ons := ([3, 4, 5, 6, 7] : List DomainId).filter fun d => !s.domainOn d.val && req d
  if !(offs.all s.mayLeave) || (s.stopRan && ons != []) then s.fail c.id .resourceConflict
  else
    let s1 := s.updPower fun p => { p with
      pdIdle := c.f 1 0 1 == 1, srIdle := c.f 1 1 1 == 1, srDelay := c.p 2
      todo := (offs.map fun d => (d, false)) ++ ons.map fun d => (d, true)
      cmd := some c.id, cause := 0 }
    if offs ++ ons = [] then (s1.updPower fun p => { p with cmd := none }).succeed c.id s.power.on.toNat else s1.steer

/-- QUENCH_RELEASE (R366, R367). -/
def bodyQuenchRelease (c : Cmd) (s : State) : State :=
  match c.f 0 0 2 with
  | 2 =>
    if !s.quench.device then s.fail c.id .invalidField 0x8008
    else
      let s1 : State := { s.clearPool with quench := { s.quench with device := false } }
      ((s1.chansInUse.foldl (fun acc k => acc.unquench k) s1).released 2).succeed c.id
  | k =>
    let ch : ChanId := Fin.ofNat 2 k
    if s.quench.device || !s.quench.chans[ch] then s.fail c.id .invalidField 0x8008
    else ((s.unquench ch).released k).succeed c.id

/-! ### Rows of the table -/

/-- RANK_REINSTATE. -/
def execRankReinstate (c : Issue) (s : State) : Host.Outcome State Fault Refusal :=
  .next (s.submit 0x41 bodyRankReinstate c)

/-- RETRAIN. -/
def execRetrain (c : Issue) (s : State) : Host.Outcome State Fault Refusal := .next (s.submit 0x44 bodyRetrain c)

/-- POWER_POLICY. -/
def execPowerPolicy (c : Issue) (s : State) : Host.Outcome State Fault Refusal := .next (s.submit 0x45 bodyPowerPolicy c)

/-- QUENCH_RELEASE. -/
def execQuenchRelease (c : Issue) (s : State) : Host.Outcome State Fault Refusal :=
  .next (s.submit 0x54 bodyQuenchRelease c)

/-- SELF_REFRESH_ENTRY. -/
def execSelfRefreshEntry (s : State) : Host.Outcome State Fault Refusal := .next s.restEntry

/-- SELF_REFRESH_ENTERED. -/
def execSelfRefreshEntered (c : ChanId) (s : State) : Host.Outcome State Fault Refusal := .next (s.restEntered c)

/-- SELF_REFRESH_EXIT. -/
def execSelfRefreshExit (s : State) : Host.Outcome State Fault Refusal := .next s.restExit

/-- RANK_TRAINING_DONE. -/
def execRankTrainingDone (c : ChanId) (r : RankId) (result : TrainResult) (s : State) :
    Host.Outcome State Fault Refusal := .next (s.rankDone c r result)

/-- DOMAIN_SWITCH. -/
def execDomainSwitch (d : DomainId) (s : State) : Host.Outcome State Fault Refusal := .next (s.domainSwitch d)

end Sys2Proof.Machine
end

