-- ==== Sys2Proof/Machine/Upkeep.lean ====
section
/-! DEFINITION. Upkeep of the DRAM's contents: patrol and priority scrub (R342 to R345), the counting intervals and the health of
ranks (R346, R349), and the migration of a rank onto the spare (R350 to R356). -/

namespace Sys2Proof.Machine

namespace Raster

/-- Bursts of an ashlar on each channel that carries it (R351). -/
def perChan (r : Raster) : Nat := if r.single then 1024 else 512

/-- The address of burst `k` of an ashlar on a channel, in ascending order (R342, R351). -/
def burstAt (r : Raster) (c : ChanId) (n k : Nat) : Nat :=
  if r.single then r.ashlarBase n + 64 * k
  else
    let a := r.ashlarBase n + 256 * (k / 2) + 64 * (k % 2)
    if r.chanOf a = c then a else a + 128

/-- Up to eight bursts of an ashlar on a channel, from an index on. -/
def burstsAt (r : Raster) (c : ChanId) (n k : Nat) : List Nat :=
  (List.range (min 8 (r.perChan - k))).map fun i => r.burstAt c n (k + i)

/-- The lowest written ashlar from a number on that is not filling. -/
def nextWritten (r : Raster) (n : Nat) : Option Nat := r.written.find? fun a => n ≤ a && !r.isFilling a

/-- The ashlars of a logical rank that hold data or are filling, from a number on. -/
def rankHolds (r : Raster) (l : Fin 4) (n : Nat) : List Nat :=
  (r.written ++ r.filling.map (·.ashlar)).filter fun a =>
    decide (n ≤ a) && decide (r.rankFirst l.val ≤ a) && decide (a < r.rankFirst l.val + r.rankAshlars)

end Raster

namespace State

/-! ### Scrub -/

/-- The scrubber of a channel may take up work: it is enabled, its requester too, and the channel is in service (R343). -/
def scrubs (s : State) (c : ChanId) : Bool :=
  s.inUse c && s.chans[c].scrub.enable && s.chans[c].st == .service && s.ks.force.arbEnable.getLsbD 9

/-- A pass starts, with its bursts counted (R342, R343). -/
def beginPass (s : State) (c : ChanId) : State :=
  let n := (s.raster.written.filter fun a => !s.raster.isFilling a).length * s.raster.perChan
  s.updScrub c fun x => { x with
    active := true, late := false, startedAt := s.time, paceFrom := s.time, left := n, count := n, nextBurst := 0
    next := (s.raster.nextWritten 0).getD 0 }

/-- A pass is due; when the last one has not ended it is late (R343). -/
def passStart (s : State) (c : ChanId) : State :=
  let x := s.chans[c].scrub
  if !s.scrubs c || decide (s.time < x.startedAt + x.period * Config.secTau) then s
  else if x.active then
    (if x.late then s
      else (s.updScrub c fun y => { y with late := true }).logInteg 0x0D03 c.val 0xFF 0 0 x.left)
  else s.beginPass c

/-- The next transfer of the patrol is due (R343): the transfers of a pass come at even intervals up to the end of its period, and at
once while the patrol is behind. -/
def patrolDue (s : State) (c : ChanId) : Bool :=
  let x := s.chans[c].scrub
  decide ((x.count - x.left) * (x.startedAt + x.period * Config.secTau - x.paceFrom) ≤ x.count * (s.time - x.paceFrom))

/-- The patrol presents its next bursts and moves on (R342 to R344). -/
def patrol (s : State) (c : ChanId) : State :=
  let x := s.chans[c].scrub
  match s.raster.nextWritten x.next with
  | none => s
  | some n =>
    let k := if n = x.next then x.nextBurst else 0
    let s1 := s.updScrub c fun y =>
      if k + 8 < s.raster.perChan then { y with next := n, nextBurst := k + 8, left := y.left - 8 }
      else { y with next := (s.raster.nextWritten (n + 1)).getD (n + 1), nextBurst := 0, left := y.left - 8 }
    s1.presentXfer c 9 .scrub ((s.raster.burstsAt c n k).map fun a => ⟨a, .read⟩)

/-- The scrubber presents a transfer (R311, R344): the write-back of a burst that it has read, else an address of the priority
queue, else the patrol. A queued address whose ashlar is no longer written is dropped. -/
def scrubTransfer (s : State) (c : ChanId) : State :=
  let x := s.chans[c].scrub
  let held (a : Nat) : Bool := s.raster.isWritten (s.raster.ashlar a)
  if s.chans[c].arb.reqs[(9 : Fin 12)] ≠ [] ∨ s.chans[c].st ≠ .service then s
  else match x.back, x.prio with
    | a :: rest, _ =>
      let s1 := s.updScrub c fun y => { y with back := rest }
      if held a then s1.presentXfer c 9 .scrub [⟨a, .rmw⟩] else s1
    | [], a :: rest =>
      if !s.scrubs c then s
      else
        let s1 := s.updScrub c fun y => { y with prio := rest }
        if held a then s1.presentXfer c 9 .scrub [⟨a, .read⟩] else s1
    | [], [] => if s.scrubs c && x.active && s.patrolDue c then s.patrol c else s

/-- The scrubber has no transfer presented, granted or still to write back. -/
def scrubIdle (s : State) (c : ChanId) : Bool :=
  s.chans[c].scrub.back == [] && !((s.transfers c).any fun x => x.src == .scrub)

/-- A pass has read its last burst: source 62 (R342). -/
def passDone (s : State) (c : ChanId) : State :=
  let x := s.chans[c].scrub
  if s.scrubs c && x.active && (s.raster.nextWritten x.next).isNone && s.scrubIdle c then
    (s.updScrub c fun y => { y with active := false, late := false, left := 0, next := 0, nextBurst := 0 }).raise 62
  else s

/-! ### Health -/

/-- A counting interval of a rank has run since its start: 3,600 s, 86,400 s or 10 ms (R346). -/
def intervalOver (s : State) (c : ChanId) (r : RankId) (kind : HealthInterval) : Bool :=
  let k := s.chans[c].ranks[r]
  match kind with
  | .hour => decide (k.hourFrom + 3600 * Config.secTau ≤ s.time)
  | .day => decide (k.dayFrom + 86400 * Config.secTau ≤ s.time)
  | .tenMs => decide (k.tenFrom + 10 * Config.msTau ≤ s.time)

/-- A counting interval of a rank ends, and the next begins (R346). -/
def intervalEnd (s : State) (c : ChanId) (r : RankId) (kind : HealthInterval) : State :=
  if !s.intervalOver c r kind then s
  else
  let seen (f : Seen → Seen) (t : State) : State :=
    t.updChan c fun ch => { ch with ueSeen := ch.ueSeen.map fun (x : Seen) => if x.rank = r then f x else x }
  match kind with
  | .hour => s.updRank c r fun k => { k with ceHour := 0, ceRaised := false, hourFrom := k.hourFrom + 3600 * Config.secTau }
  | .day =>
    seen (fun x => { x with day := false }) (s.updRank c r fun k => { k with ueDay := 0, dayFrom := k.dayFrom + 86400 * Config.secTau })
  | .tenMs =>
    seen (fun x => { x with ten := false }) (s.updRank c r fun k => { k with ueTen := 0, tenFrom := k.tenFrom + 10 * Config.msTau })

/-- RANK_HEALTH.CLEAR: every rank that carries data is GOOD again, but for the source of a running migration (R349). -/
def clearAll (s : State) : State :=
  (List.finRange 2).foldl
    (fun acc c => (List.finRange 4).foldl
      (fun t r =>
        let st := s.chans[c].ranks[r].st
        if (st = .inService ∨ st = .degraded) ∧ !(s.migrating c && s.chans[c].mig.source == r) then t.clearHealth c r
        else t) acc) s

/-! ### Migration -/

/-- A read-modify-write of some of the bursts runs: the migrator does not take them (R354). -/
def merging (s : State) (c : ChanId) (bs : List Nat) : Bool :=
  (s.chans[c].arb.holder.map fun h => h.2.isRmw && h.2.bursts.any fun b => bs.contains b.addr) == some true

/-- The migrator presents its next step (R352, R353): up to eight bursts of one ashlar, to be read from the source and then
written to the target. DEDUCED: PACE counts these steps, each with its read and its write (log entry 112). -/
def migrate (s : State) (c : ChanId) : State :=
  let m := s.chans[c].mig
  if m.st ≠ .copying ∨ s.chans[c].st ≠ .service ∨ s.ks.force.arbEnable.getLsbD 10 = false ∨
      (bits s.ks.force.pace.toNat 0 8) ≤ m.paced ∨ m.transit ≠ [] then s
  else match least (s.raster.rankHolds m.logical m.ashlar) with
    | none => s
    | some n =>
      let k := if n = m.ashlar then m.burst else 0
      let bs := s.raster.burstsAt c n k
      if s.raster.isFilling n || s.merging c bs then s
      else
        (s.updMig c fun x => { x with
          ashlar := n, burst := k, paced := x.paced + 1, transit := bs, hasRead := false, bad := 0 }).presentXfer c 10 .mig
            (bs.map fun a => ⟨a, .read⟩)

/-- The pointer has passed the last written ashlar: the target takes the logical rank, and the source retires (R355). -/
def cutover (s : State) (c : ChanId) : State :=
  let m := s.chans[c].mig
  if m.st ≠ .copying ∨ s.chans[c].st ≠ .service ∨ m.transit ≠ [] ∨ s.raster.rankHolds m.logical m.ashlar ≠ [] then s
  else
    let s1 := s.updRaster fun r => { r with phys := vmod r.phys c fun v => vset v m.logical (some m.target) }
    let s2 := s1.updRank c m.target fun k => { k with st := .inService, powerDown := false }
    let s3 := (s2.sreRank c m.source).updRank c m.source fun k => { k with st := .retired, selfRefresh := true, powerDown := false }
    let s4 := (s3.updChan c fun ch => { ch with
      rows := ch.rows.filter fun (x : Row) => x.rank ≠ m.source, mig := { ch.mig with st := .done } }).clearHealth c m.target
    let s5 := s4.logInteg 0x0D02 c.val m.source.val MigState.copying.code MigState.done.code (m.target.val + 2 ^ 32 * m.poisoned)
    s5.raise ⟨60 + c.val, by omega⟩

end State

/-! ### Meanings -/

/-- RANK_RETIRE (R77, R350, R356). -/
def bodyRankRetire (c : Cmd) (s : State) : State :=
  let ch : ChanId := Fin.ofNat 2 (c.f 0 0 1)
  let r : RankId := Fin.ofNat 4 (c.f 0 8 2)
  let k := s.chans[ch].ranks[r].st
  let m := s.chans[ch].mig
  if k ≠ .inService ∧ k ≠ .degraded then s.fail c.id .invalidField 0x8008
  else if m.st = .stopped ∧ m.source = r then
    (s.updMig ch fun x => { x with st := .copying }).succeed c.id m.target.val
  else if s.migrating ch then s.fail c.id .busyMigrating
  else match s.freeSpare ch with
    | none => s.fail c.id .noSpare
    | some t => (s.startMigration ch r t).succeed c.id t.val

/-- MIGRATE_STATUS (R77, R350). -/
def bodyMigrateStatus (c : Cmd) (s : State) : State :=
  let ch : ChanId := Fin.ofNat 2 (c.f 0 0 1)
  let m := s.chans[ch].mig
  let left := if s.migrating ch then
      (s.raster.written.filter (s.raster.rankHolds m.logical m.ashlar).contains).length else 0
  s.succeed c.id (m.st.code + 256 * m.source.val + 1024 * m.target.val) left

/-- Bursts that are left in a pass at its position (R345). -/
def State.passLeft (s : State) (c : ChanId) : Nat :=
  let x := s.chans[c].scrub
  ((s.raster.written.filter fun a => decide (x.next ≤ a) && !s.raster.isFilling a).map fun a =>
    if a = x.next then s.raster.perChan - x.nextBurst else s.raster.perChan).sum

/-- SCRUB_CONFIG: a pass that resumes recomputes its interval from the bursts that remain (R345). -/
def bodyScrubConfig (c : Cmd) (s : State) : State :=
  let set (t : State) (k : ChanId) : State :=
    if c.f 0 k.val 1 = 1 then
      let on := c.f 0 8 1 == 1
      let t1 := t.updScrub k fun x => { x with enable := on, period := c.f 1 0 16, threshold := c.f 2 0 16 }
      if on && !t.chans[k].scrub.enable && t.chans[k].scrub.active then
        t1.updScrub k fun x => { x with paceFrom := s.time, left := s.passLeft k, count := s.passLeft k }
      else t1
    else t
  (set (set s 0) 1).succeed c.id

/-! ### Rows of the table -/

/-- RANK_RETIRE. -/
def execRankRetire (c : Issue) (s : State) : Host.Outcome State Fault Refusal := .next (s.submit 0x40 bodyRankRetire c)

/-- SCRUB_CONFIG. -/
def execScrubConfig (c : Issue) (s : State) : Host.Outcome State Fault Refusal := .next (s.submit 0x42 bodyScrubConfig c)

/-- MIGRATE_STATUS. -/
def execMigrateStatus (c : Issue) (s : State) : Host.Outcome State Fault Refusal :=
  .next (s.submit 0x43 bodyMigrateStatus c)

/-- SCRUB_PASS_START. -/
def execScrubPassStart (c : ChanId) (s : State) : Host.Outcome State Fault Refusal := .next (s.passStart c)

/-- SCRUB_TRANSFER. -/
def execScrubTransfer (c : ChanId) (s : State) : Host.Outcome State Fault Refusal := .next (s.scrubTransfer c)

/-- SCRUB_PASS_COMPLETE. -/
def execScrubPassComplete (c : ChanId) (s : State) : Host.Outcome State Fault Refusal := .next (s.passDone c)

/-- HEALTH_INTERVAL_END. -/
def execHealthIntervalEnd (c : ChanId) (r : RankId) (kind : HealthInterval) (s : State) :
    Host.Outcome State Fault Refusal := .next (s.intervalEnd c r kind)

/-- MIGRATION_TRANSFER. -/
def execMigrationTransfer (c : ChanId) (s : State) : Host.Outcome State Fault Refusal := .next (s.migrate c)

/-- MIGRATION_CUTOVER. -/
def execMigrationCutover (c : ChanId) (s : State) : Host.Outcome State Fault Refusal := .next (s.cutover c)

end Sys2Proof.Machine
end

