-- ==== Sys2Proof/Machine/Boot.lean ====
section
/-! DEFINITION. Resets, the start (R288 to R290, R373, R396 to R405), heat and supply (R392, R406, R407), and the management
sideband (R425). -/

namespace Sys2Proof.Machine

/-- The boot record in force names slot B as committed (R401): of the valid copies, the one with the larger SEQ; slot A when
neither is valid. -/
def committedB (r : Vector BootRec 2) : Bool :=
  let a := r[(0 : Fin 2)]
  let b := r[(1 : Fin 2)]
  if a.valid && b.valid then (if a.seq < b.seq then b.slotB else a.slotB)
  else if a.valid then a.slotB
  else if b.valid then b.slotB
  else false

/-- The image check of R401, with the codes of R410: 0 passed, 1 header, 2 part, 3 key revoked, 4 signature. -/
def imageResult (i : ImageInfo) (part : Part) (revoked : BitVec 4) : Nat :=
  if i.magic ≠ 0x5A524657 ∨ 0x200000 < i.bodyLength.toNat then 1
  else if i.parts.getLsbD (if part = .zr3218 then 0 else 1) = false then 2
  else if revoked.getLsbD i.keyIndex.val then 3
  else if i.signed then 0 else 4

/-- Attempts of a rank that failed at DRAM_TRAIN (R289): a rank that fails twice is FAILED. -/
def rankFailures (b : BootInput) (c : ChanId) (r : RankId) : List TrainFail :=
  (b.trainFails.filter fun x => x.chan = c && x.rank = r).take 2

/-- Physical ranks that the image expects on a channel (R288, R401). -/
def expectedRanks (i : ImageInfo) (c : ChanId) : List RankId :=
  (List.finRange 4).filter fun r => r.val < (if c = 0 then i.ranksA else i.ranksB)

namespace State

/-! ### Resets -/

/-- The device enters the POR stage: what AON holds is lost, and the flash keeps what it has (R392, R396, R398). REF_SEL is
sampled when AON leaves reset (R368). -/
def powerOn (s : State) (rise : Bool) (refSel : BitVec 2) : State :=
  let s1 := s.fullReset 0
  { s1 with
    boot := { versionA := s.boot.versionA, versionB := s.boot.versionB, recs := s.boot.recs }
    quench := {}, power := {}
    clk := { refSel := if rise then refSel else 0 } }

/-- A start is under way (R399). -/
def starting (s : State) : Bool := decide (s.boot.stage ≤ 5)

/-- A stage of the start under way, which the event that ends it leaves open (R399, R410). -/
def openStage (s : State) : Nat := if s.starting then 1 + (Config.openDword s.free).toNat % 5 else s.boot.stage

/-- A trap or a watchdog expiry (R397, R399, R404). -/
def crash (s : State) (cause : Nat) : State :=
  let s1 := { s with boot := { s.boot with stage := s.openStage }, free := s.free + 1 }
  s1.failStart cause s1.allTrained

/-! ### The start -/

/-- The first entry after a start (R410). -/
def logReset (s : State) : State :=
  let b := s.boot
  s.logErr 0x0F01 255 [fld 12 1 b.lastReset, fld 13 1 b.cause, fld 14 1 b.failStage, fld 15 1 b.fails,
    fld 16 4 b.ranVersion.toNat, fld 20 1 (if b.ranSlotB then 1 else 0)]

/-- An image has been checked (R401, R410). -/
def logImage (s : State) (slotB : Bool) (i : ImageInfo) (revoked : BitVec 4) : State :=
  s.logErr 0x0F05 255 [fld 12 1 (if slotB then 1 else 0), fld 13 1 i.keyIndex.val, fld 14 1 (imageResult i s.part revoked)]

/-- Banked mode in place of ROM (R405): the DRAM is held in reset, so what it held is lost. -/
def enterBanked (s : State) : State :=
  let fresh := State.init s.part
  { s with
    raster := {}, strips := [], chans := fresh.chans
    clk := { s.clk with refOk := true }
    power := { s.power with on := 0x07 }
    boot := { s.boot with stage := 15, keep := false, cause := if s.boot.force then 8 else s.boot.cause } }.logReset

/-- IMAGE_CHECK (R402): the image that boots, with its slot and whether it fell back, or none; each check is logged. -/
def chooseImage (s : State) (b : BootInput) : State × Option (Bool × Bool × ImageInfo) :=
  let comm := committedB s.boot.recs
  let first := if s.boot.fails % 2 = 0 then comm else !comm
  let img (slotB : Bool) : ImageInfo := if slotB then b.slotB else b.slotA
  let s1 := s.logImage first (img first) b.revoked
  if imageResult (img first) s.part b.revoked = 0 then (s1, some (first, false, img first))
  else
    let s2 := s1.logImage (!first) (img (!first)) b.revoked
    if imageResult (img (!first)) s.part b.revoked = 0 then (s2, some (!first, true, img (!first))) else (s2, none)

/-- CLOCKS (R373): the loops start in the order LINK, CORE, MEM and lock; spread is the image's, and MEM has the highest speed
that the descriptor and the ranks allow. -/
def startClocks (s : State) (i : ImageInfo) : State :=
  let rate : Fin 4 := if i.speed = 2 ∧ (2 < i.ranksA ∨ 2 < i.ranksB) then 1 else i.speed.castSucc
  let set : ClkSet :=
    { memRate := rate, coreDepth := i.coreDepth, coreMode := i.coreMode, memDepth := i.memDepth, memMode := i.memMode }
  let s1 := s.updClk fun k => { k with refOk := true, plan := set, force := set }
  [(2 : LoopId), 0, 1].foldl (fun acc l => (acc.setLoop l .acquire 0).setLoop l .locked 0) s1

/-- Ranks of a channel that pass DRAM_TRAIN. -/
def passedRanks (s : State) (i : ImageInfo) (b : BootInput) (c : ChanId) : List RankId :=
  if c.val < s.part.channels then (expectedRanks i c).filter fun r => (rankFailures b c r).length < 2 else []

/-- The map choice of R83 and R290: single-channel or not, and the channel that carries it; none when no channel is
usable. -/
def chooseMap (s : State) (i : ImageInfo) (b : BootInput) : Option (Bool × ChanId) :=
  let a := s.passedRanks i b 0
  let k := s.passedRanks i b 1
  if a = [] ∧ k = [] then none
  else if a = k then some (false, 0)
  else if a = [] then some (true, 1)
  else some (true, 0)

/-- The image's settings are refused: a channel in use has fewer than two passed ranks, or its spare is none of them (R96,
R290). -/
def spareBad (spare : Dword) (cs : List ChanId) (single : Bool) (passed : ChanId → List RankId) : Bool :=
  spare.getLsbD 31 && cs.any fun c =>
    let sp : RankId := Fin.ofNat 4 (bits spare.toNat (if c = 1 ∧ single = false then 4 else 0) 2)
    decide ((passed c).length < 2) || !(passed c).contains sp

/-- The spare that a SPARE_CONTROL value names for a channel (R95). -/
def spareOf (spare : Dword) (single : Bool) (c : ChanId) : Option RankId :=
  if spare.getLsbD 31 then some (Fin.ofNat 4 (bits spare.toNat (if c = 1 ∧ single = false then 4 else 0) 2)) else none

/-- Raster memory at a start that keeps nothing: the image's settings are applied (R96, R98). -/
def freshRaster (part : Part) (i : ImageInfo) (single : Bool) (only : ChanId) (passed : ChanId → List RankId) : Raster :=
  let cs : List ChanId := if single then [only] else [0, 1]
  let image := i.spare &&& spareFields part
  let r : Raster := { single := single, only := only, density := i.density, maskShadow := i.masks, spareShadow := image }
  let bad := spareBad image cs single passed
  let spare := if bad then 0 else image
  { r with
    refused := bad, reason := if bad then 2 else 0
    mask := if bad then r.mask else i.masks
    spare := spare
    phys := Vector.ofFn fun c : Fin 2 =>
      if cs.contains c then assign (passed c) (spareOf spare single c) else Vector.replicate 4 none }

/-- A warm reset keeps raster memory: map mode, population and density are as before, and every rank has passed (R98,
R398). -/
def keepsRaster (s : State) (i : ImageInfo) (single : Bool) (only : ChanId) (passed : ChanId → List RankId) : Bool :=
  s.boot.keep && s.raster.single == single && (!single || s.raster.only == only) && s.raster.density == i.density &&
    (if single then [only] else [0, 1]).all fun c => s.tableRanks c == passed c

/-- The record of a physical rank after DRAM_TRAIN, but for what step 9 reads. -/
def trainedRank (s : State) (i : ImageInfo) (b : BootInput) (kept : Bool) (c : ChanId) (r : RankId) : Rank :=
  let old := s.chans[c].ranks[r]
  if !(expectedRanks i c).contains r then {}
  else if !(s.passedRanks i b c).contains r then { st := .failed }
  else
    let st : RankState :=
      if kept && old.st != .degraded then old.st
      else if (s.logicalOf c r).isSome then .inService else .spare
    { st := st, hourFrom := s.time, dayFrom := s.time, tenFrom := s.time, cool := 0, selfRefresh := st == .retired
      powerDown := st == .spare && s.chans[c].mig.st != .copying, lastUse := s.chans[c].slotBase }

/-- A channel in use after DRAM_TRAIN (R162, R288, R297): in service on the built-in table. -/
def trainedChan (s : State) (i : ImageInfo) (b : BootInput) (kept : Bool) (c : ChanId) : Chan :=
  let ch := s.chans[c]
  { ch with
    st := .service, mts := rateMts s.clk.force.memRate
    mig := if kept then ch.mig else {}
    ranks := Vector.ofFn fun r : Fin 4 => s.trainedRank i b kept c r }

/-- An unused channel's record: its ranks stay as DRAM_TRAIN found them, without service (R83). -/
def unusedChan (s : State) (i : ImageInfo) (b : BootInput) (c : ChanId) : Chan :=
  let fresh : Chan := (State.init s.part).chans[c]
  { fresh with ranks := Vector.ofFn fun r : Fin 4 =>
      if (expectedRanks i c).contains r && decide (c.val < s.part.channels) && !(s.passedRanks i b c).contains r then { st := .failed }
      else {} }

/-- Write an error log entry for which the manual gives no type and no layout: both are free (log entry 41). -/
def logOpen (s : State) (what : Nat) : State :=
  { s with
    free := s.free + 1
    logs := { s.logs with error := s.logs.error ++
      [{ time := s.us, type := Config.openType what % 2 ^ 16, body := Config.openEntry s.free }] } }

/-- A rank that carries on from DRAM_TRAIN: step 9 has read it (R288), and its refresh credits are 0 (R158). -/
def readRank (b : BootInput) (c : ChanId) (s : State) (r : RankId) : State :=
  (s.applyBaseline c r (b.baseline[c])[r]).resetCredits c r

/-- DRAM_TRAIN with the map chosen (R288 to R290, R83, R96, R98, R130). What a warm reset cannot keep is logged with its cause
(R98), and so is the refusal of the image's sparing settings (R290). -/
def trainDram (s : State) (i : ImageInfo) (b : BootInput) (single : Bool) (only : ChanId) : State :=
  let passed (c : ChanId) : List RankId := s.passedRanks i b c
  let kept := s.keepsRaster i single only passed
  let s1 := ((List.finRange 2).flatMap fun c => (List.finRange 4).flatMap fun r =>
      if (expectedRanks i c).contains r && decide (c.val < s.part.channels) then rankFailures b c r else []).foldl
    (fun acc x => acc.logTrainFail x.chan x.rank x.cause x.mask) s
  let fresh := freshRaster s.part i single only passed
  let s1 := if s.boot.warm && !kept then s1.logOpen 0 else s1
  let s1 := if !kept && fresh.refused then s1.logOpen 1 else s1
  let s2 : State := if kept then s1 else { s1 with raster := fresh, strips := [] }
  let after (c : Fin 2) : Chan := if s2.inUse c then s2.trainedChan i b kept c else s2.unusedChan i b c
  let s3 : State := { s2 with chans := Vector.ofFn after }
  let s4 := s3.chansInUse.foldl (fun acc c => (acc.builtinBanks c).beginPass c) s3
  let s5 := [(0 : ChanId), 1].foldl (fun acc c => if acc.inUse c then acc else acc.raiseChan c) s4
  s5.chansInUse.foldl (fun acc c => (acc.liveRanks c).foldl (readRank b c) acc) s5

/-- The start from ROM on (R399 to R402): banked mode, a failed start, or READY. -/
def start_ (s : State) (b : BootInput) : State :=
  let known (i : ImageInfo) : Option Dword := if imageResult i s.part b.revoked = 0 then some i.version else none
  let s0 := s.updBoot fun x => { x with versionA := known b.slotA, versionB := known b.slotB }
  if s0.boot.fails = 3 ∨ s0.boot.force = true then s0.enterBanked
  else
    let s1 := s0.logReset
    match s1.chooseImage b with
    | (s2, none) => (s2.updBoot fun x => { x with stage := 2 }).failStart 1 s2.allResting
    | (s2, some (slotB, fell, i)) =>
      let s3 := (s2.updBoot fun x => { x with image := i, slotB := slotB, fellBack := fell }).startClocks i
      match s3.chooseMap i b with
      | none => (s3.updBoot fun x => { x with stage := 4 }).failStart 2 false
      | some (single, only) =>
        let s4 := s3.trainDram i b single only
        let on : BitVec 8 := if s.part = .zr3218 then 0xFF else 0x6F
        let s5 := (s4.updPower fun p => { p with on := on }).updBoot fun x => { x with stage := 6, keep := false }
        let s6 : State := { s5 with sr := { idleFrom := s5.time } }
        s6.beginCourses

/-- The start runs when one is under way. -/
def bootStart (s : State) (b : BootInput) : State := if s.starting then s.start_ b else s

/-! ### Heat and supply -/

/-- The die rises above 105 degrees (R406). -/
def dieHot (s : State) (t : BitVec 16) : State :=
  let s1 := s.updPower fun p => { p with dieTemp := t }
  if t.toInt ≤ 1680 ∨ s.power.dieWarn = true then s1
  else ((s1.updPower fun p => { p with dieWarn := true }).logErr 0x0F04 255 [fld 12 1 1, fld 16 2 t.toNat]).raise 71

/-- The die falls below 100 degrees, and the warning rearms (R406). -/
def dieCool (s : State) (t : BitVec 16) : State :=
  s.updPower fun p => { p with dieTemp := t, dieWarn := p.dieWarn && decide (1600 ≤ t.toInt) }

/-- Domains to switch off at a thermal stop, in the order of R394. -/
def stopOffs (s : State) : List (DomainId × Bool) :=
  (([7, 6, 5, 4, 3] : List DomainId).filter fun d => s.domainOn d.val).map fun d => (d, false)

/-- The die reaches 115 degrees (R399, R404, R406). -/
def thermalStop (s : State) (t : BitVec 16) : State :=
  let s1 := s.updPower fun p => { p with dieTemp := t }
  if t.toInt < 1840 ∨ s.power.thermalStop = true then s1
  else if s.starting then
    let s2 := { s1 with boot := { s1.boot with stage := s1.openStage }, free := s1.free + 1 }
    s2.failStart 6 s2.allTrained
  else
    let s2 := (s1.updPower fun p => { p with thermalStop := true, cause := 2, todo := s.stopOffs }).updBoot fun b =>
      { b with cause := 6, fails := min 3 (b.fails + 1) }
    (s2.stopDevice.logErr 0x0F04 255 [fld 12 1 2, fld 16 2 t.toNat]).raise 71

/-- Write a SUPPLY entry (R410): 1 warning, 2 recovered, 3 stop. -/
def logSupply (s : State) (rail : Fin 7) (what : Nat) : State := s.logErr 0x0F03 255 [fld 12 1 rail.val, fld 13 1 what]

/-- A rail falls below its warning threshold (R407). -/
def railWarning (s : State) (rail : Fin 7) : State :=
  if s.power.warned[rail] then s
  else ((s.updPower fun p => { p with warned := vset p.warned rail true }).logSupply rail 1).raise 81

/-- A rail other than VDD_AON is back above its warning threshold (R392). -/
def railRecovered (s : State) (rail : Fin 7) : State :=
  if !s.power.warned[rail] then s
  else
    let s1 := s.updPower fun p => { p with warned := vset p.warned rail false }
    if rail = 0 then s1 else (s1.logSupply rail 2).raise 82

/-- A rail other than VDD_AON is below its fault threshold for 1 us: the device resets in full at once (R392, R407). -/
def supplyStop (s : State) (rail : Fin 7) (low : Nat) : State :=
  if rail = 0 ∨ low < 1000 then s
  else
    let s1 := { s with boot := { s.boot with stage := s.openStage }, free := s.free + 1 }
    (s1.logSupply rail 3).failStart 7 false

/-! ### The management sideband -/

/-- A write to ACTION acts when ARM received 0x4D within the 10 ms before it, and disarms (R425). -/
def action (s : State) (act : State → State) : State :=
  let s1 := s.updPower fun p => { p with armed := none }
  match s.power.armed with
  | some t => if s.time ≤ t + 10 * Config.msTau then act s1 else s1
  | none => s1

/-- HOST is switched on (R393, R425). -/
def hostOn (s : State) : State := if s.domainOn 2 then s else (s.setPower 2 true).noteSwitch 2 true 1

/-- HOST is switched off: every host is reset as R27 gives; ignored in banked mode (R393, R425). -/
def hostOff (s : State) : State :=
  if s.banked || !s.domainOn 2 then s
  else (((List.finRange 4).foldl (fun acc h => acc.resetPort h) s).setPower 2 false).noteSwitch 2 false 1

/-- The shutdown of R408: the drain halts, MEMA, MEMB and FORGE are switched off, and source 83 is raised. It is not accepted
while a condition of R393 for one of these switches fails. -/
def shutdown (s : State) : State :=
  let gone (x : DomainId × Bool) : Bool := x.2 && x.1.val != 6 && x.1.val != 7 && !s.domainOn x.1.val
  let left := s.power.todo.filter fun x => !gone x
  let offs := ([5, 4, 3] : List DomainId).filter fun d => s.domainOn d.val && !left.contains (d, false)
  let s1 := s.haltNow
  if s.starting || s.banked || !(offs.all s1.mayLeave) then s
  else
    (s1.updPower fun p => { p with todo := left ++ offs.map fun d => (d, false), cause := 1 }).steer.raise 83

end State

/-! ### Rows of the table -/

/-- LOOP_LOCK_TIMEOUT: a loop has not locked 2 ms after its start at CLOCKS (R373). -/
def execLoopLockTimeout (_l : LoopId) (s : State) : Host.Outcome State Fault Refusal :=
  .next (if s.starting then (s.updBoot fun b => { b with stage := 3 }).failStart 3 s.allResting else s)

/-- POWER_ON_RESET. -/
def execPowerOnReset (rise : Bool) (refSel : BitVec 2) (s : State) : Host.Outcome State Fault Refusal :=
  .next (s.powerOn rise refSel)

/-- SYS_RST_N, low for so many nanoseconds (R396). -/
def execSysRstN (low : Nat) (s : State) : Host.Outcome State Fault Refusal :=
  .next (if 1000 ≤ low then s.fullReset 1 else s)

/-- TRST_N resets the TAP alone (R396). -/
def execTrstN (s : State) : Host.Outcome State Fault Refusal := .next s

/-- DEVICE_RESET: the reset that RESET_DEVICE scheduled takes effect (R79). -/
def execDeviceReset (s : State) : Host.Outcome State Fault Refusal :=
  .next (match s.boot.resetAt with
    | some (t, full) => if t ≤ s.time then s.resetDevice full else s
    | none => s)

/-- BOOT_START. -/
def execBootStart (b : BootInput) (s : State) : Host.Outcome State Fault Refusal := .next (s.bootStart b)

/-- BOOT_WATCHDOG: it runs for 2 s of absolute time (R5, R399). -/
def execBootWatchdog (s : State) : Host.Outcome State Fault Refusal :=
  .next (if s.starting && decide (2 * Config.secTau ≤ s.time) then s.crash 4 else s)

/-- TRAP. -/
def execTrap (s : State) : Host.Outcome State Fault Refusal := .next (s.crash 5)

/-- FAIL_COUNT_CLEAR: RUNNING has been held for 10 s (R404). -/
def execFailCountClear (s : State) : Host.Outcome State Fault Refusal :=
  .next (match s.boot.runningFrom with
    | some t =>
      if s.boot.stage = 7 ∧ t + 10 * Config.secTau ≤ s.time then s.updBoot fun b => { b with fails := 0 } else s
    | none => s)

/-- SUPPLY_WARNING. -/
def execSupplyWarning (rail : Fin 7) (s : State) : Host.Outcome State Fault Refusal := .next (s.railWarning rail)

/-- SUPPLY_STOP. -/
def execSupplyStop (rail : Fin 7) (low : Nat) (s : State) : Host.Outcome State Fault Refusal := .next (s.supplyStop rail low)

/-- SUPPLY_RECOVERED. -/
def execSupplyRecovered (rail : Fin 7) (s : State) : Host.Outcome State Fault Refusal := .next (s.railRecovered rail)

/-- DIE_WARNING. -/
def execDieWarning (temp : BitVec 16) (s : State) : Host.Outcome State Fault Refusal := .next (s.dieHot temp)

/-- THERMAL_STOP. -/
def execThermalStop (temp : BitVec 16) (s : State) : Host.Outcome State Fault Refusal := .next (s.thermalStop temp)

/-- DIE_WARNING_REARM. -/
def execDieWarningRearm (temp : BitVec 16) (s : State) : Host.Outcome State Fault Refusal := .next (s.dieCool temp)

/-- ARM: 0x4D arms ACTION for 10 ms, from the end of POR on (R424). -/
def execArm (value : Byte) (s : State) : Host.Outcome State Fault Refusal :=
  .next (if value = 0x4D ∧ s.boot.stage ≠ 0 then s.updPower fun p => { p with armed := some s.time } else s)

/-- MGMT_RESET (R425). -/
def execMgmtReset (s : State) : Host.Outcome State Fault Refusal := .next (s.action fun t => t.fullReset 4)

/-- MGMT_FORCE_BANKED (R425). -/
def execMgmtForceBanked (s : State) : Host.Outcome State Fault Refusal :=
  .next (s.action fun t => (t.updBoot fun b => { b with force := true }).fullReset 4)

/-- MGMT_CLEAR_FORCE (R425). -/
def execMgmtClearForce (s : State) : Host.Outcome State Fault Refusal :=
  .next (s.action fun t => t.updBoot fun b => { b with force := false })

/-- MGMT_HOST_ON (R425). -/
def execMgmtHostOn (s : State) : Host.Outcome State Fault Refusal := .next (s.action State.hostOn)

/-- MGMT_HOST_OFF (R425). -/
def execMgmtHostOff (s : State) : Host.Outcome State Fault Refusal := .next (s.action State.hostOff)

/-- MGMT_SHUTDOWN (R408, R425). -/
def execMgmtShutdown (s : State) : Host.Outcome State Fault Refusal := .next (s.action State.shutdown)

end Sys2Proof.Machine
end

