-- ==== Sys2Proof/Machine/TestFw.lean ====
section
/-! DEFINITION. The commands of test and firmware (R78, R79, R129, R214, R225, R338 to R340, R365, R403). -/

namespace Sys2Proof.Machine

/-! ### Quench dumps (R363, R365) -/

/-- The channel whose section holds a byte of a dump, for the sections that are kept by channel (R363). -/
def dumpChan (off : Nat) : Option Nat :=
  if off < 0x40 then none
  else if off < 0x440 then some ((off - 0x40) / 512)
  else if off < 0xC40 then some ((off - 0x440) / 1024)
  else if off < 0x8C40 then some ((off - 0xC40) / 16384)
  else if off < 0xAC40 then none
  else if off < 0xBC40 then some ((off - 0xAC40) / 2048)
  else none

/-- A byte of a dump (R363). What the manual does not lay out is a free value. -/
def Dump.byteAt (d : Dump) (off : Nat) : Byte :=
  let open_ := Config.dumpByte d.serial off
  if off < 64 then d.header.extractLsb' (8 * off) 8
  else match dumpChan off with
    | some c =>
      if d.mask / 2 ^ c % 2 = 0 then 0
      else if 0xC40 ≤ off ∧ off < 0x8C40 then
        let k := off - 0xC40
        ((d.traces.getD (k / 8192) [])[k % 8192 / 16]?.map fun r => r.extractLsb' (8 * (k % 16)) 8).getD open_
      else open_
    | none =>
      if off < 0xAC40 then
        (d.records[(off - 0x8C40) / 32]?.map fun r => r.extractLsb' (8 * ((off - 0x8C40) % 32)) 8).getD open_
      else open_

/-- Bytes of a dump from an offset on. -/
def Dump.slice (d : Dump) (off len : Nat) : List Byte := (List.range len).map fun k => d.byteAt (off + k)

/-! ### Staging (R79, R403) -/

/-- Bytes put at an offset of what is staged; bytes that no piece has brought are none. -/
def putPiece (l : List (Option Byte)) (off : Nat) (bs : List Byte) : List (Option Byte) :=
  l.take off ++ List.replicate (off - l.length) none ++ bs.map some ++ l.drop (off + bs.length)

/-- The copy of the boot record that a commit writes: the one that is not valid, else the one with the smaller SEQ, copy A
before copy B (R403). -/
def olderCopy (r : Vector BootRec 2) : Fin 2 :=
  let a := r[(0 : Fin 2)]
  let b := r[(1 : Fin 2)]
  if !a.valid then 0 else if !b.valid then 1 else if b.seq < a.seq then 1 else 0

namespace State

/-- The slot that FW_STAGE programs: the one that did not boot, in banked mode the one that the boot record does not name as
committed (R403). -/
def stageSlot (s : State) : Bool := !(if s.banked then committedB s.boot.recs else s.boot.slotB)

/-- A piece of an image has come (R79): it is programmed, and the slot holds no valid image until the commit. A piece at
offset 0 begins a new image, and the last piece ends it. -/
def stage (s : State) (c : Cmd) : State :=
  let off := c.p 2
  let bs := c.buf.take (c.p 3)
  let slot := s.stageSlot
  let old := if off = 0 then [] else s.boot.staged
  let put := putPiece old off bs
  let last := c.f 4 0 1 == 1
  let all := if last then put.take (off + bs.length) else put
  let s1 := s.updBoot fun b => { b with
    staged := all, stagedAll := last || (b.stagedAll && decide (off ≠ 0))
    versionA := if slot then b.versionA else none
    versionB := if slot then none else b.versionB }
  (s1.emit (.flash slot off bs)).succeed c.id (all.filter (·.isSome)).length

/-- The staged image is named in the boot record (R79, R403, R404). -/
def commit (s : State) (id : Nat) (bs : List Byte) : State :=
  let slot := s.stageSlot
  let k := olderCopy s.boot.recs
  let other := s.boot.recs[(k + 1 : Fin 2)]
  let version : Dword := BitVec.ofNat 32 (leNat ((bs.drop 4).take 4))
  let s1 := s.updBoot fun b => { b with
    recs := vset b.recs k { seq := ((if other.valid then other.seq else 0) + 1) % 2 ^ 32, slotB := slot, valid := true }
    versionA := if slot then b.versionA else some version
    versionB := if slot then some version else b.versionB
    staged := [], stagedAll := false
    fails := if s.banked then 0 else b.fails }
  s1.succeed id version.toNat (if slot then 1 else 0)

/-! ### Self tests -/

/-- A decoder engine that does not serve a link is tested (R214): whether it passes, and at which step it fails, is a free
value. -/
def testDecoder (s : State) (id : Nat) (e : Fin 34) : State :=
  if s.engines[e].st = .serving then s.fail id .resourceConflict
  else
    let step := Config.selfTestStep s.free
    let s1 := s.useFree
    if step = 0 then
      let s2 := s1.updEngine e fun x => { x with st := .spare, dec := {}, input := [] }
      let drop (l : Link) : Link := if l.engine = some e then { l with engine := none } else l
      let s3 : State := { s2 with links := s2.links.map drop }
      ((s3.logErr 0x0804 255 [fld 12 1 0xFF, fld 15 1 e.val, fld 20 2 0xFFFF]).raise 84).succeed id 1
    else (s1.updEngine e fun x => { x with st := .out }).succeed id 0 step

/-- A compressor engine is tested when it holds no command (R129). -/
def askCompTest (s : State) (id : Nat) (n : Fin 8) : State :=
  if s.comps[n].job.isSome then s.updComp n fun e => { e with test := some id } else s.testComp n id

/-- The forge pool is tested (R225): the tested regions are left zeroed. -/
def testPool (s : State) (id : Nat) : State :=
  if !s.drainHalted || (s.comps.toList.any fun e => e.job.isSome) || (List.finRange 4).any s.stagingBusy then s.fail id .resourceConflict
  else
    let step := Config.selfTestStep s.free
    let addr := (Config.openDword s.free).toNat
    let blank (x : Slot) : Slot := { x with image := x.image.map fun _ => 0 }
    let s1 : State := { s.useFree with
      engines := s.engines.map fun (e : Engine) => { e with dec := {}, input := [] }
      links := s.links.map fun (l : Link) => { l with slots := l.slots.map blank } }
    if step = 0 then s1.succeed id 1 else s1.succeed id 0 addr

end State

/-! ### Meanings -/

/-- RAW_WRITE begins (R78, R338). -/
def bodyRawWrite (c : Cmd) (s : State) : State := beginWrite c (c.raster 2) (8 * c.f 4 0 16) (16 * c.f 4 0 16) s

/-- RAW_READ begins (R78, R338). -/
def bodyRawRead (c : Cmd) (s : State) : State := beginRead c (c.raster 2) (8 * c.f 4 0 16) s

/-- ECC_INJECT arms flips for the next write of the word (R340), or flips the stored word (R339); in an unwritten ashlar that
is a first write, with its fill. -/
def bodyEccInject (c : Cmd) (s : State) : State :=
  let a := c.raster 0
  if c.f 5 0 1 = 1 then
    (s.updChan (s.raster.chanOf a) fun ch => { ch with armed := some (a, c.flips) }).succeed c.id
  else
    let bs := State.burstsFrom (s.rangeLo a) (s.rangeHi a)
    let s1 := s.beginFills c.id [s.raster.ashlar a]
    ((s1.updCmd c.id fun x => { x with
      prog := .raster, todo := bs.map fun b => ⟨b, s1.burstKind c b⟩ }).present).progress c.id

/-- QUENCH_DUMP (R365). -/
def bodyQuenchDump (c : Cmd) (s : State) : State :=
  match s.quench.dumps.find? fun d => d.index = c.f 0 0 8 with
  | none => s.fail c.id .invalidField 0x8008
  | some d =>
    let len := min (c.p 4) (52288 - c.p 3)
    let s1 := if len = 0 then s else s.emit (.hostWrite c.host (c.hostAddr 1) (d.slice (c.p 3) len))
    s1.succeed c.id len 52288

/-- SELF_TEST (R129, R214, R225). -/
def bodySelfTest (c : Cmd) (s : State) : State :=
  match c.f 0 0 8 with
  | 0 => s.testDecoder c.id (Fin.ofNat 34 (c.f 0 8 8))
  | 1 => s.askCompTest c.id (Fin.ofNat 8 (c.f 0 8 8))
  | _ => s.testPool c.id

/-- FW_STAGE begins: its bytes are to come (R79). -/
def bodyFwStage (c : Cmd) (s : State) : State := s.updCmd c.id fun x => { x with prog := .source (c.p 3) }

/-- FW_COMMIT (R79, R81). -/
def bodyFwCommit (c : Cmd) (s : State) : State :=
  let bs := s.boot.staged.filterMap id
  if !s.staged then s.fail c.id .invalidField 0x1A
  else if !Config.signatureVerifies bs then s.fail c.id .invalidField 0x19
  else s.commit c.id bs

/-- RESET_DEVICE completes, and the device resets 1 ms later (R79); in banked mode the failed-start counter and the force flag
clear (R404, R405). -/
def bodyResetDevice (c : Cmd) (s : State) : State :=
  (s.succeed c.id).updBoot fun b => { b with
    resetAt := some (s.time + Config.msTau, c.f 0 0 1 == 1)
    fails := if s.banked then 0 else b.fails
    force := if s.banked then false else b.force }

/-! ### Rows of the table -/

/-- RAW_WRITE. -/
def execRawWrite (c : Issue) (s : State) : Host.Outcome State Fault Refusal := .next (s.submit 0x50 bodyRawWrite c)

/-- RAW_READ. -/
def execRawRead (c : Issue) (s : State) : Host.Outcome State Fault Refusal := .next (s.submit 0x51 bodyRawRead c)

/-- ECC_INJECT. -/
def execEccInject (c : Issue) (s : State) : Host.Outcome State Fault Refusal := .next (s.submit 0x52 bodyEccInject c)

/-- QUENCH_DUMP. -/
def execQuenchDump (c : Issue) (s : State) : Host.Outcome State Fault Refusal := .next (s.submit 0x53 bodyQuenchDump c)

/-- SELF_TEST. -/
def execSelfTest (c : Issue) (s : State) : Host.Outcome State Fault Refusal := .next (s.submit 0x55 bodySelfTest c)

/-- FW_STAGE. -/
def execFwStage (c : Issue) (s : State) : Host.Outcome State Fault Refusal := .next (s.submit 0x70 bodyFwStage c)

/-- FW_COMMIT. -/
def execFwCommit (c : Issue) (s : State) : Host.Outcome State Fault Refusal := .next (s.submit 0x71 bodyFwCommit c)

/-- RESET_DEVICE. -/
def execResetDevice (c : Issue) (s : State) : Host.Outcome State Fault Refusal := .next (s.submit 0x72 bodyResetDevice c)

end Sys2Proof.Machine
end

