-- ==== Sys2Proof/Machine/RegRead.lean ====
section
/-! DEFINITION. What the registers of BAR0 read (R9, R29, R419): one function for each block of the map, in 32-bit registers
by offset. -/

namespace Sys2Proof.Machine

/-- A number as a field of so many bits at a place. -/
def putBits (lo n v : Nat) : Nat := v % 2 ^ n * 2 ^ lo

/-- A signed number in two's complement of so many bits. -/
def twos (n : Nat) (v : Int) : Nat := (v % (2 ^ n : Int)).toNat

/-- A flag as a bit at a place. -/
def putBit (lo : Nat) (b : Bool) : Nat := if b then 2 ^ lo else 0

namespace State

/-- The value of SAFE_OFF (R408). -/
def safeOff (s : State) : Bool :=
  s.chansInUse.all (fun c => !s.trained c || s.resting c) &&
    !(s.cmds.any fun c => c.isStarted && (c.op == 0x70 || c.op == 0x71))

/-- Registers 0x0000 to 0x00FF. -/
def readIdent (s : State) (h : HostId) (off : Nat) : Nat :=
  match off with
  | 0x00 => 0x1F7B + putBits 16 16 s.part.deviceId.toNat
  | 0x04 => 0x01 + putBits 8 2 h.val + putBits 16 8 Config.romVersion.toNat
  | 0x08 => Config.serial.toNat % 2 ^ 32
  | 0x0C => Config.serial.toNat / 2 ^ 32
  | 0x10 => s.part.compressors + putBits 8 8 s.part.links + putBits 16 4 s.part.channels + putBits 20 4 s.part.ports +
      putBits 24 8 s.part.links
  | 0x14 => putBits 28 4 s.boot.stage + putBits 16 8 s.boot.cause + putBits 12 4 s.boot.fails + putBit 0 s.safeOff
  | _ => 0

/-- HB_AGE of a host in ms (R39). -/
def hbAge (s : State) (h : HostId) : Nat :=
  match s.hosts[h].st with
  | .down | .linked => 0
  | _ => min (2 ^ 32 - 1) ((s.time - s.hosts[h].lastHb) / Config.msTau)

/-- Registers 0x0100 to 0x01FF. -/
def readHost (s : State) (h : HostId) (off : Nat) : Nat :=
  let r := s.hosts[h]
  if off = 0x100 then
    putBits 28 4 r.st.code + putBit 27 (s.isSteward h) + putBits 25 2 r.fenceCause.val +
      putBits 20 4 (hostOr 0xF s.role.holder) + putBits 16 2 h.val + putBits 0 16 r.ignored
  else if off = 0x10C then s.hbAge h
  else if off = 0x114 then ((List.finRange 8).map fun k => putBits (4 * k.val) 4 (hostOr 0xF s.events.from_[k])).sum
  else if 0x120 ≤ off ∧ off < 0x140 then (s.events.data[(Fin.ofNat 8 ((off - 0x120) / 4))]).toNat
  else 0

/-- Registers 0x0200 to 0x02FF (R49). -/
def readQueue (s : State) (h : HostId) (off : Nat) : Nat :=
  if off < 0x220 then
    let k := s.queue h (Fin.ofNat 4 ((off - 0x200) / 8))
    if off % 8 = 0 then k.sqTail else k.cqHead
  else if 0x240 ≤ off ∧ off < 0x2C0 then
    let q : QueueId := Fin.ofNat 4 ((off - 0x240) / 0x20)
    let k := s.queue h q
    match (off - 0x240) % 0x20 with
    | 0x00 => k.sqBase.toNat % 2 ^ 32
    | 0x04 => k.sqBase.toNat / 2 ^ 32
    | 0x08 => k.cqBase.toNat % 2 ^ 32
    | 0x0C => k.cqBase.toNat / 2 ^ 32
    | 0x10 => putBit 31 k.enable + putBit 25 k.notifyAll + putBits 20 5 k.vector.val + putBits 0 9 k.size
    | 0x14 => putBit 31 k.configError + putBit 30 k.dbError + putBit 29 k.phase + putBits 16 8 (s.queueFlight h q) +
        putBits 8 8 k.sqHead + putBits 0 8 k.cqTail
    | _ => 0
  else 0

/-- Registers 0x1000 to 0x13FF. Entries of sources that the part lacks read 0 (R4). -/
def readEvents (s : State) (h : HostId) (off : Nat) : Nat :=
  let word (v : BitVec 96) (base : Nat) : Nat := v.toNat / 2 ^ (8 * (off - base)) % 2 ^ 32
  if off < 0x1180 then
    let n := (off - 0x1000) / 4
    let r := s.events.routes[(Fin.ofNat 96 n)]
    if n < 16 ∨ s.part.neverAsserts n = true then 0
    else putBit 31 r.enable + putBits 8 3 r.target.val + putBits 0 5 r.vector.val
  else if 0x1200 ≤ off ∧ off < 0x120C then word s.hosts[h].status 0x1200
  else if 0x1210 ≤ off ∧ off < 0x121C then word s.hosts[h].mask 0x1210
  else if 0x1220 ≤ off ∧ off < 0x122C then word s.events.held 0x1220
  else if 0x1300 ≤ off ∧ off < 0x1380 then
    let v := s.hosts[h].vecs[(Fin.ofNat 32 ((off - 0x1300) / 4))]
    putBits 16 10 v.holdoff + putBits 0 8 v.count
  else 0

/-- The MSI-X table and pending-bit array (R19). -/
def readMsix (s : State) (h : HostId) (off : Nat) : Nat :=
  if off < 0x8200 then
    let v := s.hosts[h].vecs[(Fin.ofNat 32 ((off - 0x8000) / 16))]
    match (off - 0x8000) % 16 with
    | 0 => v.msgAddr.toNat % 2 ^ 32
    | 4 => v.msgAddr.toNat / 2 ^ 32
    | 8 => v.msgData.toNat
    | _ => putBit 0 v.masked
  else if off = 0x9000 then ((List.finRange 32).map fun v => putBit v.val s.hosts[h].vecs[v].pend).sum
  else 0

/-! ### Configuration space -/

/-- A dword of the identity that a port presents in configuration space (R23), at the offsets that the PCI Express Base Specification
gives (PRESUMED, log entry 8): IDs, revision and class, BAR0 as 64 KiB of 64-bit non-prefetchable memory, the BARs and the ROM that
are not implemented, subsystem, and interrupt pin. -/
def readConfig (s : State) (h : HostId) (off : Nat) : Nat :=
  match off with
  | 0x00 => 0x1F7B + putBits 16 16 s.part.deviceId.toNat
  | 0x08 => 0x01 + putBits 8 24 0x058000
  | 0x10 => 0x4 + putBits 16 16 (s.hosts[h].pci.bar0.toNat / 2 ^ 16)
  | 0x14 => s.hosts[h].pci.bar0.toNat / 2 ^ 32
  | 0x2C => 0x1F7B + putBits 16 16 (if s.banked then 0 else s.boot.image.subsystemId.toNat)
  | _ => 0

/-- The Device Serial Number capability of a port (R19, R23): the same on every port. -/
def readSerial (_s : State) (_h : HostId) : BitVec 64 := Config.serial

/-! ### The steward block -/

/-- Registers 0x4000 to 0x406F. -/
def readCommit (s : State) (off : Nat) : Nat :=
  let tab (c : ChanId) (k : Nat) : Nat :=
    let ch := s.chans[c]
    let act := ch.banks[ch.active]
    match k with
    | 0 => putBit 31 (s.bankQualifies c) + putBits 30 1 ch.active.val + putBits 0 12 act.slots
    | 4 => act.tableId.toNat
    | _ => (ch.banks[(ch.active + 1 : Fin 2)]).tableId.toNat
  match off with
  | 0x4004 => putBits 16 16 s.ks.seq + putBits 14 2 s.ks.outcome.val + putBit 13 s.shadowsPending +
      putBit 12 (s.bankQualifies 0) + putBit 11 (s.bankQualifies 1) + putBits 0 8 s.ks.detail
  | 0x4008 => putBits 30 2 (match s.seq.drain with
        | .halted => 0
        | .running => 1
        | .halting => 2) + putBit 29 s.seq.lastFill + putBit 28 s.seq.lastShort + putBit 27 s.seq.overrunOpen +
      putBits 20 4 s.seq.wait + putBits 0 12 (s.slotNow s.lead)
  | 0x400C => s.seq.debt % 2 ^ 32
  | 0x4010 => s.seq.number % 2 ^ 32
  | 0x4014 => s.seq.number / 2 ^ 32 % 2 ^ 32
  | 0x4018 => putBits 16 9 s.leadShown + putBits 0 9 s.leff
  | 0x401C => s.ks.shadow.lookahead.toNat
  | 0x4020 => putBits 16 16 ((s.fillingPage.map fun p => p.id.toNat).getD 0xFFFF) + s.seq.pages.length
  | 0x4040 | 0x4044 | 0x4048 => tab 0 (off - 0x4040)
  | 0x4050 | 0x4054 | 0x4058 => tab 1 (off - 0x4050)
  | 0x4060 => (s.ks.shadow.evtOut[(0 : Fin 2)]).toNat
  | 0x4064 => (s.ks.shadow.evtOut[(1 : Fin 2)]).toNat
  | 0x4068 => putBit 0 s.events.latch[0] + putBit 1 s.events.latch[1]
  | _ => 0

/-- No ashlar is written or filling, nothing that touches raster is in progress, no page is in the queue and no migration is
under way (R96). -/
def rasterEmpty (s : State) : Bool :=
  s.raster.written == [] && s.raster.filling == [] && s.seq.pages == [] &&
    !(s.cmds.any fun c => c.isStarted && (c.requester.isSome || c.op == 0x11)) &&
    (List.finRange 2).all fun c => s.chans[c].mig.st != .copying

/-- Registers 0x4400 to 0x441F (R95). -/
def readMap (s : State) (off : Nat) : Nat :=
  let r := s.raster
  if off < 0x4418 then (r.maskShadow[(Fin.ofNat 6 ((off - 0x4400) / 4))]).toNat
  else if off = 0x4418 then r.spareShadow.toNat
  else if off = 0x441C then
    putBits 12 2 r.reason.val + putBit 9 r.refused + putBit 8 (r.maskShadow != r.mask || r.spareShadow != r.spare) +
      putBit 2 (r.spare.getLsbD 31) + putBit 1 r.single + putBit 0 s.rasterEmpty
  else 0

/-- The engine that will serve a link from its next strip boundary (R213). -/
def nextEngine (s : State) (n : LinkId) : Nat :=
  if s.engineServes n then s.engineNo n else (s.spareEngine.map (·.val)).getD 0x3F

/-- The code of an engine state (R215). -/
def engineCode (s : State) (e : Fin 34) : Nat :=
  match s.engines[e].st with
  | .serving => 0
  | .spare => 1
  | .out => 2
  | .absent => 3

/-- Registers 0x4600 to 0x47FF (R215, R221). -/
def readPool (s : State) (off : Nat) : Nat :=
  if off = 0x4600 then s.ks.shadow.pool.toNat
  else if off = 0x4604 then
    putBit 31 (poolExtra s.ks.force.pool != s.anvilExtra) + putBits 16 4 s.anvilExtra + putBits 8 4 s.stagingUnits +
      putBits 0 4 s.shares
  else if 0x4700 ≤ off ∧ off < 0x4780 then
    let n : LinkId := Fin.ofNat 32 ((off - 0x4700) / 4)
    let f := s.links[n].fetch
    if s.part.links ≤ n.val then 0
    else putBit 31 f.poisoning + putBit 30 f.late + putBit 29 f.primed.isSome + putBits 8 6 (s.nextEngine n) +
      putBits 0 6 (if s.engineServes n then s.engineNo n else 0x3F)
  else if off = 0x4780 ∨ off = 0x4784 then
    ((List.range 16).map fun k => putBits (2 * k) 2 (s.engineCode (Fin.ofNat 34 (4 * (off - 0x4780) + k)))).sum
  else if off = 0x4788 then s.engineCode 32 + putBits 2 2 (s.engineCode 33)
  else 0

/-- Registers 0x4800 to 0x497F (R255). -/
def readLink (s : State) (off : Nat) : Nat :=
  let n : LinkId := Fin.ofNat 32 ((off - 0x4800) / 4)
  let l := s.links[n]
  if s.part.links ≤ n.val then 0
  else if off < 0x4880 then
    putBits 29 3 l.st.code + putBits 27 2 l.rate.val + putBit 26 (l.inbox != []) + putBits 20 4 (if l.st = .untrained then l.trainCause else l.downCause) +
      putBits 16 4 (l.board.buffers - 1) + putBits 0 16 (s.frameLead n)
  else if off < 0x4900 then l.lat % 2 ^ 32
  else if off < 0x4980 then putBits 16 16 l.noData + putBits 0 16 l.aborted
  else 0

/-- Low dword of a position of 48.16 bits. -/
def posLow (x : Int) : Nat := twos 64 x % 2 ^ 32

/-- High dword of a position. -/
def posHigh (x : Int) : Nat := twos 64 x / 2 ^ 32

/-- Registers 0x4A00 to 0x4A40 (R284). -/
def readWeb (s : State) (off : Nat) : Nat :=
  let w := s.web
  let wave (m : Nat) : Nat := ((List.range 16).map fun k =>
    let n : LinkId := Fin.ofNat 32 (16 * m + k)
    if n.val < s.part.links then putBits (2 * k) 2 s.links[n].bank.val else 0).sum
  match off with
  | 0x4A00 => putBits 29 3 w.st.code + putBit 28 w.reverse + putBit 27 (w.armed && !w.cfg.pass) +
      putBit 26 w.pending.isSome + putBit 25 w.cfg.pass + putBits 16 4 w.lossCause
  | 0x4A04 => posLow s.pos
  | 0x4A08 => posHigh s.pos
  | 0x4A0C => twos 32 (s.estNow.v / 256)
  | 0x4A10 => posLow s.highWater
  | 0x4A14 => posHigh s.highWater
  | 0x4A18 => s.ks.shadow.webCtrl.toNat
  | 0x4A1C => s.ks.shadow.passF.toNat
  | 0x4A20 => s.ks.shadow.passR.toNat
  | 0x4A24 => s.ks.shadow.markCtrl.toNat
  | 0x4A28 => s.ks.shadow.markWin.toNat
  | 0x4A2C => posLow w.markPos
  | 0x4A30 => posHigh w.markPos
  | 0x4A34 => putBits 16 16 w.skipped + putBits 8 8 w.slips + putBits 0 8 w.outside
  | 0x4A38 => putBits 16 16 w.accepted + putBits 0 16 w.chatter
  | 0x4A3C => wave 0
  | 0x4A40 => wave 1
  | _ => 0

/-- The fields of a channel are shown: not those of channel B where the part or the map has no use for it (R308, R358). -/
def chanShown (s : State) (c : ChanId) : Bool := c == 0 || (decide (s.part.channels = 2) && s.inUse 1)

/-- Registers 0x4B00 to 0x4B18 (R308). -/
def readDram (s : State) (off : Nat) : Nat :=
  let c : ChanId := Fin.ofNat 2 (off / 4)
  let ch := s.chans[c]
  match off with
  | 0x4B00 | 0x4B04 =>
    if s.chanShown c then
      putBits 28 4 ch.st.code + putBit 27 ch.hot + putBits 16 8 (s.hottest c) + putBits 0 16 ch.mts
    else 0
  | 0x4B08 => ((List.finRange 2).flatMap fun k => (List.finRange 4).map fun r =>
      if s.chanShown k then putBits (3 * r.val + 12 * k.val) 3 s.chans[k].ranks[r].st.code else 0).sum
  | 0x4B0C => s.ks.shadow.rfm.toNat
  | 0x4B10 | 0x4B14 =>
    if s.chanShown c then putBits 16 16 ch.replays + putBits 8 8 ch.storms + putBits 0 8 ch.mismatches else 0
  | 0x4B18 => putBits 16 16 s.sr.entries + putBits 0 16 s.sr.aborts
  | _ => 0

/-- Bits of ARB_CLASS0 and ARB_ENABLE that stand for requesters that the part has (R4, R327). -/
def classMask (s : State) : Nat := if s.part.ports = 4 then 0x77777777 else 0x00007777

/-- Bits of ARB_ENABLE that the part has. -/
def enableMask (s : State) : Nat := if s.part.ports = 4 then 0xFFF else 0xF0F

/-- Registers 0x4C00 to 0x4C3C (R327). -/
def readArb (s : State) (off : Nat) : Nat :=
  let h : HostId := Fin.ofNat 4 (off / 4)
  match off with
  | 0x4C00 => s.ks.shadow.class0.toNat &&& s.classMask
  | 0x4C04 => s.ks.shadow.class1.toNat
  | 0x4C08 => s.ks.shadow.arbEnable.toNat &&& s.enableMask
  | 0x4C0C | 0x4C10 =>
    let c : ChanId := if off = 0x4C0C then 0 else 1
    let a := s.chans[c].arb
    if c.val < s.part.channels then
      putBit 31 a.overlapped + putBits 24 4 ((a.parked.map (·.val)).getD 0xF) + putBits 0 16 a.preemptions
    else 0
  | 0x4C20 | 0x4C24 | 0x4C28 | 0x4C2C => if h.val < s.part.ports then (s.ks.shadow.reg[h]).toNat else 0
  | 0x4C30 | 0x4C34 | 0x4C38 | 0x4C3C =>
    if h.val < s.part.ports then putBits 16 16 s.buckets[h].passed + putBits 0 12 (s.buckets[h].tokens / 256) else 0
  | _ => 0

/-- Registers 0x4D00 to 0x4D1C (R358). -/
def readInteg (s : State) (off : Nat) : Nat :=
  let c : ChanId := Fin.ofNat 2 (off / 4)
  let ch := s.chans[c]
  match off with
  | 0x4D00 => s.ks.shadow.integ.toNat + putBit 30 s.integTest
  | 0x4D04 => ((List.finRange 2).flatMap fun k => (List.finRange 4).map fun r =>
      if s.chanShown k then putBits (2 * r.val + 8 * k.val) 2 s.chans[k].ranks[r].health.code else 0).sum
  | 0x4D08 | 0x4D0C =>
    if s.chanShown c then putBit 31 ch.scrub.active + putBit 30 ch.scrub.late + putBits 0 22 ch.scrub.next else 0
  | 0x4D10 | 0x4D14 =>
    if s.chanShown c then putBits 16 16 ch.eccCorrected + putBits 0 16 ch.eccUncorrectable else 0
  | 0x4D18 => s.ks.shadow.pace.toNat
  | 0x4D1C => putBit 31 s.quench.device + putBits 16 8 ((s.quench.dumps.getLast?.map (·.index)).getD 0) +
      putBits 8 8 s.quench.cause + putBit 1 (s.chanShown 1 && s.chanQuenched 1) + putBit 0 (s.chanQuenched 0)
  | _ => 0

/-- The fields that CLK_STATUS and CLK_PLAN share (R389). -/
def clkBits (k : ClkSet) : Nat :=
  putBits 16 2 k.memRate.val + putBits 12 4 k.coreDepth.val + putBits 10 2 k.coreMode.val + putBits 6 4 k.memDepth.val +
    putBits 4 2 k.memMode.val

/-- Registers 0x4E00 to 0x4E14 (R389). -/
def readClk (s : State) (off : Nat) : Nat :=
  let k := s.clk
  let err (l : LoopId) : Nat := if k.loops[l].st = .locked then 0 else twos 8 k.loops[l].err
  match off with
  | 0x4E00 => putBits 29 3 (k.loops[(0 : LoopId)]).st.code + putBits 26 3 (k.loops[(1 : LoopId)]).st.code +
      putBits 23 3 (k.loops[(2 : LoopId)]).st.code + putBit 22 k.refOk + putBit 21 k.change.isSome + clkBits k.force
  | 0x4E04 => clkBits k.plan
  | 0x4E08 => putBits 8 4 k.reason + putBit 0 k.refused
  | 0x4E0C => putBits 16 8 (err 2) + putBits 8 8 (err 1) + err 0
  | 0x4E10 => (s.ks.shadow.clkout[(0 : Fin 2)]).toNat
  | 0x4E14 => (s.ks.shadow.clkout[(1 : Fin 2)]).toNat
  | _ => 0

/-- Domains being switched (R409). -/
def switching (s : State) : Nat := ((List.finRange 8).map fun d => putBit d.val (s.power.todo.any fun x => x.1 == d)).sum

/-- Registers 0x4F00 and 0x4F04 (R409). -/
def readBoot (s : State) (off : Nat) : Nat :=
  match off with
  | 0x4F00 => putBits 28 4 s.boot.stage + putBits 16 8 s.boot.cause + putBits 12 4 s.boot.fails +
      putBits 8 4 s.boot.lastReset + putBit 2 s.safeOff + putBit 1 s.boot.fellBack + putBit 0 s.boot.slotB
  | 0x4F04 => putBits 16 16 s.power.dieTemp.toNat + putBits 8 8 s.switching + s.power.on.toNat
  | _ => 0

/-- What a register of the steward block reads on the steward's port (R419). -/
def readSteward (s : State) (off : Nat) : Nat :=
  if off < 0x4400 then s.readCommit off
  else if off < 0x4600 then s.readMap off
  else if off < 0x4800 then s.readPool off
  else if off < 0x4980 then s.readLink off
  else if off < 0x4B00 then s.readWeb off
  else if off < 0x4C00 then s.readDram off
  else if off < 0x4D00 then s.readArb off
  else if off < 0x4E00 then s.readInteg off
  else if off < 0x4F00 then s.readClk off
  else s.readBoot off

/-- The offset lies in the steward block and the port is not the steward's (R29). -/
def dark (s : State) (h : HostId) (off : Nat) : Bool := decide (0x4000 ≤ off ∧ off < 0x8000) && !s.isSteward h

/-- What a 32-bit register reads on a port (R29, R419). -/
def readReg (s : State) (h : HostId) (off : Nat) : Nat :=
  if s.dark h off then 2 ^ 32 - 1
  else if off < 0x100 then s.readIdent h off
  else if off < 0x200 then s.readHost h off
  else if off < 0x300 then s.readQueue h off
  else if off < 0x1000 then 0
  else if off < 0x1400 then s.readEvents h off
  else if off < 0x4000 then 0
  else if off < 0x8000 then s.readSteward off
  else s.readMsix h off

/-- Low halves of the 64-bit and paired registers (R284, R419, R421). -/
def pairLow (off : Nat) : Bool :=
  off == 0x4008 || off == 0x4010 || off == 0x4A04 || off == 0x4A10 || off == 0x4A2C ||
    (decide (0x240 ≤ off ∧ off < 0x2C0) && ((off - 0x240) % 0x20 == 0 || (off - 0x240) % 0x20 == 8))

/-- One read of a 32-bit register: that of a low half latches the high half, which the following read of the high half
returns (R284, R419). -/
def read32 (s : State) (h : HostId) (off : Nat) : State × Nat :=
  let v := s.readReg h off
  if s.dark h off then (s, v)
  else if pairLow off then
    (s.updHost h fun r => { r with latch :=
        (r.latch.filter fun x => x.1 ≠ off) ++ [(off, BitVec.ofNat 32 (s.readReg h (off + 4)))] }, v)
  else match s.hosts[h].latch.find? fun x => x.1 + 4 = off with
    | some x => (s.updHost h fun r => { r with latch := r.latch.filter fun y => y.1 + 4 ≠ off }, x.2.toNat)
    | none => (s, v)

/-- A read of 4 or 8 bytes, with its data. -/
def readAccess (s : State) (h : HostId) (off : Nat) (wide : Bool) : State :=
  let (s1, lo) := s.read32 h off
  if wide then
    let (s2, hi) := s1.read32 h (off + 4)
    s2.emit (.readData h (BitVec.ofNat 64 (lo + 2 ^ 32 * hi)))
  else s1.emit (.readData h (BitVec.ofNat 64 lo))

end State

end Sys2Proof.Machine
end

