-- ==== Sys2Proof/Machine/RegWrite.lean ====
section
/-! DEFINITION. Register writes (R9 to R11, R29, R43, R44, R49 to R52, R96, R176, R413 to R422): the write of one 32-bit
register by offset, and the rows of the table for register accesses. -/

namespace Sys2Proof.Machine

/-- Every value of a field is taken. -/
def anyVal (_ : Nat) : Bool := true

/-- A field of a register: lowest bit, width, and the values that a write of it takes. -/
abbrev FieldRule := Nat × Nat × (Nat → Bool)

/-- POOL_ALLOC (R221). -/
def poolRules : List FieldRule := [(16, 4, fun x => x ≤ 12), (8, 4, fun x => 1 ≤ x && x ≤ 12), (0, 4, fun x => x ≤ 8)]

/-- WEB_CTRL (R284). -/
def webRules : List FieldRule := [(8, 24, anyVal), (0, 8, fun x => x != 0)]

/-- MARK_CTRL (R284). -/
def markRules : List FieldRule := [(30, 2, anyVal), (16, 14, anyVal), (0, 14, fun x => 1 ≤ x && x ≤ 10000)]

/-- RFM_CTRL (R308). -/
def rfmRules : List FieldRule := [(16, 12, anyVal), (0, 4, fun x => x == 0 || (4 ≤ x && x ≤ 12))]

/-- REG_Hn (R327). -/
def regRules : List FieldRule := [(31, 1, anyVal), (16, 12, fun x => 8 ≤ x), (0, 16, anyVal)]

/-- INTEG_CTRL but for TEST (R358). -/
def integRules : List FieldRule := [(31, 1, anyVal), (16, 8, fun x => x != 0), (0, 16, anyVal)]

/-- MIG_CTRL (R358). -/
def paceRules : List FieldRule := [(0, 8, fun x => x != 0)]

/-- CLKOUTn_CTRL (R389). -/
def clkoutRules : List FieldRule :=
  [(31, 1, anyVal), (29, 2, fun x => x != 3), (27, 2, fun x => x != 3), (20, 6, fun x => 4 ≤ x && x ≤ 50),
    (0, 19, fun x => 25000 ≤ x && x ≤ 312500)]

/-- EVT_OUTn_CTRL: sources that the part has (R4, R423). -/
def evtRules (part : Part) : List FieldRule :=
  [(28, 4, fun x => x ≤ 9), (16, 7, fun x => 16 ≤ x && x ≤ 95 && !part.neverAsserts x)]

/-- SPARE_CONTROL: SPARE_B only where the part has channel B (R4, R95). -/
def spareRules (part : Part) : List FieldRule := [(31, 1, anyVal), (4, 2, fun _ => part == .zr3218), (0, 2, anyVal)]

/-- A register's value after a write: a field whose written value is not taken keeps its old one, and reserved bits are 0
(R9, R10). -/
def mergeFields (old new : Dword) (fs : List FieldRule) : Dword :=
  BitVec.ofNat 32 (fs.map fun f =>
    let v := bits new.toNat f.1 f.2.1
    putBits f.1 f.2.1 (if f.2.2 v then v else bits old.toNat f.1 f.2.1)).sum


/-- A register of which a write reaches only some bits. -/
def keepBits (old new : Dword) (mask : Nat) : Dword :=
  (old &&& ~~~ (BitVec.ofNat 32 mask)) ||| (new &&& BitVec.ofNat 32 mask)

/-- The queue after a write to Q_CONTROL (R49, R50). -/
def Queue.control (k : Queue) (v : Dword) (mayEnable : Bool) : Queue :=
  let on := v.getLsbD 31
  let size := bits v.toNat 0 9
  let k1 := { k with vector := Fin.ofNat 32 (bits v.toNat 20 5), notifyAll := v.getLsbD 25 }
  if k.enable then
    if on then (if k.disabling then { k1 with configError := true } else k1) else { k1 with disabling := true }
  else
    let k2 := { k1 with size := size }
    if !on then k2
    else if mayEnable && decide (2 ≤ size) && decide (size ≤ 256) then
      { k2 with enable := true, sqHead := 0, sqTail := 0, cqHead := 0, cqTail := 0, phase := true }
    else { k2 with configError := true }

/-- A value written to SQ_TAIL is taken (R52). -/
def Queue.takesTail (k : Queue) (v : Nat) : Bool :=
  k.enable && decide (v < k.size) &&
    decide ((k.sqTail + k.size - k.sqHead) % k.size ≤ (v + k.size - k.sqHead) % k.size)

/-- A value written to CQ_HEAD is taken (R52). -/
def Queue.takesHead (k : Queue) (v : Nat) : Bool :=
  k.enable && decide (v < k.size) &&
    decide ((v + k.size - k.cqHead) % k.size ≤ (k.cqTail + k.size - k.cqHead) % k.size)

/-- The queue after FENCE_ACK: empty rings; bases, Q_CONTROL and error bits stay (R44). -/
def Queue.emptied (k : Queue) : Queue := { k with sqHead := 0, sqTail := 0, cqHead := 0, cqTail := 0, phase := true }

/-- One dword of a 64-bit value replaced. -/
def putHalf (old : BitVec 64) (high : Bool) (v : Dword) : BitVec 64 :=
  if high then v ++ old.extractLsb' 0 32 else old.extractLsb' 32 32 ++ v

namespace State

/-! ### Access to BAR0 -/

/-- Requests can reach the port: the part has it, HOST is powered, and its link is up (R20, R24). -/
def portUp (s : State) (h : HostId) : Bool := decide (h.val < s.part.ports) && s.domainOn 2 && s.hosts[h].st != .down

/-- A memory request reaches a port: before READY (R400) and in D3hot (R19) it completes with Unsupported Request. -/
def request (s : State) (h : HostId) (act : State → State) : State :=
  if !s.portUp h then s else if s.serves && !s.hosts[h].pci.d3hot then act s else s.emit (.unsupported h)

/-- A write is ignored and counted while its host is FENCED (R43). -/
def countIgnored (s : State) (h : HostId) : State := s.updHost h fun r => { r with ignored := satAdd 0xFFFF r.ignored 1 }

/-- A write of a register that a FENCED host may not write (R43). -/
def writeAs (s : State) (h : HostId) (act : State → State) : State :=
  s.request h fun t => if t.hosts[h].st = .fenced then t.countIgnored h else act t

/-! ### Queues and the host block -/

/-- Q_CONTROL (R50); in banked mode only queue 0 is enabled (R66). -/
def writeControl (s : State) (h : HostId) (q : QueueId) (v : Dword) : State :=
  (s.updQueue h q fun k => k.control v (!s.banked || q == 0)).settleDisable h q

/-- A doorbell write is ignored (R52): DB_ERROR is set, with a DOORBELL entry (R449). -/
def badDoorbell (s : State) (h : HostId) (q : QueueId) (cq : Bool) (v : Dword) : State :=
  let what := if !(s.queue h q).enable then 2 else if cq then 1 else 0
  (s.updQueue h q fun k => { k with dbError := true }).logErrMs 0x0223 h.val
    [fld 12 1 q.val, fld 13 1 what, fld 16 4 v.toNat]

/-- SQ_TAIL (R51, R52). -/
def writeTail (s : State) (h : HostId) (q : QueueId) (v : Dword) : State :=
  let i := bits v.toNat 0 8
  if (s.queue h q).takesTail i then s.updQueue h q fun k => { k with sqTail := i } else s.badDoorbell h q false v

/-- CQ_HEAD (R52 to R54). -/
def writeHead (s : State) (h : HostId) (q : QueueId) (v : Dword) : State :=
  let i := bits v.toNat 0 8
  if (s.queue h q).takesHead i then s.updQueue h q fun k => { k with cqHead := i } else s.badDoorbell h q true v

/-- One dword of the doorbell block (R49). -/
def writeQueue (s : State) (h : HostId) (off : Nat) (v : Dword) : State :=
  if off < 0x220 then
    let q : QueueId := Fin.ofNat 4 ((off - 0x200) / 8)
    if off % 8 = 0 then s.writeTail h q v else s.writeHead h q v
  else if 0x240 ≤ off ∧ off < 0x2C0 then
    let q : QueueId := Fin.ofNat 4 ((off - 0x240) / 0x20)
    let on := (s.queue h q).enable
    let base (b : BitVec 64) (high : Bool) : BitVec 64 := putHalf b high v &&& ~~~ (0x3F : BitVec 64)
    match (off - 0x240) % 0x20 with
    | 0x00 => s.updQueue h q fun k => { k with sqBase := if on then k.sqBase else base k.sqBase false }
    | 0x04 => s.updQueue h q fun k => { k with sqBase := if on then k.sqBase else base k.sqBase true }
    | 0x08 => s.updQueue h q fun k => { k with cqBase := if on then k.cqBase else base k.cqBase false }
    | 0x0C => s.updQueue h q fun k => { k with cqBase := if on then k.cqBase else base k.cqBase true }
    | 0x10 => s.writeControl h q v
    | 0x14 => s.updQueue h q fun k => { k with
        configError := k.configError && !v.getLsbD 31, dbError := k.dbError && !v.getLsbD 30 }
    | _ => s
  else s

/-- FENCE_ACK from a FENCED host: its queues are empty, then it is RECOVERING (R44). -/
def fenceAck (s : State) (h : HostId) : State :=
  if s.hosts[h].st = .fenced then
    (s.updHost h fun r => { r with queues := r.queues.map Queue.emptied, st := .recovering }).raiseHost h
  else s

/-- MAILBOX_RING: the writer is recorded, then each source named is raised (R420). -/
def ring (s : State) (h : HostId) (v : Dword) : State :=
  if s.attached h then
    let named := (List.finRange 8).filter fun k => v.getLsbD k.val
    let s1 : State := { s with events := { s.events with
      from_ := named.foldl (fun f k => vset f k (some h)) s.events.from_ } }
    named.foldl (fun acc k => acc.raise ⟨88 + k.val, by omega⟩) s1
  else s

/-- One dword of the host block and the mailbox. -/
def writeHost (s : State) (h : HostId) (off : Nat) (v : Dword) : State :=
  if off = 0x104 then (if v.getLsbD 0 then s.fenceAck h else s)
  else if off = 0x108 then s.beat h
  else if off = 0x110 then s.ring h v
  else if 0x120 ≤ off ∧ off < 0x140 then
    (if s.attached h then
      { s with events := { s.events with data := vset s.events.data (Fin.ofNat 8 ((off - 0x120) / 4)) v } }
    else s)
  else s

/-! ### Events -/

/-- EVENT_ROUTE of a source: the steward's port writes it, and a write from another is logged (R413). A target that is
reserved or that the part lacks leaves the entry as it is. -/
def writeRoute (s : State) (h : HostId) (n : Fin 96) (v : Dword) : State :=
  if n.val < 16 then s
  else if !s.isSteward h then s.logErrMs 0x0224 h.val [fld 12 1 0, fld 16 4 (0x1000 + 4 * n.val)]
  else
    let t := bits v.toNat 8 3
    if s.part.neverAsserts n.val ∨ 4 < t ∨ (t < 4 ∧ s.part.ports ≤ t) then s
    else
      let r : Route := { enable := v.getLsbD 31, target := Fin.ofNat 5 t, vector := Fin.ofNat 32 (bits v.toNat 0 5) }
      { s with events := { s.events with routes := vset s.events.routes n r } }

/-- The vector on which a host gets a source. -/
def vectorOf (s : State) (h : HostId) (n : Fin 96) : Fin 32 :=
  if n.val < 16 then (s.queue h (Fin.ofNat 4 n.val)).vector else s.events.routes[n].vector

/-- A dword of a 96-bit register replaced. -/
def putWord (old : BitVec 96) (m : Fin 3) (v : Dword) : BitVec 96 :=
  (old &&& ~~~ ((BitVec.ofNat 96 0xFFFFFFFF) <<< (32 * m.val))) ||| (v.zeroExtend 96 <<< (32 * m.val))

/-- The event sources that the part has (R4). -/
def presentSources (s : State) : BitVec 96 :=
  (List.finRange 96).foldl (fun b n => if s.part.neverAsserts n.val then b else b ||| BitVec.twoPow 96 n.val) 0

/-- EVENT_MASK: a mask bit that is cleared while its status bit is set counts one raise at once (R416). The bits of sources that the
part lacks stay 0 (R4). -/
def writeMask (s : State) (h : HostId) (m : Fin 3) (v : Dword) : State :=
  let old := s.hosts[h].mask
  let new := putWord old m v &&& s.presentSources
  let s1 := s.updHost h fun r => { r with mask := new }
  ((List.finRange 96).filter fun n =>
      old.getLsbD n.val && !new.getLsbD n.val && s.hosts[h].status.getLsbD n.val).foldl
    (fun acc n => acc.countRaise h (acc.vectorOf h n)) s1

/-- One dword of the event steering block. -/
def writeEvents (s : State) (h : HostId) (off : Nat) (v : Dword) : State :=
  if off < 0x1180 then s.writeRoute h (Fin.ofNat 96 ((off - 0x1000) / 4)) v
  else if 0x1200 ≤ off ∧ off < 0x120C then
    s.updHost h fun r => { r with status := r.status &&& ~~~ (v.zeroExtend 96 <<< (8 * (off - 0x1200))) }
  else if 0x1210 ≤ off ∧ off < 0x121C then s.writeMask h (Fin.ofNat 3 ((off - 0x1210) / 4)) v
  else if 0x1300 ≤ off ∧ off < 0x1380 then
    s.updVec h (Fin.ofNat 32 ((off - 0x1300) / 4)) fun x =>
      { x with holdoff := bits v.toNat 16 10, count := bits v.toNat 0 8 }
  else s

/-- One dword of the MSI-X table: a pending message is sent when its vector is unmasked (R416). -/
def writeMsix (s : State) (h : HostId) (off : Nat) (v : Dword) : State :=
  if off < 0x8200 then
    let n : Fin 32 := Fin.ofNat 32 ((off - 0x8000) / 16)
    match (off - 0x8000) % 16 with
    | 0 => s.updVec h n fun x => { x with msgAddr := putHalf x.msgAddr false v }
    | 4 => s.updVec h n fun x => { x with msgAddr := putHalf x.msgAddr true v }
    | 8 => s.updVec h n fun x => { x with msgData := v }
    | _ =>
      let s1 := s.updVec h n fun x => { x with masked := v.getLsbD 0 }
      if !v.getLsbD 0 && s.hosts[h].vecs[n].pend then (s1.updVec h n fun x => { x with pend := false }).sendMsg h n
      else s1
  else s

/-! ### Mapping (R95, R96) -/

/-- The physical ranks of a channel that an APPLY counts as fitted (R86, R96, R290): those that were trained, retired ones among
them. -/
def applyRanks (s : State) (c : ChanId) : List RankId := s.tableRanks c

/-- Raster memory with every shadow in force, and the valid ranges that follow (R86, R96). -/
def appliedRaster (s : State) : Raster :=
  let r := s.raster
  let phys (c : Fin 2) : Vector (Option RankId) 4 :=
    if s.inUse c then assign (s.applyRanks c) (spareOf r.spareShadow r.single c) else r.phys[c]
  { r with mask := r.maskShadow, spare := r.spareShadow, phys := Vector.ofFn phys }

/-- The first condition of R96 that fails, or 0. -/
def applyRefusal (s : State) : Fin 4 :=
  if !s.rasterEmpty then 1
  else if spareBad s.raster.spareShadow s.chansInUse s.raster.single s.applyRanks then 2
  else if s.raster.alloc.any fun x => !s.appliedRaster.validAshlar x.1 then 3
  else 0

/-- A rank carries data or is the spare under new settings; a new spare enters power-down with its rows closed (R291, R303), and a
former one leaves it. DESIGN CHOICE: a RETIRED rank stays so, whatever number it is given (R303, log entry 118). -/
def applyRank (new : Raster) (c : ChanId) (s : State) (r : RankId) : State :=
  let k := s.chans[c].ranks[r]
  if k.st = .retired then s
  else if new.phys[c].toList.contains (some r) then
    (if k.st = .spare then s.useRank c r {} else s).updRank c r fun x =>
      { x with st := if x.st = .spare then .inService else x.st }
  else
    (if k.powerDown then s else (s.closeBoth c r {}).pdeRank c r).updRank c r fun x => { x with st := .spare }

/-- MAP_CONTROL.APPLY (R96). -/
def applyMap (s : State) : State :=
  match s.applyRefusal with
  | 0 =>
    let new := s.appliedRaster
    let s1 := s.chansInUse.foldl (fun acc c => (s.applyRanks c).foldl (applyRank new c) acc) s
    { s1 with raster := new }
  | r => s.updRaster fun x => { x with refused := true, reason := r }

/-- One dword of the mapping registers. -/
def writeMap (s : State) (off : Nat) (v : Dword) : State :=
  if off < 0x4418 then
    s.updRaster fun r => { r with maskShadow := vset r.maskShadow (Fin.ofNat 6 ((off - 0x4400) / 4)) (v.extractLsb' 0 17) }
  else if off = 0x4418 then
    s.updRaster fun r => { r with spareShadow := mergeFields r.spareShadow v (spareRules s.part) }
  else if off = 0x441C then
    let s1 := s.updRaster fun r => { r with refused := r.refused && !v.getLsbD 9 }
    if v.getLsbD 31 then s1.applyMap else s1
  else s

/-! ### KS shadows (R11) -/

/-- Load shadows. -/
def updShadow (s : State) (f : Ks → Ks) : State := { s with ks := { s.ks with shadow := f s.ks.shadow } }

/-- KEYSTONE, from the steward's port (R176). -/
def writeKeystone (s : State) : State :=
  match s.keyRefusal with
  | some d => s.refuseKey d
  | none => s.acceptKey none

/-- One dword of 0x4000 to 0x406F. -/
def writeCommit (s : State) (off : Nat) (v : Dword) : State :=
  match off with
  | 0x4000 => s.writeKeystone
  | 0x401C =>
    let l := bits v.toNat 0 9
    let f := bits v.toNat 16 9
    if 8 ≤ l ∧ l ≤ 256 ∧ f < l then s.updShadow fun k => { k with lookahead := BitVec.ofNat 32 (l + 2 ^ 16 * f) } else s
  | 0x4060 => s.updShadow fun k => { k with evtOut := vmod k.evtOut 0 fun o => mergeFields o v (evtRules s.part) }
  | 0x4064 => s.updShadow fun k => { k with evtOut := vmod k.evtOut 1 fun o => mergeFields o v (evtRules s.part) }
  | 0x4068 => { s with events := { s.events with
      latch := #v[s.events.latch[0] && !v.getLsbD 0, s.events.latch[1] && !v.getLsbD 1] } }
  | _ => s

/-- POOL_ALLOC (R221). -/
def writePool (s : State) (off : Nat) (v : Dword) : State :=
  if off = 0x4600 then
    s.updShadow fun k => { k with pool := mergeFields k.pool v poolRules }
  else s

/-- LINK_COUNTn (R255). -/
def writeLink (s : State) (off : Nat) (v : Dword) : State :=
  let n : LinkId := Fin.ofNat 32 ((off - 0x4800) / 4)
  if 0x4900 ≤ off ∧ n.val < s.part.links then
    s.updLink n fun l => { l with noData := bits v.toNat 16 16, aborted := bits v.toNat 0 16 }
  else s

/-- Web registers (R284). -/
def writeWeb (s : State) (off : Nat) (v : Dword) : State :=
  match off with
  | 0x4A18 => s.updShadow fun k => { k with webCtrl := mergeFields k.webCtrl v webRules }
  | 0x4A1C => s.updShadow fun k => { k with passF := v }
  | 0x4A20 => s.updShadow fun k => { k with passR := v }
  | 0x4A24 => s.updShadow fun k => { k with markCtrl := mergeFields k.markCtrl v markRules }
  | 0x4A28 => s.updShadow fun k => { k with markWin := v }
  | 0x4A34 => s.updWeb fun w => { w with
      skipped := bits v.toNat 16 16, slips := bits v.toNat 8 8, outside := bits v.toNat 0 8 }
  | 0x4A38 => s.updWeb fun w => { w with accepted := bits v.toNat 16 16, chatter := bits v.toNat 0 16 }
  | _ => s

/-- Change a channel whose fields are shown. -/
def updShown (s : State) (c : ChanId) (f : Chan → Chan) : State := if s.chanShown c then s.updChan c f else s

/-- DRAM service registers (R308). -/
def writeDram (s : State) (off : Nat) (v : Dword) : State :=
  match off with
  | 0x4B0C => s.updShadow fun k => { k with rfm := mergeFields k.rfm v rfmRules }
  | 0x4B10 | 0x4B14 => s.updShown (Fin.ofNat 2 (off / 4)) fun ch => { ch with
      replays := bits v.toNat 16 16, storms := bits v.toNat 8 8, mismatches := bits v.toNat 0 8 }
  | 0x4B18 => { s with sr := { s.sr with entries := bits v.toNat 16 16, aborts := bits v.toNat 0 16 } }
  | _ => s

/-- Arbitration registers (R327). -/
def writeArb (s : State) (off : Nat) (v : Dword) : State :=
  let h : HostId := Fin.ofNat 4 (off / 4)
  match off with
  | 0x4C00 => s.updShadow fun k => { k with class0 := keepBits k.class0 v s.classMask }
  | 0x4C04 => s.updShadow fun k => { k with class1 := v &&& 0x7777 }
  | 0x4C08 => s.updShadow fun k => { k with arbEnable := keepBits 0 v s.enableMask }
  | 0x4C0C | 0x4C10 =>
    let c : ChanId := if off = 0x4C0C then 0 else 1
    if c.val < s.part.channels then s.updArb c fun a => { a with preemptions := bits v.toNat 0 16 } else s
  | 0x4C20 | 0x4C24 | 0x4C28 | 0x4C2C =>
    if h.val < s.part.ports then
      s.updShadow fun k => { k with reg := vmod k.reg h fun o => mergeFields o v regRules }
    else s
  | 0x4C30 | 0x4C34 | 0x4C38 | 0x4C3C =>
    if h.val < s.part.ports then
      { s with buckets := vmod s.buckets h fun b => { b with passed := bits v.toNat 16 16 } }
    else s
  | _ => s

/-- Integrity registers (R341, R349, R358). -/
def writeInteg (s : State) (off : Nat) (v : Dword) : State :=
  match off with
  | 0x4D00 =>
    let s1 := s.updShadow fun k => { k with integ := mergeFields k.integ v integRules }
    { s1 with integTest := v.getLsbD 30 }
  | 0x4D04 => if v.getLsbD 31 then s.clearAll else s
  | 0x4D10 | 0x4D14 => s.updShown (Fin.ofNat 2 (off / 4)) fun ch => { ch with
      eccCorrected := bits v.toNat 16 16, eccUncorrectable := bits v.toNat 0 16 }
  | 0x4D18 => s.updShadow fun k => { k with pace := mergeFields k.pace v paceRules }
  | _ => s

/-- CLK_PLAN after a write (R381, R389). -/
def planWrite (k : ClkSet) (v : Dword) : ClkSet :=
  let n := v.toNat
  { memRate := if bits n 16 2 = 3 then k.memRate else Fin.ofNat 4 (bits n 16 2)
    coreDepth := if 10 < bits n 12 4 then k.coreDepth else Fin.ofNat 11 (bits n 12 4)
    coreMode := if bits n 10 2 = 3 then k.coreMode else Fin.ofNat 3 (bits n 10 2)
    memDepth := if 10 < bits n 6 4 then k.memDepth else Fin.ofNat 11 (bits n 6 4)
    memMode := if bits n 4 2 = 3 then k.memMode else Fin.ofNat 3 (bits n 4 2) }

/-- Clock registers (R382, R383, R389). -/
def writeClk (s : State) (off : Nat) (v : Dword) : State :=
  match off with
  | 0x4E04 => s.updClk fun k => { k with plan := planWrite k.plan v }
  | 0x4E08 =>
    let s1 := s.updClk fun k => { k with refused := k.refused && !v.getLsbD 0 }
    let s2 := if v.getLsbD 31 then s1.goChange 1 else s1
    if v.getLsbD 30 then s2.goChange 0 else s2
  | 0x4E10 => s.updShadow fun k => { k with clkout := vmod k.clkout 0 fun o => mergeFields o v clkoutRules }
  | 0x4E14 => s.updShadow fun k => { k with clkout := vmod k.clkout 1 fun o => mergeFields o v clkoutRules }
  | _ => s

/-! ### One dword -/

/-- A register of the steward block is written on the steward's port (R29). -/
def writeSteward (s : State) (off : Nat) (v : Dword) : State :=
  if off < 0x4400 then s.writeCommit off v
  else if off < 0x4600 then s.writeMap off v
  else if off < 0x4800 then s.writePool off v
  else if off < 0x4980 then s.writeLink off v
  else if off < 0x4B00 then s.writeWeb off v
  else if off < 0x4C00 then s.writeDram off v
  else if off < 0x4D00 then s.writeArb off v
  else if off < 0x4E00 then s.writeInteg off v
  else s.writeClk off v

/-- A write of one dword that the port takes (R9, R29, R43): a FENCED host reaches HOST_CONTROL alone. -/
def write32 (s : State) (h : HostId) (off : Nat) (v : Dword) : State :=
  if s.hosts[h].st = .fenced ∧ off ≠ 0x104 then s.countIgnored h
  else if off < 0x100 then s
  else if off < 0x200 then s.writeHost h off v
  else if off < 0x300 then s.writeQueue h off v
  else if off < 0x1000 then s
  else if off < 0x1400 then s.writeEvents h off v
  else if off < 0x4000 then s
  else if off < 0x8000 then (if s.isSteward h then s.writeSteward off v else s)
  else s.writeMsix h off v

/-! ### Accesses -/

/-- An access whose size or alignment BAR0 does not accept (R21). -/
def badAccess (s : State) (h : HostId) (write : Bool) (off size : Nat) : State :=
  let s1 := s.logErrMs 0x0222 h.val [fld 12 1 (if write then 1 else 0), fld 13 1 size, fld 16 4 off]
  if write then
    let s2 := if s.hosts[h].st = .fenced then s1.countIgnored h else s1
    s2.emit (.ack h)
  else s1.emit (.readData h 0xFFFFFFFF)

/-- Whether BAR0 accepts an access (R21). -/
def accepts (off size : Nat) : Bool := off % 4 == 0 && (size == 4 || size == 8)

/-- A read (R419): while CCK is gated it waits (R382). -/
def readBar (s : State) (h : HostId) (off : BitVec 16) (wide : Bool) : State :=
  s.request h fun t =>
    if !accepts off.toNat 4 then t.badAccess h false off.toNat (if wide then 8 else 4)
    else if t.coreRuns then t.readAccess h off.toNat wide
    else { t with reads := t.reads ++ [(h, off, wide)] }

/-- A write of 4 or 8 bytes: the low dword first (R9, R21). From a FENCED host a write of 8 bytes is one write, which counts once when
it is ignored; one that covers HOST_CONTROL acts on that dword alone (R43; DESIGN CHOICE, log entry 119). -/
def writeBar (s : State) (h : HostId) (off : BitVec 16) (wide : Bool) (v : BitVec 64) : State :=
  s.request h fun t =>
    if !accepts off.toNat 4 then t.badAccess h true off.toNat (if wide then 8 else 4)
    else if wide = false then t.write32 h off.toNat (v.extractLsb' 0 32)
    else if t.hosts[h].st = .fenced then
      (if off.toNat = 0x100 then t.write32 h 0x104 (v.extractLsb' 32 32) else t.write32 h off.toNat (v.extractLsb' 0 32))
    else (t.write32 h off.toNat (v.extractLsb' 0 32)).write32 h (off.toNat + 4) (v.extractLsb' 32 32)

/-- Answer the reads that have waited for CCK (R382). -/
def answerReads (s : State) : State :=
  if s.coreRuns then
    s.reads.foldl (fun acc x => acc.readAccess x.1 x.2.1.toNat x.2.2) { s with reads := [] }
  else s

end State

/-! ### Rows of the table -/

/-- SQ_TAIL (R52). -/
def execSqTail (h : HostId) (q : QueueId) (value : Dword) (s : State) : Host.Outcome State Fault Refusal :=
  .next (s.writeAs h fun t => t.writeTail h q value)

/-- CQ_HEAD (R52). -/
def execCqHead (h : HostId) (q : QueueId) (value : Dword) (s : State) : Host.Outcome State Fault Refusal :=
  .next (s.writeAs h fun t => t.writeHead h q value)

/-- QUEUE_ENABLE: a write of Q_CONTROL with ENABLE 1 (R50). -/
def execQueueEnable (h : HostId) (q : QueueId) (value : Dword) (s : State) : Host.Outcome State Fault Refusal :=
  .next (s.writeAs h fun t => t.writeControl h q (value ||| 0x80000000))

/-- QUEUE_DISABLE: a write of Q_CONTROL with ENABLE 0 (R50). -/
def execQueueDisable (h : HostId) (q : QueueId) (value : Dword) (s : State) : Host.Outcome State Fault Refusal :=
  .next (s.writeAs h fun t => t.writeControl h q (value &&& 0x7FFFFFFF))

/-- FENCE_ACK: a write of HOST_CONTROL (R44). -/
def execFenceAck (h : HostId) (value : Dword) (s : State) : Host.Outcome State Fault Refusal :=
  .next (s.request h fun t => if value.getLsbD 0 then t.fenceAck h else t)

/-- HEARTBEAT_REGISTER_WRITE (R39, R43). -/
def execHeartbeatRegisterWrite (h : HostId) (_value : Dword) (s : State) : Host.Outcome State Fault Refusal :=
  .next (s.writeAs h fun t => t.beat h)

/-- KEYSTONE_REGISTER_WRITE (R29, R176). -/
def execKeystoneRegisterWrite (h : HostId) (_value : Dword) (s : State) : Host.Outcome State Fault Refusal :=
  .next (s.writeAs h fun t => if t.isSteward h then t.writeKeystone else t)

/-- APPLY: a write of MAP_CONTROL with APPLY 1 (R96). -/
def execApply (h : HostId) (value : Dword) (s : State) : Host.Outcome State Fault Refusal :=
  .next (s.writeAs h fun t => if t.isSteward h then t.writeMap 0x441C (value ||| 0x80000000) else t)

/-- MAILBOX_RING (R420). -/
def execMailboxRing (h : HostId) (value : Dword) (s : State) : Host.Outcome State Fault Refusal :=
  .next (s.writeAs h fun t => t.ring h value)

/-- EVENT_ROUTE_WRITE (R413). -/
def execEventRouteWrite (h : HostId) (source : Fin 96) (value : Dword) (s : State) : Host.Outcome State Fault Refusal :=
  .next (s.writeAs h fun t => t.writeRoute h source value)

/-- EVENT_MASK_WRITE (R416). -/
def execEventMaskWrite (h : HostId) (reg : Fin 3) (value : Dword) (s : State) : Host.Outcome State Fault Refusal :=
  .next (s.writeAs h fun t => t.writeMask h reg value)

/-- CLEAR: a write of RANK_HEALTH with CLEAR 1 (R349). -/
def execClear (h : HostId) (_value : Dword) (s : State) : Host.Outcome State Fault Refusal :=
  .next (s.writeAs h fun t => if t.isSteward h then t.clearAll else t)

/-- GO_MEM: a write of CLK_CHANGE with GO_MEM 1 (R382). -/
def execGoMem (h : HostId) (value : Dword) (s : State) : Host.Outcome State Fault Refusal :=
  .next (s.writeAs h fun t => if t.isSteward h then t.writeClk 0x4E08 (value ||| 0x80000000) else t)

/-- GO_CORE: a write of CLK_CHANGE with GO_CORE 1 (R382). -/
def execGoCore (h : HostId) (value : Dword) (s : State) : Host.Outcome State Fault Refusal :=
  .next (s.writeAs h fun t => if t.isSteward h then t.writeClk 0x4E08 (value ||| 0x40000000) else t)

/-- REGISTER_PAIR_READ (R419). -/
def execRegisterPairRead (h : HostId) (offset : BitVec 16) (wide : Bool) (s : State) : Host.Outcome State Fault Refusal :=
  .next (s.readBar h offset wide)

/-- REGISTER_WRITE (R9). -/
def execRegisterWrite (h : HostId) (offset : BitVec 16) (wide : Bool) (value : BitVec 64) (s : State) :
    Host.Outcome State Fault Refusal :=
  .next (s.writeBar h offset wide value)

/-- BAR_ACCESS: an access that BAR0 accepts is none of these (R21). -/
def execBarAccess (h : HostId) (write : Bool) (offset : BitVec 16) (size : Nat) (s : State) :
    Host.Outcome State Fault Refusal :=
  .next (if State.accepts offset.toNat size then s else s.request h fun t => t.badAccess h write offset.toNat size)

/-- UNSUPPORTED_REQUEST (R21). -/
def execUnsupportedRequest (h : HostId) (_write : Bool) (_addr : BitVec 64) (s : State) :
    Host.Outcome State Fault Refusal :=
  .next (if s.portUp h then s.emit (.unsupported h) else s)

end Sys2Proof.Machine
end

