-- ==== Sys2Proof/Machine/EventsMgmt.lean ====
section
/-! DEFINITION. The timers of events (R417, R423), the EVT_OUT pins, and what the management sideband reads (R424). -/

namespace Sys2Proof.Machine

namespace State

/-- A vector's holdoff ends: raises that were gathered send one message and start it again (R417). A FENCED host gets no
message (R42). -/
def holdoffEnd (s : State) (h : HostId) (v : Fin 32) : State :=
  let x := s.hosts[h].vecs[v]
  match x.until_ with
  | none => s
  | some t =>
    if s.time < t then s
    else if x.gathered = 0 then s.updVec h v fun y => { y with until_ := none }
    else
      let next := if x.holdoff = 0 then none else some (s.time + x.holdoff * Config.usTau)
      let s1 := s.updVec h v fun y => { y with until_ := next, gathered := 0 }
      if s.hosts[h].st = .fenced then s1 else s1.sendMsg h v

/-- A pulse of 1 us on a pin ends (R423). -/
def pulseEnd (s : State) (k : Fin 2) : State :=
  match s.events.pulse[k] with
  | some t =>
    if t + Config.usTau ≤ s.time then { s with events := { s.events with pulse := vset s.events.pulse k none } } else s
  | none => s

/-- An EVT_OUT pin is asserted (R423): the table "EVT_OUT functions". -/
def pinAsserted (s : State) (k : Fin 2) : Bool :=
  match evtFunction s.ks.force.evtOut[k] with
  | 1 | 2 => s.events.latch[k]
  | 3 => !s.drainHalted
  | 4 => decide (s.floor ≠ 0) && decide (s.leadShown < s.floor)
  | 5 => s.webMoves
  | 6 => s.chanQuenched 0 || s.chanQuenched 1
  | 7 | 8 => s.events.pulse[k].isSome
  | 9 => s.chans[(0 : ChanId)].hot || s.chans[(1 : ChanId)].hot || s.power.dieWarn
  | _ => false

/-- What a management code reads (R424). -/
def mgmtRead (s : State) (code : Nat) : Nat :=
  match code with
  | 0x00 => 0x1F7B
  | 0x01 => s.part.deviceId.toNat
  | 0x02 => putBits 0 4 s.boot.stage
  | 0x03 => s.boot.cause
  | 0x04 => putBit 7 s.safeOff + putBit 6 s.boot.force + putBit 5 (s.domainOn 2) + putBit 4 s.role.holder.isSome +
      putBits 0 4 s.boot.fails
  | 0x05 => s.power.dieTemp.toNat
  | 0x06 => if (List.finRange 2).any fun c => s.trained c then max (s.hottest 0) (s.hottest 1) % 256 else 0xFF
  | 0x07 => s.boot.lastReset
  | _ => 0

end State

/-! ### Rows of the table -/

/-- HOLDOFF_EXPIRY. -/
def execHoldoffExpiry (h : HostId) (v : Fin 32) (s : State) : Host.Outcome State Fault Refusal := .next (s.holdoffEnd h v)

/-- PULSE_END. -/
def execPulseEnd (pin : Fin 2) (s : State) : Host.Outcome State Fault Refusal := .next (s.pulseEnd pin)

end Sys2Proof.Machine
end

