-- ==== Sys2Proof/Machine/Fetch.lean ====
section
/-! DEFINITION. Packets as the device fetches them (R55, R61), the data that the device reads from hosts (R22, R101), and the
tick: what happens while no command waits at the block's inputs. -/

namespace Sys2Proof.Machine

/-- The meaning of a command once it has started, by opcode (R67). Opcodes outside the table never start. -/
def bodyOf (op : Nat) : Cmd → State → State :=
  match op with
  | 0x00 => bodyNop
  | 0x01 => bodyIdentify
  | 0x02 => bodyGetLog
  | 0x03 => bodySetFeature
  | 0x04 => bodyGetFeature
  | 0x05 => bodyAttach
  | 0x06 => bodyDetach
  | 0x07 => bodyHeartbeat
  | 0x08 => bodyClaimSteward
  | 0x09 => bodyReleaseSteward
  | 0x0A => bodyFenceHost
  | 0x10 => bodyAllocAshlars
  | 0x11 => bodyFreeAshlars
  | 0x12 => bodyWriteRaw
  | 0x13 => bodyWriteCompress
  | 0x14 => bodyRead
  | 0x15 => bodyZero
  | 0x16 => bodySealStrip
  | 0x17 => bodyGetStripInfo
  | 0x18 => bodyDefineRawStrip
  | 0x19 => bodyFreeStrip
  | 0x20 => bodyLoadCourse
  | 0x21 => bodyKeystone
  | 0x22 => bodyPageQueue
  | 0x23 => bodyPageCancel
  | 0x24 => bodySetLookahead
  | 0x25 => bodyRun
  | 0x26 => bodyHaltDrain
  | 0x30 => bodyLinkConfig
  | 0x31 => bodyLinkTrain
  | 0x32 => bodyWebConfig
  | 0x33 => bodyFirePhase
  | 0x34 => bodyWaveBank
  | 0x35 => bodyLinkMsg
  | 0x40 => bodyRankRetire
  | 0x41 => bodyRankReinstate
  | 0x42 => bodyScrubConfig
  | 0x43 => bodyMigrateStatus
  | 0x44 => bodyRetrain
  | 0x45 => bodyPowerPolicy
  | 0x50 => bodyRawWrite
  | 0x51 => bodyRawRead
  | 0x52 => bodyEccInject
  | 0x53 => bodyQuenchDump
  | 0x54 => bodyQuenchRelease
  | 0x55 => bodySelfTest
  | 0x70 => bodyFwStage
  | 0x71 => bodyFwCommit
  | 0x72 => bodyResetDevice
  | _ => fun _ s => s

namespace State

/-! ### Host reads -/

/-- Bytes that a command's read requests ask for: all of its source, once it has begun to read it. -/
def readNeed (s : State) (c : Cmd) : Nat :=
  match c.prog with
  | .source n => n
  | .compress => if s.engineHolds c.id then c.sourceLen else 0
  | _ => 0

/-- A command of a host that has a read request outstanding. -/
def reading (s : State) (h : HostId) (id : Nat) : Option Cmd :=
  (s.findCmd id).filter fun c => c.iss.host == h && decide (c.buf.length < s.readNeed c)

/-- A command acts on its source: writes as it comes, the others when all of it has come (R101). -/
def sourced (s : State) (c : Cmd) : State :=
  if c.op = 0x12 ∨ c.op = 0x50 then (s.handOut c.id).progress c.id
  else if c.op = 0x13 then s.compressInput c.id
  else if c.buf.length < s.readNeed c then s
  else match c.op.toNat with
    | 0x20 => s.loadTable c
    | 0x22 => s.queuePages c
    | 0x35 => s.messageReady c
    | 0x70 => s.stage c
    | _ => s

/-- Good data for a read request comes in address order (R22, R101). -/
def hostData (s : State) (h : HostId) (id : Nat) (data : List Byte) : State :=
  match s.reading h id with
  | none => s
  | some c =>
    let d : Cmd := { c with buf := c.buf ++ data.take (s.readNeed c - c.buf.length) }
    (s.updCmd id fun _ => d).sourced d

/-- A command whose read request fails stops (R22): a compressor engine that held it is free. -/
def readFails (s : State) (h : HostId) (id : Nat) (a : Answer) : State :=
  match s.reading h id with
  | none => s
  | some _ =>
    match (List.finRange 8).find? fun n => s.comps[n].job = some id with
    | some n => (s.abort id a).engineFree n
    | none => (s.abort id a).settlePool

/-! ### The tick -/

/-- The oldest waiting command whose turn to start has come (R62, R63). -/
def nextStart (s : State) : Option Cmd := s.cmds.find? fun c => c.prog == .waiting && s.orderReady c

/-- The oldest started command that has been waiting and need not wait any more, or is to be refused. -/
def nextResume (s : State) : Option Cmd :=
  (s.cmds.filter fun c => c.prog == .held && ((s.waitCheck c).isSome || !s.mustWait c)).foldl
    (fun best c => match best with
      | none => some c
      | some b => if c.started < b.started then some c else some b) none

/-- A self test that waited for its engine runs when the engine holds no command (R129). -/
def dueTests (s : State) : State :=
  (List.finRange 8).foldl
    (fun acc n => match acc.comps[n].job, acc.comps[n].test with
      | none, some id => acc.testComp n id
      | _, _ => acc) s

/-- What the device does on its own as time passes: what the web loop's inputs have come to (R258 to R262, R276 to R279), replays that
the guard held (R299), tests and pool space that were waited for (R129, R223), messages to boards (R240), channels that move as they
must (R304), a keystone accepted while courses ran that run no more (R178). -/
def houseKeep (s : State) : State :=
  let s0 := (List.finRange 2).foldl (fun acc c => acc.replayOn c) (s.inCore webKeep)
  let s1 := s0.dueTests.settlePool
  let s2 := s1.partLinks.foldl (fun acc n => acc.serveMessages n) s1
  let s3 := if s2.cmds.any fun c => c.prog == .held && s2.needsDram c && !s2.dramServes c then s2.wantDram else s2
  let s4 := if s3.coursesRun then s3 else (s3.takeForce s3.seq.number).settleHalted
  s4.steer

/-- A tick: reads that waited for CCK are answered; else the next command starts, or goes on; else time passes by one tau. -/
def tick (s : State) : State :=
  if s.reads ≠ [] ∧ s.coreRuns = true then s.answerReads
  else match if s.coreRuns then s.nextStart else none with
    | some c => s.start (bodyOf c.op.toNat) c
    | none => match if s.coreRuns then s.nextResume else none with
      | some c => s.resume (bodyOf c.op.toNat) c.id
      | none =>
        let s1 := s.houseKeep
        let now := s1.time + 1
        { s1 with time := now, sr := { s1.sr with idleFrom := if s1.idleNow then s1.sr.idleFrom else now } }

end State

/-! ### Rows of the table -/

/-- PACKET_FETCH: a packet of any opcode, as it lies in the submission ring (R55, R61). -/
def execPacketFetch (h : HostId) (q : QueueId) (packet : BitVec 512) (s : State) : Host.Outcome State Fault Refusal :=
  .next (s.submit (readPacket h q packet).1 (bodyOf (readPacket h q packet).1.toNat) (readPacket h q packet).2)

/-- HOST_READ_COMPLETION. -/
def execHostReadCompletion (h : HostId) (id : Nat) (data : List Byte) (s : State) : Host.Outcome State Fault Refusal :=
  .next (s.hostData h id data)

/-- HOST_DATA_BAD (R22). -/
def execHostDataBad (h : HostId) (id : Nat) (s : State) : Host.Outcome State Fault Refusal :=
  .next (s.readFails h id { status := .aborted, detail := 0x13 })

/-- COMPLETION_TIMEOUT (R22). -/
def execCompletionTimeout (h : HostId) (id : Nat) (s : State) : Host.Outcome State Fault Refusal :=
  .next (s.readFails h id { status := .timeout })

end Sys2Proof.Machine
end

