-- ==== Sys2Proof/Machine/Dispatch.lean ====
section
/-! DEFINITION. One arm per command: each calls the command's meaning. -/

namespace Sys2Proof.Machine

/-- The effect of a command on everything but the queue of commands. -/
def exec (i : Instr) (s : State) : Host.Outcome State Fault Refusal :=
  match i with
  | .nop c => Sys2Proof.Machine.execNop c s
  | .identify c => Sys2Proof.Machine.execIdentify c s
  | .getLog c => Sys2Proof.Machine.execGetLog c s
  | .setFeature c => Sys2Proof.Machine.execSetFeature c s
  | .getFeature c => Sys2Proof.Machine.execGetFeature c s
  | .attach c => Sys2Proof.Machine.execAttach c s
  | .detach c => Sys2Proof.Machine.execDetach c s
  | .heartbeat c => Sys2Proof.Machine.execHeartbeat c s
  | .claimSteward c => Sys2Proof.Machine.execClaimSteward c s
  | .releaseSteward c => Sys2Proof.Machine.execReleaseSteward c s
  | .fenceHost c => Sys2Proof.Machine.execFenceHost c s
  | .allocAshlars c => Sys2Proof.Machine.execAllocAshlars c s
  | .freeAshlars c => Sys2Proof.Machine.execFreeAshlars c s
  | .writeRaw c => Sys2Proof.Machine.execWriteRaw c s
  | .writeCompress c => Sys2Proof.Machine.execWriteCompress c s
  | .read c => Sys2Proof.Machine.execRead c s
  | .zero c => Sys2Proof.Machine.execZero c s
  | .sealStrip c => Sys2Proof.Machine.execSealStrip c s
  | .getStripInfo c => Sys2Proof.Machine.execGetStripInfo c s
  | .defineRawStrip c => Sys2Proof.Machine.execDefineRawStrip c s
  | .freeStrip c => Sys2Proof.Machine.execFreeStrip c s
  | .loadCourse c => Sys2Proof.Machine.execLoadCourse c s
  | .keystone c => Sys2Proof.Machine.execKeystone c s
  | .pageQueue c => Sys2Proof.Machine.execPageQueue c s
  | .pageCancel c => Sys2Proof.Machine.execPageCancel c s
  | .setLookahead c => Sys2Proof.Machine.execSetLookahead c s
  | .run c => Sys2Proof.Machine.execRun c s
  | .haltDrain c => Sys2Proof.Machine.execHaltDrain c s
  | .linkConfig c => Sys2Proof.Machine.execLinkConfig c s
  | .linkTrain c => Sys2Proof.Machine.execLinkTrain c s
  | .webConfig c => Sys2Proof.Machine.execWebConfig c s
  | .firePhase c => Sys2Proof.Machine.execFirePhase c s
  | .waveBank c => Sys2Proof.Machine.execWaveBank c s
  | .linkMsg c => Sys2Proof.Machine.execLinkMsg c s
  | .rankRetire c => Sys2Proof.Machine.execRankRetire c s
  | .rankReinstate c => Sys2Proof.Machine.execRankReinstate c s
  | .scrubConfig c => Sys2Proof.Machine.execScrubConfig c s
  | .migrateStatus c => Sys2Proof.Machine.execMigrateStatus c s
  | .retrain c => Sys2Proof.Machine.execRetrain c s
  | .powerPolicy c => Sys2Proof.Machine.execPowerPolicy c s
  | .rawWrite c => Sys2Proof.Machine.execRawWrite c s
  | .rawRead c => Sys2Proof.Machine.execRawRead c s
  | .eccInject c => Sys2Proof.Machine.execEccInject c s
  | .quenchDump c => Sys2Proof.Machine.execQuenchDump c s
  | .quenchRelease c => Sys2Proof.Machine.execQuenchRelease c s
  | .selfTest c => Sys2Proof.Machine.execSelfTest c s
  | .fwStage c => Sys2Proof.Machine.execFwStage c s
  | .fwCommit c => Sys2Proof.Machine.execFwCommit c s
  | .resetDevice c => Sys2Proof.Machine.execResetDevice c s
  | .packetFetch h q packet => Sys2Proof.Machine.execPacketFetch h q packet s
  | .sqTail h q value => Sys2Proof.Machine.execSqTail h q value s
  | .cqHead h q value => Sys2Proof.Machine.execCqHead h q value s
  | .queueEnable h q value => Sys2Proof.Machine.execQueueEnable h q value s
  | .queueDisable h q value => Sys2Proof.Machine.execQueueDisable h q value s
  | .fenceAck h value => Sys2Proof.Machine.execFenceAck h value s
  | .heartbeatRegisterWrite h value => Sys2Proof.Machine.execHeartbeatRegisterWrite h value s
  | .keystoneRegisterWrite h value => Sys2Proof.Machine.execKeystoneRegisterWrite h value s
  | .apply h value => Sys2Proof.Machine.execApply h value s
  | .mailboxRing h value => Sys2Proof.Machine.execMailboxRing h value s
  | .eventRouteWrite h source value => Sys2Proof.Machine.execEventRouteWrite h source value s
  | .eventMaskWrite h reg value => Sys2Proof.Machine.execEventMaskWrite h reg value s
  | .clear h value => Sys2Proof.Machine.execClear h value s
  | .goMem h value => Sys2Proof.Machine.execGoMem h value s
  | .goCore h value => Sys2Proof.Machine.execGoCore h value s
  | .registerPairRead h offset wide => Sys2Proof.Machine.execRegisterPairRead h offset wide s
  | .registerWrite h offset wide value => Sys2Proof.Machine.execRegisterWrite h offset wide value s
  | .barAccess h write offset size => Sys2Proof.Machine.execBarAccess h write offset size s
  | .unsupportedRequest h write addr => Sys2Proof.Machine.execUnsupportedRequest h write addr s
  | .portReset h kind => Sys2Proof.Machine.execPortReset h kind s
  | .portLinkUp h => Sys2Proof.Machine.execPortLinkUp h s
  | .hostDataBad h id => Sys2Proof.Machine.execHostDataBad h id s
  | .completionTimeout h id => Sys2Proof.Machine.execCompletionTimeout h id s
  | .hbTimeout h => Sys2Proof.Machine.execHbTimeout h s
  | .heartbeatExpiry h => Sys2Proof.Machine.execHeartbeatExpiry h s
  | .transferComplete c staging => Sys2Proof.Machine.execTransferComplete c staging s
  | .fillComplete ashlar => Sys2Proof.Machine.execFillComplete ashlar s
  | .compressorDispatch n stream bits => Sys2Proof.Machine.execCompressorDispatch n stream bits s
  | .writeCompressDone n => Sys2Proof.Machine.execWriteCompressDone n s
  | .compressorFault n cause addr => Sys2Proof.Machine.execCompressorFault n cause addr s
  | .courseBoundary bad => Sys2Proof.Machine.execCourseBoundary bad s
  | .fetchEntry c idx => Sys2Proof.Machine.execFetchEntry c idx s
  | .refsb c idx => Sys2Proof.Machine.execRefsb c idx s
  | .mitig c idx => Sys2Proof.Machine.execMitig c idx s
  | .zqcal c idx => Sys2Proof.Machine.execZqcal c idx s
  | .temperPause c idx r => Sys2Proof.Machine.execTemperPause c idx r s
  | .stallLimit c idx => Sys2Proof.Machine.execStallLimit c idx s
  | .refreshCreditTimer c r u b => Sys2Proof.Machine.execRefreshCreditTimer c r u b s
  | .forcedRefresh c r u b => Sys2Proof.Machine.execForcedRefresh c r u b s
  | .forcedRfm c r u b => Sys2Proof.Machine.execForcedRfm c r u b s
  | .rowClose c u r bg b => Sys2Proof.Machine.execRowClose c u r bg b s
  | .powerDownEntry c r => Sys2Proof.Machine.execPowerDownEntry c r s
  | .selfRefreshEntry => Sys2Proof.Machine.execSelfRefreshEntry s
  | .selfRefreshExit => Sys2Proof.Machine.execSelfRefreshExit s
  | .writeCrcAlert c u window => Sys2Proof.Machine.execWriteCrcAlert c u window s
  | .stormRetrainDone c u => Sys2Proof.Machine.execStormRetrainDone c u s
  | .arbiterDecision c => Sys2Proof.Machine.execArbiterDecision c s
  | .preemption c issued => Sys2Proof.Machine.execPreemption c issued s
  | .tokenRefill => Sys2Proof.Machine.execTokenRefill s
  | .scrubPassStart c => Sys2Proof.Machine.execScrubPassStart c s
  | .scrubTransfer c => Sys2Proof.Machine.execScrubTransfer c s
  | .scrubPassComplete c => Sys2Proof.Machine.execScrubPassComplete c s
  | .healthIntervalEnd c r kind => Sys2Proof.Machine.execHealthIntervalEnd c r kind s
  | .migrationTransfer c => Sys2Proof.Machine.execMigrationTransfer c s
  | .migrationCutover c => Sys2Proof.Machine.execMigrationCutover c s
  | .decodeLineComplete n fault => Sys2Proof.Machine.execDecodeLineComplete n fault s
  | .loopUpdate => Sys2Proof.Machine.execLoopUpdate s
  | .encoderCount a b => Sys2Proof.Machine.execEncoderCount a b s
  | .webLockChange => Sys2Proof.Machine.execWebLockChange s
  | .encoderLost cause => Sys2Proof.Machine.execEncoderLost cause s
  | .encoderRebase => Sys2Proof.Machine.execEncoderRebase s
  | .coastLimit => Sys2Proof.Machine.execCoastLimit s
  | .indexSlip => Sys2Proof.Machine.execIndexSlip s
  | .markSeen rising held => Sys2Proof.Machine.execMarkSeen rising held s
  | .pageBoundary page => Sys2Proof.Machine.execPageBoundary page s
  | .fireMarker n => Sys2Proof.Machine.execFireMarker n s
  | .fireInstant n => Sys2Proof.Machine.execFireInstant n s
  | .lineFrame n ue => Sys2Proof.Machine.execLineFrame n ue s
  | .noData n => Sys2Proof.Machine.execNoData n s
  | .echoTracking n => Sys2Proof.Machine.execEchoTracking n s
  | .echoReply n f roundTrip => Sys2Proof.Machine.execEchoReply n f roundTrip s
  | .statusFrame n f => Sys2Proof.Machine.execStatusFrame n f s
  | .messageFrame n f => Sys2Proof.Machine.execMessageFrame n f s
  | .ackFrame n f => Sys2Proof.Machine.execAckFrame n f s
  | .identFrame n f => Sys2Proof.Machine.execIdentFrame n f s
  | .testFrame n f => Sys2Proof.Machine.execTestFrame n f s
  | .trainingStepTimeout n => Sys2Proof.Machine.execTrainingStepTimeout n s
  | .messageGapTimeout n => Sys2Proof.Machine.execMessageGapTimeout n s
  | .ackTimeout n => Sys2Proof.Machine.execAckTimeout n s
  | .lossOfSignal n held => Sys2Proof.Machine.execLossOfSignal n held s
  | .codeErrors n span => Sys2Proof.Machine.execCodeErrors n span s
  | .statusTimeout n => Sys2Proof.Machine.execStatusTimeout n s
  | .refLost periods => Sys2Proof.Machine.execRefLost periods s
  | .refPresent periods => Sys2Proof.Machine.execRefPresent periods s
  | .lockWindow l ppm monitor => Sys2Proof.Machine.execLockWindow l ppm monitor s
  | .coastTrust l => Sys2Proof.Machine.execCoastTrust l s
  | .monitorCalibration => Sys2Proof.Machine.execMonitorCalibration s
  | .freqChangeTimeout l => Sys2Proof.Machine.execFreqChangeTimeout l s
  | .loopLockTimeout l => Sys2Proof.Machine.execLoopLockTimeout l s
  | .domainSwitch d => Sys2Proof.Machine.execDomainSwitch d s
  | .powerOnReset rise refSel => Sys2Proof.Machine.execPowerOnReset rise refSel s
  | .sysRstN low => Sys2Proof.Machine.execSysRstN low s
  | .trstN => Sys2Proof.Machine.execTrstN s
  | .deviceReset => Sys2Proof.Machine.execDeviceReset s
  | .bootStart b => Sys2Proof.Machine.execBootStart b s
  | .bootWatchdog => Sys2Proof.Machine.execBootWatchdog s
  | .trap => Sys2Proof.Machine.execTrap s
  | .failCountClear => Sys2Proof.Machine.execFailCountClear s
  | .supplyWarning rail => Sys2Proof.Machine.execSupplyWarning rail s
  | .supplyStop rail low => Sys2Proof.Machine.execSupplyStop rail low s
  | .supplyRecovered rail => Sys2Proof.Machine.execSupplyRecovered rail s
  | .dieWarning temp => Sys2Proof.Machine.execDieWarning temp s
  | .thermalStop temp => Sys2Proof.Machine.execThermalStop temp s
  | .holdoffExpiry h v => Sys2Proof.Machine.execHoldoffExpiry h v s
  | .pulseEnd pin => Sys2Proof.Machine.execPulseEnd pin s
  | .arm value => Sys2Proof.Machine.execArm value s
  | .mgmtReset => Sys2Proof.Machine.execMgmtReset s
  | .mgmtForceBanked => Sys2Proof.Machine.execMgmtForceBanked s
  | .mgmtClearForce => Sys2Proof.Machine.execMgmtClearForce s
  | .mgmtHostOn => Sys2Proof.Machine.execMgmtHostOn s
  | .mgmtHostOff => Sys2Proof.Machine.execMgmtHostOff s
  | .mgmtShutdown => Sys2Proof.Machine.execMgmtShutdown s
  | .commaAlignment n symbols => Sys2Proof.Machine.execCommaAlignment n symbols s
  | .measureEcho n => Sys2Proof.Machine.execMeasureEcho n s
  | .invalidReturnFrame n => Sys2Proof.Machine.execInvalidReturnFrame n s
  | .rankTrainingDone c r result => Sys2Proof.Machine.execRankTrainingDone c r result s
  | .selfRefreshEntered c => Sys2Proof.Machine.execSelfRefreshEntered c s
  | .dieWarningRearm temp => Sys2Proof.Machine.execDieWarningRearm temp s
  | .indexFailsafe => Sys2Proof.Machine.execIndexFailsafe s
  | .hostReadCompletion h id data => Sys2Proof.Machine.execHostReadCompletion h id data s

end Sys2Proof.Machine
end

