-- ==== Sys2Proof/Machine/Pins.lean ====
section
/-! DEFINITION. What the pins carry (R13, R386, R393, R395, R423): a function of the state for each group of the table "Pin states". A
reset is over within a step, so the column of the table for the time of a reset is that of no state. -/

namespace Sys2Proof.Machine

/-- The groups of pins of R395. -/
inductive PinGroup where
  | pcie (h : HostId)
  | funil (n : LinkId)
  | dramReset (c : ChanId)
  | dramSignals (c : ChanId)
  | encoder
  | mgmt
  | spi
  | clkout (k : Fin 2)
  | evtOut (k : Fin 2)
  | tdo
deriving DecidableEq, Repr

/-- What a group of pins does. -/
inductive PinState where
  /-- high impedance, or undriven -/
  | undriven
  /-- an electrically idle PCIe transmitter -/
  | idle
  /-- PCIe link training, with configuration requests to be retried -/
  | training
  | driven
  /-- driven low, or held low -/
  | low
  /-- the holds of self-refresh: RESET_n high, CS_n low -/
  | resting
  | released
  | asserted
  | received
  | served
  /-- a clock of so many Hz -/
  | clock (hz : Nat)
deriving DecidableEq, Repr

namespace State

/-- The device is at READY or RUNNING. -/
def ready (s : State) : Bool := s.boot.stage == 6 || s.boot.stage == 7

/-- PCIe transmitters: in banked mode the first port to link alone (R393, R395, R405). -/
def pciePin (s : State) (h : HostId) : PinState :=
  if s.boot.stage = 0 ∨ s.part.ports ≤ h.val then .idle
  else if s.starting then .training
  else if s.domainOn 2 && s.portMayLink h then .driven else .idle

/-- Funil transmitters: driven while a link of a powered domain is neither ABSENT nor DISABLED (R251, R395). -/
def funilPin (s : State) (n : LinkId) : PinState :=
  if s.ready && s.domainOn (linkDomain n) && s.links[n].st != .absent && s.links[n].st != .disabled then .driven else .undriven

/-- RESET_n of the DRAM of a channel: low until DRAM_TRAIN, but after a reset that keeps raster memory; low in banked mode, and for
good on a channel that is not used (R287, R395, R405). -/
def dramResetPin (s : State) (c : ChanId) : PinState :=
  if s.resting c then .resting else if s.ready && s.trained c then .driven else .low

/-- Clock, command, data and strobe pins of the DRAM of a channel (R393, R395). -/
def dramPin (s : State) (c : ChanId) : PinState :=
  if s.resting c then .resting else if s.ready && s.trained c then .driven else .undriven

/-- What a group of pins does (R395). -/
def pin (s : State) : PinGroup → PinState
  | .pcie h => s.pciePin h
  | .funil n => s.funilPin n
  | .dramReset c => s.dramResetPin c
  | .dramSignals c => s.dramPin c
  | .encoder => if s.ready then .received else .undriven
  | .mgmt => if s.boot.stage = 0 then .undriven else .served
  | .spi =>
    if s.boot.stage = 0 then .undriven
    else if s.starting || s.cmds.any fun c => c.isStarted && (c.op == 0x70 || c.op == 0x71) then .driven else .undriven
  | .clkout k => match if s.ready then s.clkoutNow k else none with
    | some hz => .clock hz
    | none => if s.ready && (clkoutHz s.clk.refSel s.ks.force.clkout[k]).isSome then .low else .undriven
  | .evtOut k => if s.ready && s.pinAsserted k then .asserted else .released
  | .tdo => .undriven

end State

end Sys2Proof.Machine
end

