-- ==== Sys2Proof/Safety.lean ====
section
/-! DEFINITION. What claims are stated in: a packet that is fetched and runs at once, its answer, the requests that a port
takes, and the invariants of a sound state. -/

namespace Sys2Proof.Machine

namespace State

/-! ### A packet that runs at once -/

/-- The command that a packet becomes once it has started (R61 to R63). -/
def issued (s : State) (op : Byte) (i : Issue) : Cmd :=
  { id := s.nextId, op := op, iss := i, prog := .held, started := s.nextId + 1 }

/-- The state once a packet has been fetched; a HEARTBEAT has counted (R39, R51, R61). -/
def taken (s : State) (op : Byte) (i : Issue) : State :=
  if op = 0x07 then (s.fetched op i).beat i.host else s.fetched op i

/-- The state once a packet's command is in flight with so much progress. -/
def under (s : State) (op : Byte) (i : Issue) (p : Prog) : State :=
  { s.taken op i with cmds := s.cmds ++ [{ s.issued op i with prog := p }], nextId := s.nextId + 2 }

/-- The state in which a packet's own meaning runs. -/
def begun (s : State) (op : Byte) (i : Issue) : State := s.under op i .event

/-- A packet at the head of its queue is fetched now, passes the CRC checks and those of R65, its turn has come by R62 and
R63, and nothing keeps its command waiting. -/
def runs (s : State) (op : Byte) (i : Issue) : Bool :=
  s.canFetch i.host i.queue && (crcError s op i).isNone && s.cmds.all (fun c => decide (c.id < s.nextId)) &&
    (s.taken op i).orderReady (s.mkCmd op i) && ((s.taken op i).checkCmd (s.mkCmd op i)).isNone &&
    (((s.taken op i).stripCheck (s.mkCmd op i)).or ((s.taken op i).dramCheck (s.mkCmd op i))).isNone &&
    ((s.under op i .held).waitCheck (s.issued op i)).isNone && !(s.under op i .held).mustWait (s.issued op i)

/-! ### Answers -/

/-- An output put out between two states. -/
def Sent (s t : State) (o : Out) : Prop := ∃ xs, t.out = xs ++ s.out ∧ o ∈ xs

/-- The completion entry of a packet fetched in a state, with its place in the ring (R53, R59). -/
def entryOf (s : State) (i : Issue) (a : Answer) : Out :=
  let k := s.queue i.host i.queue
  .completion i.host i.queue k.cqTail (completionEntry i.tag a k.phase i.queue ((k.sqHead + 1) % k.size))

/-- The packet fetched in a state has completed with an answer: its entry has been put out, its command is in flight no
more, and its queue has moved past the packet and its completion (R51, R53). -/
def Answered (s t : State) (i : Issue) (a : Answer) : Prop :=
  s.Sent t (s.entryOf i a) ∧ (∀ c ∈ t.cmds, c.id ≠ s.nextId) ∧
    let k := s.queue i.host i.queue
    let k' := t.queue i.host i.queue
    k'.sqHead = (k.sqHead + 1) % k.size ∧ k'.cqTail = k.advance.cqTail ∧ k'.phase = k.advance.phase

/-! ### Frames -/

/-- Nothing but the session has changed: queues, status bits and vectors of hosts, the event registers, the commands in
flight, and the outputs, which have only grown. -/
def SessionOnly (s t : State) : Prop :=
  t = { s with hosts := t.hosts, events := t.events, cmds := t.cmds, nextId := t.nextId, out := t.out } ∧
    (∀ k : HostId, t.hosts[k] = { s.hosts[k] with
      queues := t.hosts[k].queues, turn := t.hosts[k].turn, status := t.hosts[k].status, vecs := t.hosts[k].vecs }) ∧
    ∃ o, t.out = o ++ s.out

/-- A packet's command is in flight with so much progress, and nothing but the session has changed: it waits for an event of
its own, such as data from its host. -/
def Underway (s t : State) (op : Byte) (i : Issue) (p : Prog) : Prop :=
  t.cmds = s.cmds ++ [{ s.issued op i with prog := p }] ∧ s.SessionOnly t

/-- Nothing but the session, the fills under way and what requesters present to the arbiters, with what waits behind it, has changed:
no byte of raster memory has, and no map bit. -/
def MovesOnly (s t : State) : Prop :=
  t = { s with hosts := t.hosts, events := t.events, cmds := t.cmds, nextId := t.nextId, out := t.out
               raster := { s.raster with filling := t.raster.filling }, chans := t.chans
               writeback := t.writeback } ∧
    (∀ k : HostId, t.hosts[k] = { s.hosts[k] with
      queues := t.hosts[k].queues, turn := t.hosts[k].turn, status := t.hosts[k].status, vecs := t.hosts[k].vecs }) ∧
    (∀ k : ChanId, t.chans[k] = { s.chans[k] with arb := t.chans[k].arb }) ∧ ∃ o, t.out = o ++ s.out

/-- Nothing but what raising sources does has changed: status bits and vectors of hosts, the event registers, and the
outputs, which have only grown. -/
def RaisedOnly (s t : State) : Prop :=
  t = { s with hosts := t.hosts, events := t.events, out := t.out } ∧
    (∀ k : HostId, t.hosts[k] = { s.hosts[k] with status := t.hosts[k].status, vecs := t.hosts[k].vecs }) ∧
    ∃ o, t.out = o ++ s.out

/-- Nothing of the DRAM channels has changed but which entries of the course have still to act: a halt leaves its FETCH entries
out (R189). -/
def DueOnly (s t : State) : Prop := ∀ c : ChanId, t.chans[c] = { s.chans[c] with due := t.chans[c].due }

/-- Nothing outside the drain has changed: what may have is the web loop, the links, the sequencer with its pages, decoder
engines, the session, the logs and the count of free values. -/
def DrainOnly (s t : State) : Prop :=
  t = { s with hosts := t.hosts, events := t.events, cmds := t.cmds, out := t.out, seq := t.seq, web := t.web
               links := t.links, engines := t.engines, logs := t.logs, free := t.free, chans := t.chans } ∧
    s.DueOnly t ∧
    (∀ k : HostId, t.hosts[k] = { s.hosts[k] with
      queues := t.hosts[k].queues, status := t.hosts[k].status, vecs := t.hosts[k].vecs }) ∧ ∃ o, t.out = o ++ s.out

/-- Nothing but one link, what raising sources does, and the logs has changed. -/
def LinkOnly (s t : State) (n : LinkId) : Prop :=
  t = { s with hosts := t.hosts, events := t.events, out := t.out, links := t.links, logs := t.logs } ∧
    (∀ m, m ≠ n → t.links[m] = s.links[m]) ∧ ∃ o, t.out = o ++ s.out

/-- The frame that a link sends next: its header, its payload and its CRC (R231, R232). -/
def frameOf (s : State) (n : LinkId) (ftype flags len line : Nat) (page : BitVec 16) (pageLine : Nat)
    (payload : List Byte) : Out :=
  let h := frameHeader n ftype flags len line page s.links[n].seq pageLine
  .frame n h payload (crc32 (headerBytes h ++ payload))

/-- No stored codeword has changed but those of the bursts at some addresses. -/
def WritesOnly (s t : State) (bursts : List Nat) : Prop :=
  ∀ w, (∀ a ∈ bursts, w < a / 8 ∨ a / 8 + 8 ≤ w) → readWord t.raster.dram w = readWord s.raster.dram w

/-- Bursts that the WRITE_RAW and ZERO commands in flight have handed out and still to write: a command that is stopped writes
those below the point at which it stops (R101). -/
def openWrites (s : State) : List Nat :=
  (s.cmds.filter fun c => c.op == 0x12 || c.op == 0x15).flatMap fun c => (c.todo ++ s.presentedBursts c.id).map (·.addr)

/-! ### Register accesses -/

/-- Requests of a host reach the registers of its port: the port is up and in D0, and hosts are served (R19, R24, R400). -/
def reachesPort (s : State) (h : HostId) : Bool := s.portUp h && s.serves && !s.hosts[h].pci.d3hot

/-- A port takes a register write of its host: it reaches the registers, and the host is not FENCED (R43). -/
def takesWrite (s : State) (h : HostId) : Bool := s.reachesPort h && s.hosts[h].st != .fenced

/-! ### Sound states -/

/-- Stored codewords are in the canonical form of the memory. -/
def CanonicalMemory (s : State) : Prop := Memory.wf s.raster.dram

/-- Every command in flight has a number below the next one, and no two have the same. -/
def FreshNumbers (s : State) : Prop := (∀ c ∈ s.cmds, c.id < s.nextId) ∧ s.cmds.Pairwise fun a b => a.id ≠ b.id

end State

end Sys2Proof.Machine
end

