-- ==== Sys2Proof/Certificates/Slice0/Obligations.lean ====
section
/-! DEFINITION. The statements about the model. -/

open Sys2Proof Sys2Proof.Machine

/-! ### Steps, reset, invariants -/

/-- A step takes the command at the front of the queue and is its effect on the state with the rest of the queue. -/
def Obligations.StepTakesFrontCommand : Prop :=
  ∀ (s : State) (c : Instr) (rest : List Instr), s.pending = c :: rest → step s = exec c { s with pending := rest }

/-- The model's choice (log entry 2): with no command waiting a step is a tick. Reads that wait for CCK are answered; else the
oldest command whose turn has come starts; else one that was held and need not wait goes on; else time passes by one tau. -/
def Obligations.EmptyQueueTicks : Prop :=
  ∀ s : State, s.pending = [] →
    (s.reads ≠ [] → s.coreRuns = true → step s = .next s.answerReads) ∧
    (s.reads = [] → s.coreRuns = true → ∀ c, s.nextStart = some c → step s = .next (s.start (bodyOf c.op.toNat) c)) ∧
    (s.reads = [] → s.coreRuns = true → s.nextStart = none → ∀ c, s.nextResume = some c →
      step s = .next (s.resume (bodyOf c.op.toNat) c.id)) ∧
    (s.reads = [] → s.nextStart = none → s.nextResume = none →
      ∃ t, step s = .next t ∧ t.time = s.houseKeep.time + 1 ∧
        t = { s.houseKeep with time := t.time, sr := { s.houseKeep.sr with idleFrom := t.sr.idleFrom } })

/-- After power-on reset the boot stage is POR, every port is DOWN, only AON is powered, no host is steward, no partition is
owned, partition h is reserved for host h, no queue is in service, no source is masked or held, every route leads to the
steward on vector 31, every channel is UNTRAINED, every link is DISABLED, every loop is OFF, the drain is HALTED and no command
waits or is in flight. -/
def Obligations.ResetState : Prop :=
  let s := State.reset
  s.pending = [] ∧ s.cmds = [] ∧ s.boot.stage = 0 ∧ s.power.on = 0x01 ∧ s.role.holder = none ∧
    (∀ h : HostId, s.hosts[h].st = .down ∧ s.hosts[h].mask = 0 ∧ s.hosts[h].status = 0 ∧
      ∀ q : QueueId, (s.queue h q).enable = false ∧ (s.queue h q).vector.val = q.val ∧ (s.queue h q).phase = true) ∧
    (∀ p : Fin 16, s.parts[p].owner = none ∧ s.parts[p].reserved = if h : p.val < 4 then some ⟨p.val, h⟩ else none) ∧
    s.events.held = 0 ∧
    (∀ n : Fin 96, s.events.routes[n].enable = true ∧ s.events.routes[n].target.val = 4 ∧ s.events.routes[n].vector.val = 31) ∧
    (∀ c : ChanId, s.chans[c].st = .untrained) ∧ (∀ n : LinkId, s.links[n].st = .disabled) ∧
    (∀ l : LoopId, s.clk.loops[l].st = .off) ∧ s.drainHalted = true ∧ s.raster.alloc = [] ∧ s.raster.written = []

/-- The state after reset is sound: the stored codewords are in canonical form, and numbers of commands are fresh. -/
def Obligations.ResetIsSound : Prop := State.reset.CanonicalMemory ∧ State.reset.FreshNumbers

/-- Every step keeps the store of codewords in its canonical form, whatever the command. -/
def Obligations.StepKeepsCanonicalMemory : Prop :=
  ∀ s t : State, s.CanonicalMemory → step s = .next t → t.CanonicalMemory

/-- Every step keeps the numbers of commands in flight below the next number, so that no two packets fetched ever share one. -/
def Obligations.StepKeepsFreshNumbers : Prop :=
  ∀ s t : State, s.FreshNumbers → step s = .next t → t.FreshNumbers

/-- The store of codewords (R330): a word that has been written reads back whatever its 80 bits, and no other word changes. -/
def Clause.CodewordReadsBack : Prop :=
  ∀ (m : List Host.Cell) (w : Nat) (c : BitVec 80), Memory.wf m →
    Memory.wf (writeWord m w c) ∧ readWord (writeWord m w c) w = c ∧
      ∀ v, v ≠ w → readWord (writeWord m w c) v = readWord m v

/-! ### Packets -/

/-- The 512 bits of a packet: bytes 0 to 59, then its CRC. -/
def packetImage (op : Byte) (i : Issue) : BitVec 512 :=
  BitVec.ofNat 512 (leNat (packetBytes op i ++ dwordBytes i.crc))

/-- The layout of R55 loses no bit of any field: reading the 64 bytes of a packet gives the opcode and every field of it. -/
def Obligations.PacketRoundTrip : Prop :=
  ∀ (op : Byte) (i : Issue), readPacket i.host i.queue (packetImage op i) = (op, i)

/-- The commands of the table "Opcodes" by their opcodes (R67). -/
def opcodeRows : List (Nat × (Issue → Instr)) :=
  [(0x00, .nop), (0x01, .identify), (0x02, .getLog), (0x03, .setFeature), (0x04, .getFeature), (0x05, .attach),
    (0x06, .detach), (0x07, .heartbeat), (0x08, .claimSteward), (0x09, .releaseSteward), (0x0A, .fenceHost),
    (0x10, .allocAshlars), (0x11, .freeAshlars), (0x12, .writeRaw), (0x13, .writeCompress), (0x14, .read), (0x15, .zero),
    (0x16, .sealStrip), (0x17, .getStripInfo), (0x18, .defineRawStrip), (0x19, .freeStrip)] ++
  [(0x20, .loadCourse), (0x21, .keystone), (0x22, .pageQueue), (0x23, .pageCancel), (0x24, .setLookahead), (0x25, .run),
    (0x26, .haltDrain), (0x30, .linkConfig), (0x31, .linkTrain), (0x32, .webConfig), (0x33, .firePhase), (0x34, .waveBank),
    (0x35, .linkMsg)] ++
  [(0x40, .rankRetire), (0x41, .rankReinstate), (0x42, .scrubConfig), (0x43, .migrateStatus), (0x44, .retrain),
    (0x45, .powerPolicy), (0x50, .rawWrite), (0x51, .rawRead), (0x52, .eccInject), (0x53, .quenchDump),
    (0x54, .quenchRelease), (0x55, .selfTest), (0x70, .fwStage), (0x71, .fwCommit), (0x72, .resetDevice)]

/-- A packet that the device fetches from a ring has the effect of the row of its opcode, with the fields that its bytes
give; one whose turn has not come is in flight and waits, with SQ_HEAD past it, and nothing of it is executed (R51, R61 to R63); a
NOP that runs completes. -/
def Clause.PacketFetchRunsItsRow : Prop :=
  ∀ (s : State) (i : Issue),
    (∀ x ∈ opcodeRows, exec (.packetFetch i.host i.queue (packetImage (BitVec.ofNat 8 x.1) i)) s = exec (x.2 i) s) ∧
    (∀ op : Byte, op ≠ 0x07 → s.canFetch i.host i.queue = true → crcError s op i = none →
      (s.taken op i).orderReady (s.mkCmd op i) = false →
        ∃ t, exec (.packetFetch i.host i.queue (packetImage op i)) s = .next t ∧ s.SessionOnly t ∧ t.out = s.out ∧
          t.cmds = s.cmds ++ [{ id := s.nextId, op := op, iss := i, prog := .waiting }] ∧ t.nextId = s.nextId + 1 ∧
          t.queue i.host i.queue = { s.queue i.host i.queue with
            sqHead := ((s.queue i.host i.queue).sqHead + 1) % (s.queue i.host i.queue).size }) ∧
    (s.runs 0x00 i = true → ∃ t, exec (.packetFetch i.host i.queue (packetImage 0x00 i)) s = .next t ∧
      s.Answered t i {} ∧ s.SessionOnly t)

/-- A queue from which the device does not fetch now leaves the machine as it is, whatever the packet at its head. -/
def Clause.UnservedQueueWaits : Prop :=
  ∀ (s : State) (i : Issue), s.canFetch i.host i.queue = false →
    (∀ x ∈ opcodeRows, exec (x.2 i) s = .next s) ∧ ∀ w, exec (.packetFetch i.host i.queue w) s = .next s

/-- A packet that fails the CRC checks (R57, R58) is executed in no part: it completes PACKET_CRC, with detail 0x15 when its
CRC does not match and 0x16 when it carries none and the host requires one. -/
def Clause.CrcRefusesPacket : Prop :=
  ∀ (s : State) (op : Byte) (i : Issue), s.canFetch i.host i.queue = true → s.FreshNumbers →
    (i.crcPresent = true → crc32c (packetBytes op i) ≠ i.crc →
      ∃ t, exec (.packetFetch i.host i.queue (packetImage op i)) s = .next t ∧
        s.Answered t i { status := .packetCrc, detail := 0x15 } ∧ s.SessionOnly t) ∧
    (i.crcPresent = false → s.hosts[i.host].requireCrc = true →
      ∃ t, exec (.packetFetch i.host i.queue (packetImage op i)) s = .next t ∧
        s.Answered t i { status := .packetCrc, detail := 0x16 } ∧ s.SessionOnly t)

/-- A packet whose turn has come and that fails a check of steps 2 to 8 of R65 completes with the answer of that check, and
nothing of its command is executed. -/
def Clause.FailedCheckExecutesNothing : Prop :=
  ∀ (s : State) (op : Byte) (i : Issue) (a : Answer), op ≠ 0x07 → s.canFetch i.host i.queue = true → s.FreshNumbers →
    crcError s op i = none → (s.taken op i).orderReady (s.mkCmd op i) = true →
    (s.taken op i).checkCmd (s.mkCmd op i) = some a →
      ∃ t, exec (.packetFetch i.host i.queue (packetImage op i)) s = .next t ∧ s.Answered t i a ∧ s.SessionOnly t

/-- The order of the checks (R65, with R24 and R66): an opcode outside the table, then banked mode, then the host's state, then
the role, then the fields, then the rights, then the domains. -/
def Obligations.ChecksInOrder : Prop :=
  ∀ (s : State) (c : Cmd),
    (opInfo c.op.toNat = none → s.checkCmd c = some { status := .invalidOpcode }) ∧
    ∀ info, opInfo c.op.toNat = some info →
      (s.banked = true → info.banked = false → s.checkCmd c = some { status := .banked }) ∧
      (s.banked = false →
        (s.hosts[c.host].st = .linked → c.op.toNat ∉ [0x00, 0x01, 0x04, 0x05] →
          s.checkCmd c = some { status := .notAttached }) ∧
        (s.hosts[c.host].st = .recovering → c.op.toNat ∉ [0x00, 0x01, 0x06] → s.checkCmd c = some { status := .fenced }) ∧
        (stateCheck s.hosts[c.host].st c.op.toNat = none → needsSteward info c = true → s.isSteward c.host = false →
          s.checkCmd c = some { status := .notSteward })) ∧
      ((s.banked && !info.banked) = false → s.roleCheck info c = none →
        (∀ off, fieldError info c s = some off →
          s.checkCmd c = some { status := .invalidField, detail := 0x8000 + off }) ∧
        (fieldError info c s = none →
          (∀ a, s.checkRights c = some a → s.checkCmd c = some a) ∧
          (s.checkRights c = none → s.powerCheck c = false →
            s.checkCmd c = some { status := .resourceConflict, detail := 0x10 }) ∧
          (s.checkRights c = none → s.powerCheck c = true → s.checkCmd c = none)))

/-- The layout of a completion (R59): TAG, STATUS, QUEUE with the phase bit, RESULT0, RESULT1, SQ_HEAD and DETAIL. -/
def Obligations.CompletionLayout : Prop :=
  ∀ (tag : BitVec 16) (a : Answer) (phase : Bool) (q : QueueId) (head : Nat),
    let e := completionEntry tag a phase q head
    e.extractLsb' 0 16 = tag ∧ (e.extractLsb' 16 8).toNat = a.status.code ∧ (e.extractLsb' 24 2).toNat = q.val ∧
      e.extractLsb' 26 5 = 0 ∧ e.getLsbD 31 = phase ∧ e.extractLsb' 32 32 = BitVec.ofNat 32 a.r0 ∧
      e.extractLsb' 64 32 = BitVec.ofNat 32 a.r1 ∧ e.extractLsb' 96 16 = BitVec.ofNat 16 head ∧
      e.extractLsb' 112 16 = BitVec.ofNat 16 a.detail

/-- A completion is written at CQ_TAIL with EXPECTED_PHASE in bit 7 of its byte 3, CQ_TAIL then advances, and the phase inverts when it wraps
(R53). The command leaves flight, and no other part of the machine than the session changes. -/
def Obligations.CompletionAdvancesQueue : Prop :=
  ∀ (s : State) (id : Nat) (c : Cmd) (a : Answer), s.findCmd id = some c →
    let k := s.queue c.iss.host c.iss.queue
    let t := s.finish id a
    let k' := t.queue c.iss.host c.iss.queue
    s.Sent t (.completion c.iss.host c.iss.queue k.cqTail (completionEntry c.iss.tag a k.phase c.iss.queue k.sqHead)) ∧
      (completionEntry c.iss.tag a k.phase c.iss.queue k.sqHead).getLsbD 31 = k.phase ∧
      (k.cqTail + 1 < k.size → k'.cqTail = k.cqTail + 1 ∧ k'.phase = k.phase) ∧
      (k.size ≤ k.cqTail + 1 → k'.cqTail = 0 ∧ k'.phase = !k.phase) ∧
      k'.sqHead = k.sqHead ∧ t.cmds = s.cmds.filter (fun x => x.id ≠ id) ∧ s.SessionOnly t

/-- What a queue's packet does: the row of its opcode when the device fetches it, and nothing when it does not. -/
def Obligations.PacketFetch : Prop := Clause.PacketFetchRunsItsRow ∧ Clause.UnservedQueueWaits

/-- A packet that is refused by its CRC or by a check is answered, and nothing of it is executed. -/
def Obligations.RefusedPacketsExecuteNothing : Prop := Clause.CrcRefusesPacket ∧ Clause.FailedCheckExecutesNothing

/-! ### Commands of session and roles -/

/-- NOP, GET_FEATURE, GET_STRIP_INFO and MIGRATE_STATUS answer from the state and change nothing but the session. -/
def Clause.QueriesAnswer : Prop :=
  ∀ (s : State) (i : Issue),
    (s.runs 0x00 i = true → ∃ t, exec (.nop i) s = .next t ∧ s.Answered t i {} ∧ s.SessionOnly t) ∧
    (s.runs 0x04 i = true →
      let c := s.issued 0x04 i
      let v := s.featureValue i.host (c.f 0 0 16) (c.f 0 16 8)
      ∃ t, exec (.getFeature i) s = .next t ∧ s.Answered t i { r0 := v.1, r1 := v.2 } ∧ s.SessionOnly t) ∧
    (s.runs 0x17 i = true → ∀ r, s.findStrip ((s.issued 0x17 i).p 0) = some r →
      ∃ t, exec (.getStripInfo i) s = .next t ∧ s.SessionOnly t ∧
        s.Answered t i {
          r0 := r.lines + 2 ^ 16 * r.words + (if r.raw then 2 ^ 27 else 0) + (if r.sealed then 2 ^ 28 else 0) +
            (if s.stripInUse r.handle then 2 ^ 29 else 0) + (if r.poisoned then 2 ^ 30 else 0)
          r1 := r.size % 2 ^ 28 + 2 ^ 28 * r.part.val }) ∧
    (s.runs 0x43 i = true →
      let ch : ChanId := Fin.ofNat 2 ((s.issued 0x43 i).f 0 0 1)
      let m := s.chans[ch].mig
      ∃ t, exec (.migrateStatus i) s = .next t ∧ s.SessionOnly t ∧
        s.Answered t i {
          r0 := m.st.code + 256 * m.source.val + 1024 * m.target.val
          r1 := if s.migrating ch then
              (s.raster.written.filter (s.raster.rankHolds m.logical m.ashlar).contains).length else 0 })

/-- HEARTBEAT counts as a heartbeat when its packet is fetched: the time of the last one is now, a LATE host is ATTACHED again,
and the answer is the host's HB_TIMEOUT (R39, R40). -/
def Clause.HeartbeatCounts : Prop :=
  ∀ (s : State) (i : Issue), s.runs 0x07 i = true →
    ∃ t, exec (.heartbeat i) s = .next t ∧ s.Answered t i { r0 := s.hosts[i.host].hbTimeout } ∧
      t.hosts[i.host].lastHb = s.time ∧ t.hosts[i.host].st = .attached ∧
      (s.updHost i.host fun r => { r with lastHb := s.time, st := .attached }).SessionOnly t

/-- IDENTIFY, GET_LOG and QUENCH_DUMP write what they report to host memory and complete with its size; GET_LOG with CLEAR
takes exactly the entries that it returns out of the log (R70, R71, R365). -/
def Clause.ReportsReachHost : Prop :=
  ∀ (s : State) (i : Issue),
    (s.runs 0x01 i = true →
      let c := s.issued 0x01 i
      ∃ t, exec (.identify i) s = .next t ∧ s.Answered t i { r0 := 4096 } ∧ s.SessionOnly t ∧
        s.Sent t (.hostWrite i.host (c.hostAddr 1) (layout 4096 (s.identifyPage i.host (c.f 0 0 8))))) ∧
    (s.runs 0x02 i = true →
      let c := s.issued 0x02 i
      let es := s.logs.get (c.f 0 0 8)
      let out := (es.drop (c.p 1)).take (c.p 4 / 64)
      let left := es.take (c.p 1) ++ es.drop (c.p 1 + out.length)
      ∃ t, exec (.getLog i) s = .next t ∧
        (out ≠ [] → s.Sent t (.hostWrite i.host (c.hostAddr 2) (out.map LogEntry.bytes).flatten)) ∧
        (c.f 0 8 1 = 0 → s.Answered t i { r0 := out.length, r1 := es.length } ∧ s.SessionOnly t) ∧
        (c.f 0 8 1 = 1 → s.Answered t i { r0 := out.length, r1 := left.length } ∧
          ({ s with logs := s.logs.put (c.f 0 0 8) left } : State).SessionOnly t)) ∧
    (s.runs 0x53 i = true →
      let c := s.issued 0x53 i
      let len := min (c.p 4) (52288 - c.p 3)
      ∀ d, s.quench.dumps.find? (fun d => d.index = c.f 0 0 8) = some d →
        ∃ t, exec (.quenchDump i) s = .next t ∧ s.Answered t i { r0 := len, r1 := 52288 } ∧ s.SessionOnly t ∧
          (len ≠ 0 → s.Sent t (.hostWrite i.host (c.hostAddr 1) (d.slice (c.p 3) len))))

/-- SET_FEATURE puts its value into force and answers with the previous one (R69); ownership never moves away from a live
contributor (R36); a new HB_TIMEOUT judges the host at once (R40). -/
def Obligations.SetFeaturePutsInForce : Prop :=
  ∀ (s : State) (i : Issue), s.runs 0x03 i = true →
    let c := s.issued 0x03 i
    let f := c.f 0 0 16
    let k := c.f 0 16 8
    let p : Fin 16 := Fin.ofNat 16 k
    let h : HostId := Fin.ofNat 4 k
    let live : Prop := ∃ o, s.parts[p].owner = some o ∧ s.attached o = true ∧ s.isSteward o = false
    (f = 2 → live → ∃ t, exec (.setFeature i) s = .next t ∧ s.Answered t i { status := .resourceConflict } ∧ s.SessionOnly t) ∧
    (f ≠ 4 → (f = 2 → ¬live) →
      ∃ t, exec (.setFeature i) s = .next t ∧ s.Answered t i { r0 := s.featureOld c } ∧ (s.setFeature c).SessionOnly t ∧
        (f = 1 → t.role = { s.role with eligible := BitVec.ofNat 4 (c.p 1) }) ∧
        (f = 2 → t.parts[p] = { s.parts[p] with
          owner := if c.p 1 = 0xFF then none else some (Fin.ofNat 4 (c.p 1)), reserved := none }) ∧
        (f = 3 → t.parts[p] = { s.parts[p] with
          grants := vset s.parts[p].grants (Fin.ofNat 4 (c.p 1)) (Right.of (c.p 1 / 256)) }) ∧
        (f = 5 → t.hosts[h].autoFence = (c.p 1 == 1)) ∧ (f = 7 → t.hosts[i.host].requireCrc = (c.p 1 == 1))) ∧
    (f = 4 → s.time - s.hosts[h].lastHb < c.p 1 * Config.msTau →
      ∃ t, exec (.setFeature i) s = .next t ∧ s.Answered t i { r0 := s.hosts[h].hbTimeout } ∧ t.hosts[h].hbTimeout = c.p 1 ∧
        t.hosts[h].st = (if s.hosts[h].st = .late then .attached else s.hosts[h].st) ∧
        (s.updHost h fun r => { r with hbTimeout := c.p 1, st := if r.st = .late then .attached else r.st }).SessionOnly t)

/-- ATTACH gives a LINKED host a partition and makes it ATTACHED with a heartbeat now (R25, R45); it is refused to a host that
is attached, and when no partition can be given. -/
def Clause.AttachGivesPartition : Prop :=
  ∀ (s : State) (i : Issue), s.runs 0x05 i = true →
    (s.attached i.host = true → ∃ t, exec (.attach i) s = .next t ∧
      s.Answered t i { status := .invalidField, detail := 0x01 } ∧ s.SessionOnly t) ∧
    (s.attached i.host = false → s.choosePartition i.host = none → ∃ t, exec (.attach i) s = .next t ∧
      s.Answered t i { status := .resourceConflict, detail := 0x02 } ∧ s.SessionOnly t) ∧
    (s.attached i.host = false → ∀ p own, s.choosePartition i.host = some (p, own) →
      ∃ t, exec (.attach i) s = .next t ∧
        s.Answered t i { r0 := i.host.val + 256 * p.val + (if own then 2 ^ 16 else 0), r1 := s.raster.held p } ∧
        t.hosts[i.host].st = .attached ∧ t.hosts[i.host].lastHb = s.time ∧ t.parts[p].owner = some i.host ∧
        ({ s with parts := vmod s.parts p fun x => { x with owner := some i.host } }.updHost i.host fun r =>
          { r with st := .attached, lastHb := s.time } : State).SessionOnly t)

/-- DETACH leaves the host LINKED with its count of ignored writes at 0; the partitions that it owns stay its own and reserved for it;
DETACH and RELEASE_STEWARD leave the role vacant when the host held it (R26, R34). -/
def Clause.DetachAndReleaseVacate : Prop :=
  ∀ (s : State) (i : Issue),
    (s.runs 0x06 i = true → ∃ t, exec (.detach i) s = .next t ∧ s.Answered t i {} ∧ t.hosts[i.host].st = .linked ∧
      t.hosts[i.host].ignored = 0 ∧ t.role.holder ≠ some i.host ∧
      (∀ p : Fin 16, t.parts[p] =
        if s.parts[p].owner = some i.host then { s.parts[p] with reserved := some i.host } else s.parts[p]) ∧
      (((s.vacate i.host).reserve i.host).updHost i.host fun r => { r with st := .linked, ignored := 0 }).SessionOnly t) ∧
    (s.runs 0x09 i = true → ∃ t, exec (.releaseSteward i) s = .next t ∧ s.Answered t i { r1 := s.pendingBits } ∧
      t.role.holder ≠ some i.host ∧ (s.isSteward i.host = true → t.role.holder = none ∧ t.role.previous = some i.host) ∧
      (s.vacate i.host).SessionOnly t)

/-- CLAIM_STEWARD is decided in the order of R30: the holder again, an ineligible host, a vacant role, a role held without
TAKEOVER, and a holder that is not LATE. The first claim after READY makes the device RUNNING (R399). -/
def Obligations.ClaimDecidedInOrder : Prop :=
  ∀ (s : State) (i : Issue), s.runs 0x08 i = true →
    let prev := hostOr 0xFF s.role.previous
    let answers (a : Answer) : Prop := ∃ t, exec (.claimSteward i) s = .next t ∧ s.Answered t i a ∧ s.SessionOnly t
    (s.isSteward i.host = true → answers { r0 := prev, r1 := s.pendingBits }) ∧
    (s.isSteward i.host = false →
      (s.role.eligible.getLsbD i.host.val = false → answers { status := .notSteward, detail := 0x05 }) ∧
      (s.role.eligible.getLsbD i.host.val = true →
        (s.role.holder = none → (∀ c : ChanId, s.chans[c].mig.due = none) →
          ∃ t, exec (.claimSteward i) s = .next t ∧ s.Answered t i { r0 := prev, r1 := s.pendingBits } ∧
            t.role = { s.role with holder := some i.host } ∧ t.boot.stage = (if s.boot.stage = 6 then 7 else s.boot.stage) ∧
            ({ s with role := { s.role with holder := some i.host } }.enterRunning : State).SessionOnly t) ∧
        ∀ old, s.role.holder = some old →
          ((s.issued 0x08 i).f 0 0 1 = 0 → answers { status := .resourceConflict, detail := 0x03 }) ∧
          ((s.issued 0x08 i).f 0 0 1 = 1 → s.hosts[old].st ≠ .late →
            answers { status := .resourceConflict, detail := 0x04 }) ∧
          ((s.issued 0x08 i).f 0 0 1 = 1 → s.hosts[old].st = .late →
            exec (.claimSteward i) s = .next (((s.begun 0x08 i).fence old 3 i.host.val).takeRole s.nextId i.host))))

/-- FENCE_HOST: a host cannot fence itself, a host that is not attached is not fenced, and another host is fenced with cause 1
and the answer that counts its commands in flight (R42). -/
def Clause.FenceHostDecides : Prop :=
  ∀ (s : State) (i : Issue), s.runs 0x0A i = true →
    let h : HostId := Fin.ofNat 4 ((s.issued 0x0A i).f 0 0 2)
    (h = i.host → ∃ t, exec (.fenceHost i) s = .next t ∧
      s.Answered t i { status := .invalidField, detail := 0x06 } ∧ s.SessionOnly t) ∧
    (h ≠ i.host → s.attached h = false → ∃ t, exec (.fenceHost i) s = .next t ∧
      s.Answered t i { status := .notAttached, detail := 0x07 } ∧ s.SessionOnly t) ∧
    (h ≠ i.host → s.attached h = true →
      exec (.fenceHost i) s = .next (((s.begun 0x0A i).fence h 1 i.host.val).succeed s.nextId (s.hostFlight h)))

/-- What a fence does (R34, R42, R101): the host is FENCED with its cause, none of its commands is in flight any more, the commands
of the other hosts stay in flight, and it does not hold the steward role. No word of raster memory changes but of bursts that its
WRITE_RAW and ZERO commands had still to write, up to the point at which they stop. -/
def Clause.FenceStopsHost : Prop :=
  ∀ (s : State) (h : HostId) (cause : Fin 4) (issuer : Nat), s.FreshNumbers →
    let t := s.fence h cause issuer
    let writers := s.cmds.filter fun c => c.iss.host = h && (c.op == 0x12 || c.op == 0x15)
    t.hosts[h].st = .fenced ∧ t.hosts[h].fenceCause = cause ∧
      t.cmds = s.cmds.filter (fun c => c.iss.host ≠ h) ∧ t.role.holder ≠ some h ∧
      (s.role.holder ≠ some h → t.role = s.role) ∧ t.parts = s.parts ∧
      s.WritesOnly t (writers.flatMap fun c => (c.todo ++ s.presentedBursts c.id).map (·.addr)) ∧
      ∀ k, k ≠ h → t.hosts[k].st = s.hosts[k].st

/-- Queries, the heartbeat of a host, and what the device reports to it. -/
def Obligations.Queries : Prop := Clause.QueriesAnswer ∧ Clause.HeartbeatCounts ∧ Clause.ReportsReachHost

/-- ATTACH, DETACH and RELEASE. -/
def Obligations.SessionsBeginAndEnd : Prop := Clause.AttachGivesPartition ∧ Clause.DetachAndReleaseVacate

/-- FENCE_HOST, and what fencing a host does. -/
def Obligations.Fencing : Prop := Clause.FenceHostDecides ∧ Clause.FenceStopsHost

/-! ### Raster memory and strips -/

/-- ALLOC_ASHLARS gives its partition the ashlars that it finds, lists them to the host when they are scattered, and answers
with the ashlars that the partition then holds; when there are too few it allocates none (R88). -/
def Clause.AllocGivesAshlars : Prop :=
  ∀ (s : State) (i : Issue), s.runs 0x10 i = true →
    let c := s.issued 0x10 i
    let none_ : Prop := ∃ t, exec (.allocAshlars i) s = .next t ∧
      s.Answered t i { status := .resourceConflict, detail := 0x0A } ∧ s.SessionOnly t
    (c.f 1 0 1 = 1 → s.findRun (c.p 0) = none → none_) ∧
    (c.f 1 0 1 = 1 → ∀ first, s.findRun (c.p 0) = some first →
      let u := s.allocate c.part ((List.range (c.p 0)).map fun k => first + k)
      ∃ t, exec (.allocAshlars i) s = .next t ∧ s.Answered t i { r0 := first, r1 := u.raster.held c.part } ∧ u.SessionOnly t ∧
        ∀ k, k < c.p 0 → t.raster.holder (first + k) = some c.part) ∧
    (c.f 1 0 1 = 0 → (s.findScattered (c.p 0)).length < c.p 0 → none_) ∧
    (c.f 1 0 1 = 0 → c.p 0 ≤ (s.findScattered (c.p 0)).length →
      let ns := s.findScattered (c.p 0)
      let u := s.allocate c.part ns
      ∃ t, exec (.allocAshlars i) s = .next t ∧ s.Answered t i { r1 := u.raster.held c.part } ∧ u.SessionOnly t ∧
        s.Sent t (.hostWrite i.host (c.hostAddr 2) ((ns.foldl Raster.insertNat []).map (leBytes 4)).flatten) ∧
        ∀ n ∈ ns, t.raster.holder n = some c.part)

/-- FREE_ASHLARS leaves the ashlars of its range free and unwritten, keeps every other ashlar as it is, and answers with the
ashlars that the partition still holds (R89). -/
def Clause.FreeMakesUnwritten : Prop :=
  ∀ (s : State) (i : Issue), s.runs 0x11 i = true →
    let c := s.issued 0x11 i
    let mine (n : Nat) : Prop := c.p 0 ≤ n ∧ n < c.p 0 + c.p 1
    ∃ t, exec (.freeAshlars i) s = .next t ∧ s.Answered t i { r1 := t.raster.held c.part } ∧
      ({ s with raster := t.raster } : State).SessionOnly t ∧
      t.raster = { s.raster with alloc := t.raster.alloc, written := t.raster.written } ∧
      (∀ n, mine n → t.raster.holder n ≠ some c.part ∧ t.raster.isWritten n = false) ∧
      ∀ n, ¬mine n → t.raster.holder n = s.raster.holder n ∧ t.raster.isWritten n = s.raster.isWritten n

/-- WRITE_RAW and RAW_WRITE begin: the unwritten ashlars of the range start to fill for the command's requester, the bytes are read
from the host, and no byte of raster memory changes before its burst is granted (R91, R101, R310, R338). -/
def Clause.WritesBegin : Prop :=
  ∀ (s : State) (i : Issue),
    let goes (op : Byte) (x : Instr) (a len bytes : Nat) (req : Fin 12) : Prop :=
      let t := beginWrite (s.issued op i) a len bytes (s.begun op i)
      exec x s = .next t ∧ s.MovesOnly t ∧
        t.raster.filling = s.raster.filling ++ ((s.raster.touched a len).filter fun n =>
          !s.raster.isWritten n && !s.raster.isFilling n).map fun n => { ashlar := n, cmd := s.nextId, req := req }
    (s.runs 0x12 i = true →
      let c := s.issued 0x12 i
      goes 0x12 (.writeRaw i) (c.raster 2) (c.p 4) (c.p 4) ⟨2 * i.host.val + 1, by omega⟩) ∧
    (s.runs 0x50 i = true →
      let c := s.issued 0x50 i
      goes 0x50 (.rawWrite i) (c.raster 2) (8 * c.f 4 0 16) (16 * c.f 4 0 16) 11)

/-- READ and RAW_READ begin: bursts of written ashlars are asked of the arbiters, the others are delivered as zeros in their
turn (R90, R104, R338). No byte of raster memory and no map bit changes. -/
def Clause.ReadsBegin : Prop :=
  ∀ (s : State) (i : Issue),
    (s.runs 0x14 i = true →
      let c := s.issued 0x14 i
      let t := beginRead c (c.raster 2) (c.p 4) (s.begun 0x14 i)
      exec (.read i) s = .next t ∧ s.MovesOnly t ∧ t.raster = s.raster) ∧
    (s.runs 0x51 i = true →
      let c := s.issued 0x51 i
      let t := beginRead c (c.raster 2) (8 * c.f 4 0 16) (s.begun 0x51 i)
      exec (.rawRead i) s = .next t ∧ s.MovesOnly t ∧ t.raster = s.raster)

/-- ZERO makes the ashlars that lie whole in its range unwritten at once, and covers bytes of the other written ashlars by its
transfers; unwritten ashlars stay unwritten (R93). -/
def Clause.ZeroClearsWholeAshlars : Prop :=
  ∀ (s : State) (i : Issue), s.runs 0x15 i = true →
    let c := s.issued 0x15 i
    let a := c.raster 2
    let whole (n : Nat) : Bool := (s.raster.touched a (c.p 4)).contains n && s.wholeIn a (c.p 4) n
    ∃ t, exec (.zero i) s = .next t ∧
      t.raster = { s.raster with written := s.raster.written.filter fun n => !whole n } ∧
      ({ s with raster := t.raster } : State).MovesOnly t

/-- ECC_INJECT with ARM arms the flips for the channel of its word and answers (R340); without ARM it goes for the stored word,
in an unwritten ashlar as its first write (R339). -/
def Clause.InjectArmsOrFlips : Prop :=
  ∀ (s : State) (i : Issue), s.runs 0x52 i = true →
    let c := s.issued 0x52 i
    let a := c.raster 0
    (c.f 5 0 1 = 1 → ∃ t, exec (.eccInject i) s = .next t ∧ s.Answered t i {} ∧
      t.chans[s.raster.chanOf a].armed = some (a, c.flips) ∧
      (s.updChan (s.raster.chanOf a) fun ch => { ch with armed := some (a, c.flips) }).SessionOnly t) ∧
    (c.f 5 0 1 = 0 → ∃ t, exec (.eccInject i) s = .next t ∧ s.MovesOnly t ∧
      (s.raster.isWritten (s.raster.ashlar a) = true → t.raster = s.raster))

/-- WRITE_COMPRESS is refused by the state of the strip that it names (R107, R112), and otherwise waits for an engine (R126). -/
def Clause.CompressWaitsForEngine : Prop :=
  ∀ (s : State) (i : Issue), s.runs 0x13 i = true →
    let c := s.issued 0x13 i
    let u := s.begun 0x13 i
    (u.stripBehind c = true ∨ s.compressCheck c = none →
      ∃ t, exec (.writeCompress i) s = .next t ∧ s.Underway t 0x13 i .compress) ∧
    (u.stripBehind c = false → ∀ a, s.compressCheck c = some a →
      ∃ t, exec (.writeCompress i) s = .next t ∧ s.Answered t i a ∧ s.SessionOnly t)

/-- SEAL_STRIP of a sealed strip answers its lines and its size. Of another it appends the ten bits of an empty last block, padded to a
byte: its bursts go to the writeback requester, or it is refused when no ashlar is left to take (R115, R116, R124). Once they have been
written, the strip is SEALED with the same lines, and the command answers its lines and its size. -/
def Clause.SealAppendsLastBlock : Prop :=
  (∀ (s : State) (i : Issue), s.runs 0x16 i = true → ∀ r, s.findStrip ((s.issued 0x16 i).p 0) = some r →
    let o := State.outputAfter r sealBits (ceilDiv (r.bits + 10) 8 * 8 - r.bits) 2
    let x := o.extend (s.takeable r.part) (ceilDiv (o.tail + o.bits) 8) false
    (r.sealed = true → ∃ t, exec (.sealStrip i) s = .next t ∧ s.Answered t i { r0 := r.lines, r1 := r.size } ∧
      s.SessionOnly t) ∧
    (r.sealed = false →
      (x = none → ∃ t, exec (.sealStrip i) s = .next t ∧
        s.Answered t i { status := .resourceConflict, detail := 0x0A } ∧ s.SessionOnly t) ∧
      ∀ q, x = some q → ∃ t, s.MovesOnly t ∧ exec (.sealStrip i) s = .next t ∧
        t = ((((s.begun 0x16 i).updCmd s.nextId fun c => { c with prog := .raster, out := o }).keepOutput s.nextId q).sendRest
          s.nextId).present)) ∧
  ∀ (s : State) (c : Cmd) (r : Strip), s.findCmd c.id = some c → c.op = 0x16 → c.prog = .raster → c.stop ≤ c.next →
    s.moved c = true → c.out.ends = [] → c.out.lines = r.lines → s.findStrip (c.p 0) = some r →
      let v : Strip := { r with
        extents := c.out.extents, index := c.out.index, bits := c.out.tail + c.out.bits, lastEnd := c.out.lastEnd, sealed := true }
      s.progress c.id = (s.putStrip v).succeed c.id r.lines v.size

/-- DEFINE_RAW_STRIP makes a live, sealed raw strip in a free record and answers its handle; FREE_STRIP ends a strip that no
page references, makes the ashlars of its data unwritten and answers their number (R74, R107, R123, R125). Which record a
strip takes is free (the model's choice). -/
def Obligations.RawStripsComeAndGo : Prop :=
  ∀ (s : State) (i : Issue),
    (s.runs 0x18 i = true →
      let c := s.issued 0x18 i
      (s.freeRecords = [] → ∃ t, exec (.defineRawStrip i) s = .next t ∧
        s.Answered t i { status := .resourceConflict } ∧ s.SessionOnly t) ∧
      (s.freeRecords ≠ [] → ∃ t, ∃ n ∈ s.freeRecords, ∃ v ∈ t.strips,
        v = { idx := n, gen := s.nextGen n, live := true, raw := true, part := c.part, lines := c.f 2 0 16, words := c.f 3 0 11
              sealed := true, addr := c.raster 0, stride := c.p 4 } ∧
        exec (.defineRawStrip i) s = .next t ∧ s.Answered t i { r0 := v.handle } ∧
        ({ s with strips := t.strips, free := s.free + 1 } : State).SessionOnly t ∧
        ∀ x : Strip, x.idx ≠ n → (x ∈ t.strips ↔ x ∈ s.strips))) ∧
    (s.runs 0x19 i = true → ∀ r, s.findStrip ((s.issued 0x19 i).p 0) = some r →
      (s.stripInUse r.handle = true → ∃ t, exec (.freeStrip i) s = .next t ∧
        s.Answered t i { status := .resourceConflict, detail := 0x09 } ∧ s.SessionOnly t) ∧
      (s.stripInUse r.handle = false →
        let ns := if r.raw then [] else r.streamAshlars ++ r.index
        let u := (s.unwrite ns).putStrip { r with live := false }
        ∃ t, exec (.freeStrip i) s = .next t ∧ s.Answered t i { r0 := ns.length } ∧ u.SessionOnly t ∧
          (∀ n ∈ ns, t.raster.isWritten n = false) ∧ t.findStrip r.handle = none))

/-- LOAD_COURSE is refused while its bank is active; otherwise it, PAGE_QUEUE, FW_STAGE and a LINK_MSG that sends wait for the
bytes that they read from their host (R22, R79, R151, R169, R248). -/
def Obligations.SourcesAreAwaited : Prop :=
  ∀ (s : State) (i : Issue),
    (s.runs 0x20 i = true →
      let c := s.issued 0x20 i
      let active := s.bankActive (Fin.ofNat 2 (c.f 0 0 1)) (Fin.ofNat 2 (c.f 0 8 1))
      (active = true → ∃ t, exec (.loadCourse i) s = .next t ∧ s.Answered t i { status := .tableActive } ∧
        s.SessionOnly t) ∧
      (active = false → ∃ t, exec (.loadCourse i) s = .next t ∧ s.Underway t 0x20 i (.source (8 * c.f 3 0 11)))) ∧
    (s.runs 0x22 i = true → ∃ t, exec (.pageQueue i) s = .next t ∧
      s.Underway t 0x22 i (.source (576 * (s.issued 0x22 i).f 2 0 5))) ∧
    (s.runs 0x70 i = true → ∃ t, exec (.fwStage i) s = .next t ∧
      s.Underway t 0x70 i (.source ((s.issued 0x70 i).p 3))) ∧
    (s.runs 0x35 i = true →
      let c := s.issued 0x35 i
      let n : LinkId := Fin.ofNat 32 (c.f 0 0 5)
      c.f 0 9 1 = 0 →
        (s.links[n].st ≠ .up → s.links[n].st ≠ .rejoin → ∃ t, exec (.linkMsg i) s = .next t ∧
          s.Answered t i { status := .resourceConflict } ∧ s.SessionOnly t) ∧
        (s.links[n].st = .up ∨ s.links[n].st = .rejoin → ∃ t, exec (.linkMsg i) s = .next t ∧
          s.Underway t 0x35 i (.source (c.f 3 0 8))))

/-- Ashlars given out and given back. -/
def Obligations.AshlarCommands : Prop := Clause.AllocGivesAshlars ∧ Clause.FreeMakesUnwritten

/-- Commands that move or make raster data. -/
def Obligations.DataCommands : Prop :=
  Clause.WritesBegin ∧ Clause.ReadsBegin ∧ Clause.ZeroClearsWholeAshlars ∧ Clause.InjectArmsOrFlips

/-- Compressed strips: extending and sealing. -/
def Obligations.CompressedStrips : Prop := Clause.CompressWaitsForEngine ∧ Clause.SealAppendsLastBlock

/-! ### Settings, keystones, pages and the drain -/

/-- SET_LOOKAHEAD, LINK_CONFIG, WEB_CONFIG and WAVE_BANK load their shadows and no more: the settings in force stay as they
are until a keystone takes force (R75, R76, R264, R268, R283, R422). -/
def Obligations.SettingsLoadShadows : Prop :=
  ∀ (s : State) (i : Issue),
    let loads (x : Instr) (k : Ks) : Prop := ∃ t, exec x s = .next t ∧ s.Answered t i {} ∧
      t.ks.shadow = k ∧ t.ks = { s.ks with shadow := k } ∧ ({ s with ks := t.ks } : State).SessionOnly t
    (s.runs 0x24 i = true →
      let c := s.issued 0x24 i
      loads (.setLookahead i) { s.ks.shadow with lookahead := BitVec.ofNat 32 (c.f 0 0 9 + 2 ^ 16 * c.f 1 0 9) }) ∧
    (s.runs 0x30 i = true →
      let c := s.issued 0x30 i
      let l : LinkCfg := { enable := c.f 0 8 1 == 1, rate := Fin.ofNat 3 (c.f 1 0 2), pitch := BitVec.ofNat 32 (c.p 2)
                           frameLead := BitVec.ofNat 16 (c.f 3 0 16) }
      loads (.linkConfig i) { s.ks.shadow with link := vset s.ks.shadow.link (Fin.ofNat 32 (c.f 0 0 5)) l }) ∧
    (s.runs 0x32 i = true →
      let c := s.issued 0x32 i
      let w : WebCfg := { num := BitVec.ofNat 24 (c.f 0 0 24), den := BitVec.ofNat 24 (c.f 1 0 24)
                          bandwidth := BitVec.ofNat 12 (c.f 2 0 12), pass := c.f 2 16 1 == 1, invert := c.f 2 17 1 == 1
                          coast := BitVec.ofNat 12 (c.f 3 0 12) }
      loads (.webConfig i) { s.ks.shadow with web := w, webSet := true }) ∧
    (s.runs 0x34 i = true →
      let c := s.issued 0x34 i
      let w : WaveCfg := { fixed := c.f 0 8 1 == 1, bank := Fin.ofNat 4 (c.f 0 12 2), up := BitVec.ofNat 18 (c.f 1 0 18)
                           down := BitVec.ofNat 18 (c.f 2 0 18) }
      let named (n : LinkId) : Prop := n.val < s.part.links ∧ (c.f 0 31 1 = 1 ∨ n.val = c.f 0 0 5)
      ∃ k : Ks, loads (.waveBank i) k ∧ k = { s.ks.shadow with wave := k.wave, waveSet := k.waveSet } ∧
        ∀ n : LinkId, (named n → k.wave[n] = w ∧ k.waveSet.getLsbD n.val = true) ∧
          (¬named n → k.wave[n] = s.ks.shadow.wave[n] ∧ k.waveSet.getLsbD n.val = s.ks.shadow.waveSet.getLsbD n.val))

/-- KEYSTONE that is refused commits nothing: it answers with the losing allocation, and KEYSTONE_STATUS shows the refusal
unless the command was a dry run; a dry run that would be accepted changes nothing (R75, R176, R222). -/
def Clause.RefusedKeystoneCommitsNothing : Prop :=
  ∀ (s : State) (i : Issue), s.runs 0x21 i = true →
    let c := s.issued 0x21 i
    (∀ d, s.keyRefusal = some d → ∃ t, exec (.keystone i) s = .next t ∧
      s.Answered t i { status := .resourceConflict, detail := d } ∧
      (c.f 0 0 1 = 1 → s.SessionOnly t) ∧
      (c.f 0 0 1 = 0 → t.ks = { s.ks with outcome := 3, detail := d } ∧ ({ s with ks := t.ks } : State).SessionOnly t)) ∧
    (s.keyRefusal = none → c.f 0 0 1 = 1 → ∃ t, exec (.keystone i) s = .next t ∧ s.Answered t i {} ∧ s.SessionOnly t)

/-- KEYSTONE that is accepted while courses run waits for the boundary: its number is one more than the last, the shadows and
the banks that qualify are taken, and nothing takes force yet (R175, R178, R421). -/
def Clause.AcceptedKeystoneWaits : Prop :=
  ∀ (s : State) (i : Issue), s.runs 0x21 i = true → s.keyRefusal = none → (s.issued 0x21 i).f 0 0 1 = 0 →
    s.coursesRun = true →
      ∃ t, exec (.keystone i) s = .next t ∧ t.cmds = s.cmds ++ [{ s.issued 0x21 i with prog := .event }] ∧
        t.ks.seq = s.ks.seq + 1 ∧ t.ks.outcome = 1 ∧ t.ks.force = s.ks.force ∧ t.ks.cmds = s.ks.cmds ++ [(s.nextId, t.ks.seq)] ∧
        (s.ks.accepted = none → t.ks.accepted = some s.ks.shadow) ∧
        (∀ c : ChanId, t.ks.banks[c] = (s.ks.banks[c] || s.bankQualifies c)) ∧ t.chans = s.chans ∧
        ({ s with ks := t.ks } : State).SessionOnly t

/-- KEYSTONE that is accepted while no course runs takes force at once: the shadows are in force, and the outcome says so (R178,
R421). Raster memory stays as it is. -/
def Obligations.IdleKeystoneTakesForce : Prop :=
  ∀ (s : State) (i : Issue), s.runs 0x21 i = true → s.keyRefusal = none → (s.issued 0x21 i).f 0 0 1 = 0 →
    s.coursesRun = false → s.ks.accepted = none →
      ∃ t, exec (.keystone i) s = .next t ∧ t.ks.force = s.ks.shadow ∧ t.ks.accepted = none ∧ t.ks.seq = s.ks.seq + 1 ∧
        t.ks.outcome = 2 ∧ (∀ c ∈ t.cmds, c.id ≠ s.nextId) ∧ t.raster = s.raster

/-- PAGE_CANCEL takes QUEUED pages out of the queue and no page that runs: all of them, or the one that it names (R75,
R168). -/
def Clause.CancelTakesQueuedPages : Prop :=
  ∀ (s : State) (i : Issue), s.runs 0x23 i = true →
    let c := s.issued 0x23 i
    let id := BitVec.ofNat 16 (c.p 0)
    (c.f 0 16 1 = 1 → ∃ t, exec (.pageCancel i) s = .next t ∧
      s.Answered t i { r0 := (s.seq.pages.filter fun p => !p.active).length } ∧
      t.seq = { s.seq with pages := s.seq.pages.filter fun p => p.active } ∧
      ({ s with seq := t.seq, links := t.links } : State).SessionOnly t) ∧
    (c.f 0 16 1 = 0 →
      (s.findPage id = none → ∃ t, exec (.pageCancel i) s = .next t ∧
        s.Answered t i { status := .invalidField, detail := 0x0E } ∧ s.SessionOnly t) ∧
      ∀ p, s.findPage id = some p →
        (p.active = true → ∃ t, exec (.pageCancel i) s = .next t ∧
          s.Answered t i { status := .resourceConflict, detail := 0x0D } ∧ s.SessionOnly t) ∧
        (p.active = false → ∃ t, exec (.pageCancel i) s = .next t ∧ s.Answered t i { r0 := 1 } ∧
          t.seq = { s.seq with pages := s.seq.pages.filter fun q => q.active || q.id != id } ∧
          ({ s with seq := t.seq, links := t.links } : State).SessionOnly t))

/-- RUN starts a drain that is HALTED and answers with the first page of the queue; a drain that is not HALTED stays as it is
(R188). -/
def Clause.RunStartsDrain : Prop :=
  ∀ (s : State) (i : Issue), s.runs 0x25 i = true →
    (s.drainHalted = true → ∃ t, exec (.run i) s = .next t ∧
      s.Answered t i { r0 := ((s.seq.pages.head?).map (·.id.toNat)).getD 0xFFFFFFFF } ∧
      t.seq = { s.seq with drain := .running, prevEnd := none, lastLine := none, joinable := false } ∧
      ({ s with seq := t.seq } : State).SessionOnly t) ∧
    (s.drainHalted = false → ∃ t, exec (.run i) s = .next t ∧ s.Answered t i {} ∧ s.SessionOnly t)

/-- HALT_DRAIN (R188, R189): on a HALTED drain it answers with the results of the last halt; MODE 2 halts at once, ends the
pages that run, and empties every line slot; the other modes begin a halt. -/
def Clause.HaltStopsDrain : Prop :=
  ∀ (s : State) (i : Issue), s.runs 0x26 i = true →
    let u := (s.begun 0x26 i).updSeq fun q => { q with haltCmds := q.haltCmds ++ [s.nextId] }
    let mode := (s.issued 0x26 i).f 0 0 2
    (s.drainHalted = true → ∃ t, exec (.haltDrain i) s = .next t ∧
      s.Answered t i { r0 := s.seq.haltR0.toNat, r1 := s.seq.haltR1.toNat } ∧ s.SessionOnly t) ∧
    (s.drainHalted = false →
      (mode = 0 → (s.seq.drain = .halting → exec (.haltDrain i) s = .next u) ∧
        (s.seq.drain = .running →
          exec (.haltDrain i) s = .next (u.updSeq fun q => { q with drain := .halting, haltMode := 0 }).settlePages)) ∧
      (mode = 1 → (s.seq.drain = .halting ∧ s.seq.haltMode = 1 → exec (.haltDrain i) s = .next u) ∧
        (¬(s.seq.drain = .halting ∧ s.seq.haltMode = 1) → exec (.haltDrain i) s = .next u.haltAtLine)) ∧
      (mode = 2 → ∃ t, exec (.haltDrain i) s = .next t ∧ t.drainHalted = true ∧
        t.seq.pages = s.seq.pages.filter (fun p => !p.active) ∧ (∀ n : LinkId, t.links[n].slots = []) ∧
        (∀ c ∈ t.cmds, c.id ≠ s.nextId) ∧ t.raster = s.raster ∧ t.ks = s.ks ∧
        ∀ k : ChanId, t.chans[k] = { s.chans[k] with due := t.chans[k].due }))

/-- FIRE_PHASE without NOW keeps its phase for the next page; with NOW it takes force on the lines not yet committed, in place of
a phase that waits (the model's choice, log entry 103), and the answer counts the lines that it skips (R172, R274). -/
def Clause.FirePhaseSetsPhase : Prop :=
  ∀ (s : State) (i : Issue), s.runs 0x33 i = true →
    let c := s.issued 0x33 i
    let n : LinkId := Fin.ofNat 32 (c.f 0 0 5)
    let phi : Int := (BitVec.ofNat 32 (c.p 1)).toInt * 65536 + c.f 2 0 16
    (c.f 0 8 1 = 0 → ∃ t, exec (.firePhase i) s = .next t ∧ s.Answered t i {} ∧ t.links[n].phaseNext = some phi ∧
      (s.updLink n fun l => { l with phaseNext := some phi }).SessionOnly t) ∧
    (c.f 0 8 1 = 1 →
      let pages := s.seq.pages.map fun p =>
        if p.active then { p with links := vmod p.links n fun l => { l with phase := phi } } else p
      let u := ({ s with seq := { s.seq with pages := pages } } : State).updLink n fun l =>
        { l with phase := phi, phaseNext := none }
      ∃ t, exec (.firePhase i) s = .next t ∧ s.Answered t i { r0 := u.phaseSkipped n } ∧ t.links[n].phase = phi ∧
        t.seq.pages = pages ∧ ({ u with logs := t.logs } : State).SessionOnly t ∧
        (u.phaseSkipped n = 0 → t.logs = s.logs))

/-- LINK_TRAIN of an UP link with lines in a running page is refused; else every link that it names starts training with the
search for alignment, and the command waits for all of them (R241, R242). -/
def Clause.TrainingStarts : Prop :=
  ∀ (s : State) (i : Issue), s.runs 0x31 i = true →
    let c := s.issued 0x31 i
    let named (n : LinkId) : Bool := decide (n.val < s.part.links) && c.p 0 / 2 ^ n.val % 2 == 1
    let busy : Prop := ∃ n, named n = true ∧ s.links[n].st = .up ∧ s.hasLines n = true
    (busy → ∃ t, exec (.linkTrain i) s = .next t ∧ s.Answered t i { status := .resourceConflict } ∧ s.SessionOnly t) ∧
    (¬busy → c.p 0 ≠ 0 → (∀ n : LinkId, s.links[n].trainCmd = none) →
      ∃ t, exec (.linkTrain i) s = .next t ∧
        t.cmds = s.cmds ++ [{ c with prog := .event, mask := BitVec.ofNat 32 (c.p 0) }] ∧
        (∀ n, named n = true → t.links[n] = { s.links[n] with
          step := .search, stepStart := s.time, trainCmd := some s.nextId, testFrames := 0, testBad := false, echoes := 0
          trips := [], awaited := [] }) ∧
        (∀ n, named n = false → t.links[n] = s.links[n]) ∧ ({ s with links := t.links } : State).SessionOnly t)

/-- LINK_MSG that receives takes the oldest message that its link holds to host memory and answers its length, 0 when none is
held (R248). -/
def Clause.MessageIsReceived : Prop :=
  ∀ (s : State) (i : Issue), s.runs 0x35 i = true →
    let c := s.issued 0x35 i
    let n : LinkId := Fin.ofNat 32 (c.f 0 0 5)
    c.f 0 9 1 = 1 →
      (s.links[n].inbox = [] → ∃ t, exec (.linkMsg i) s = .next t ∧ s.Answered t i {} ∧ s.SessionOnly t) ∧
      ∀ m rest, s.links[n].inbox = m :: rest → ∃ t, exec (.linkMsg i) s = .next t ∧ s.Answered t i { r0 := m.length } ∧
        s.Sent t (.hostWrite i.host (c.hostAddr 1) m) ∧ t.links[n].inbox = rest ∧
        (s.updLink n fun l => { l with inbox := rest }).SessionOnly t

/-- A keystone that is refused, and one that is accepted. -/
def Obligations.KeystoneIsJudged : Prop := Clause.RefusedKeystoneCommitsNothing ∧ Clause.AcceptedKeystoneWaits

/-- PAGE_CANCEL, RUN and HALT_DRAIN. -/
def Obligations.PageQueueCommands : Prop :=
  Clause.CancelTakesQueuedPages ∧ Clause.RunStartsDrain ∧ Clause.HaltStopsDrain

/-- Commands of a link. -/
def Obligations.LinkCommands : Prop := Clause.FirePhaseSetsPhase ∧ Clause.TrainingStarts ∧ Clause.MessageIsReceived

/-! ### Ranks, power, test and firmware -/

/-- RANK_RETIRE (R77, R350, R356): only a rank in service or DEGRADED can retire; a stopped migration of it goes on; another
migration of the channel, or no free spare, refuses it; else its data start to move to the spare. -/
def Clause.RetireStartsMigration : Prop :=
  ∀ (s : State) (i : Issue), s.runs 0x40 i = true →
    let c := s.issued 0x40 i
    let ch : ChanId := Fin.ofNat 2 (c.f 0 0 1)
    let r : RankId := Fin.ofNat 4 (c.f 0 8 2)
    let k := s.chans[ch].ranks[r].st
    let m := s.chans[ch].mig
    let refused (a : Answer) : Prop := ∃ t, exec (.rankRetire i) s = .next t ∧ s.Answered t i a ∧ s.SessionOnly t
    (k ≠ .inService → k ≠ .degraded → refused { status := .invalidField, detail := 0x8008 }) ∧
    (k = .inService ∨ k = .degraded →
      (m.st = .stopped → m.source = r → ∃ t, exec (.rankRetire i) s = .next t ∧ s.Answered t i { r0 := m.target.val } ∧
        (s.updMig ch fun x => { x with st := .copying }).SessionOnly t) ∧
      (¬(m.st = .stopped ∧ m.source = r) →
        (s.migrating ch = true → refused { status := .busyMigrating }) ∧
        (s.migrating ch = false →
          (s.freeSpare ch = none → refused { status := .noSpare }) ∧
          ∀ x, s.freeSpare ch = some x → ∃ t, exec (.rankRetire i) s = .next t ∧ s.Answered t i { r0 := x.val } ∧
            t.chans[ch].mig.st = .copying ∧ t.chans[ch].mig.source = r ∧ t.chans[ch].mig.target = x ∧
            (s.startMigration ch r x).SessionOnly t)))

/-- RANK_REINSTATE (R77, R357): only a RETIRED rank of a channel that neither migrates nor has a spare is taken up for the tests
that decide on it. -/
def Clause.ReinstateTestsRank : Prop :=
  ∀ (s : State) (i : Issue), s.runs 0x41 i = true →
    let c := s.issued 0x41 i
    let ch : ChanId := Fin.ofNat 2 (c.f 0 0 1)
    let r : RankId := Fin.ofNat 4 (c.f 0 8 2)
    let k := s.chans[ch].ranks[r].st
    let refused (a : Answer) : Prop := ∃ t, exec (.rankReinstate i) s = .next t ∧ s.Answered t i a ∧ s.SessionOnly t
    (k ≠ .retired → refused { status := .invalidField, detail := 0x8008 }) ∧
    (k = .retired →
      (s.migrating ch = true → refused { status := .busyMigrating }) ∧
      (s.migrating ch = false → (s.freeSpare ch).isSome = true → refused { status := .resourceConflict }) ∧
      (s.migrating ch = false → s.freeSpare ch = none → ∃ t, exec (.rankReinstate i) s = .next t ∧
        t.cmds = s.cmds ++ [{ c with prog := .event }] ∧ t.chans[ch].service = some (.reinstate s.nextId, [r]) ∧
        t.chans[ch].ranks[r].selfRefresh = false ∧ (∀ u b, (t.bankIdx ch r u b).credit = 0) ∧ (∀ d, d ≠ ch → t.chans[d] = s.chans[d]) ∧
        ({ s with chans := t.chans } : State).SessionOnly t))

/-- SCRUB_CONFIG sets the scrubbers of the channels that it names, and no other (R345). -/
def Clause.ScrubConfigSets : Prop :=
  ∀ (s : State) (i : Issue), s.runs 0x42 i = true →
    let c := s.issued 0x42 i
    ∃ t, exec (.scrubConfig i) s = .next t ∧ s.Answered t i {} ∧ ({ s with chans := t.chans } : State).SessionOnly t ∧
      ∀ k : ChanId,
        (c.f 0 k.val 1 = 1 →
          let x : Scrub := { s.chans[k].scrub with
            enable := c.f 0 8 1 == 1, period := c.f 1 0 16, threshold := c.f 2 0 16 }
          let resumes := c.f 0 8 1 == 1 && !s.chans[k].scrub.enable && s.chans[k].scrub.active
          t.chans[k].scrub = { x with paceFrom := t.chans[k].scrub.paceFrom, left := t.chans[k].scrub.left
                                      count := t.chans[k].scrub.count } ∧
          (resumes = true → t.chans[k].scrub.paceFrom = s.time ∧ t.chans[k].scrub.left = t.chans[k].scrub.count) ∧
          (resumes = false → t.chans[k].scrub = x) ∧ t.chans[k] = { s.chans[k] with scrub := t.chans[k].scrub }) ∧
        (c.f 0 k.val 1 = 0 → t.chans[k] = s.chans[k])

/-- RETRAIN (R307): without FULL it waits for course boundaries with the ranks that it still has to step; with FULL it is
refused unless the drain is HALTED, and takes its channels into training. With no rank to train it completes at once. -/
def Clause.RetrainTakesRanks : Prop :=
  ∀ (s : State) (i : Issue), s.runs 0x44 i = true →
    let c := s.issued 0x44 i
    let cs := s.chansInUse.filter fun k => c.f 0 k.val 1 == 1
    let mask := (cs.flatMap fun k => (s.liveRanks k).map fun r => State.rankBit k r).foldl (· ||| ·) 0
    let u := (s.begun 0x44 i).updCmd s.nextId fun x => { x with mask := mask }
    (c.f 0 8 1 = 0 →
      (mask = 0 → ∃ t, exec (.retrain i) s = .next t ∧ s.Answered t i {} ∧ s.SessionOnly t) ∧
      (mask ≠ 0 → ∃ t, exec (.retrain i) s = .next t ∧ s.SessionOnly t ∧
        t.cmds = s.cmds ++ [{ c with prog := .event, mask := mask }])) ∧
    (c.f 0 8 1 = 1 →
      (s.drainHalted = false → ∃ t, exec (.retrain i) s = .next t ∧ s.Answered t i { status := .resourceConflict } ∧
        s.SessionOnly t) ∧
      (s.drainHalted = true → exec (.retrain i) s = .next ((u.beginTraining s.nextId cs).retrainDone s.nextId)))

/-- POWER_POLICY (R77, R393, R394): a request that may not be met changes nothing; one that switches no domain answers with the
domains that are powered; another waits for its switches, off before on. -/
def Clause.PowerPolicyQueuesSwitches : Prop :=
  ∀ (s : State) (i : Issue), s.runs 0x45 i = true →
    let c := s.issued 0x45 i
    let offs := ([7, 6, 5, 4, 3] : List DomainId).filter fun d => s.domainOn d.val && !(c.f 0 d.val 1 == 1)
    let ons := ([3, 4, 5, 6, 7] : List DomainId).filter fun d => !s.domainOn d.val && c.f 0 d.val 1 == 1
    let may : Bool := (s.begun 0x45 i |> fun u => offs.all u.mayLeave) && !(s.stopRan && ons != [])
    let policy : Power := { s.power with
      pdIdle := c.f 1 0 1 == 1, srIdle := c.f 1 1 1 == 1, srDelay := c.p 2, todo := [], cmd := none, cause := 0 }
    (may = false → ∃ t, exec (.powerPolicy i) s = .next t ∧ s.Answered t i { status := .resourceConflict } ∧
      s.SessionOnly t) ∧
    (may = true → offs ++ ons = [] → ∃ t, exec (.powerPolicy i) s = .next t ∧
      s.Answered t i { r0 := s.power.on.toNat } ∧ t.power = policy ∧ ({ s with power := t.power } : State).SessionOnly t) ∧
    (may = true → offs ++ ons ≠ [] → ∃ t, exec (.powerPolicy i) s = .next t ∧
      t.power = { policy with todo := (offs.map fun d => (d, false)) ++ ons.map fun d => (d, true), cmd := some s.nextId } ∧
      t.cmds = s.cmds ++ [{ c with prog := .event }] ∧ (∀ k : ChanId, t.chans[k] = { s.chans[k] with st := t.chans[k].st }) ∧
      ({ s with power := t.power, chans := t.chans } : State).SessionOnly t)

/-- QUENCH_RELEASE (R366, R367): what is not quenched cannot be released; a channel is released alone; the release of the device
empties the page queue, and releases every channel in use. Raster memory stays as it is. -/
def Clause.ReleaseEndsQuench : Prop :=
  ∀ (s : State) (i : Issue), s.runs 0x54 i = true →
    let k := (s.issued 0x54 i).f 0 0 2
    let ch : ChanId := Fin.ofNat 2 k
    let refused : Prop := ∃ t, exec (.quenchRelease i) s = .next t ∧
      s.Answered t i { status := .invalidField, detail := 0x8008 } ∧ s.SessionOnly t
    (k < 2 → s.quench.device = true ∨ s.quench.chans[ch] = false → refused) ∧
    (k < 2 → s.quench.device = false → s.quench.chans[ch] = true → ∃ t, exec (.quenchRelease i) s = .next t ∧
      s.Answered t i {} ∧ t.quench = { s.quench with chans := vset s.quench.chans ch false } ∧
      t.sr.idle = false ∧ ({ s with chans := t.chans, quench := t.quench, logs := t.logs, sr := t.sr } : State).SessionOnly t) ∧
    (k = 2 → s.quench.device = false → refused) ∧
    (k = 2 → s.quench.device = true → ∃ t, exec (.quenchRelease i) s = .next t ∧ s.Answered t i {} ∧
      t.quench.device = false ∧ (∀ c, s.inUse c = true → t.quench.chans[c] = false) ∧ t.seq.pages = [] ∧
      (∀ n : LinkId, t.links[n].slots = []) ∧ t.raster = s.raster)

/-- SELF_TEST (R129, R214, R225). An engine that serves a link, or a pool in use, cannot be tested; a compressor that holds a
command is tested when it is free. Whether a test passes, and at which step it fails, is a free value (the model's choice). -/
def Obligations.SelfTestReports : Prop :=
  ∀ (s : State) (i : Issue), s.runs 0x55 i = true →
    let c := s.issued 0x55 i
    let e : Fin 34 := Fin.ofNat 34 (c.f 0 8 8)
    let n : Fin 8 := Fin.ofNat 8 (c.f 0 8 8)
    let step := Config.selfTestStep s.free
    let poolBusy : Bool := !s.drainHalted || (s.comps.toList.any fun x => x.job.isSome) ||
      (List.finRange 4).any s.stagingBusy
    (c.f 0 0 8 = 0 →
      (s.engines[e].st = .serving → ∃ t, exec (.selfTest i) s = .next t ∧
        s.Answered t i { status := .resourceConflict } ∧ s.SessionOnly t) ∧
      (s.engines[e].st ≠ .serving → ∃ t, exec (.selfTest i) s = .next t ∧
        s.Answered t i (if step = 0 then { r0 := 1 } else { r1 := step }) ∧
        t.engines[e].st = (if step = 0 then .spare else .out) ∧ (∀ x, x ≠ e → t.engines[x] = s.engines[x]) ∧
        ({ s with engines := t.engines, links := t.links, logs := t.logs, free := s.free + 1 } : State).SessionOnly t)) ∧
    (c.f 0 0 8 = 1 →
      (s.comps[n].job.isSome = true → ∃ t, exec (.selfTest i) s = .next t ∧ t.comps[n].test = some s.nextId ∧
        ({ s with comps := t.comps } : State).Underway t 0x55 i .event) ∧
      (s.comps[n].job = none → ∃ t, exec (.selfTest i) s = .next t ∧
        s.Answered t i (if step = 0 then { r0 := 1 } else { r1 := step }) ∧ t.comps[n].broken = (step != 0) ∧
        ({ s with comps := t.comps, logs := t.logs, free := s.free + 1 } : State).SessionOnly t)) ∧
    (c.f 0 0 8 = 2 →
      (poolBusy = true → ∃ t, exec (.selfTest i) s = .next t ∧ s.Answered t i { status := .resourceConflict } ∧
        s.SessionOnly t) ∧
      (poolBusy = false → ∃ t, exec (.selfTest i) s = .next t ∧
        s.Answered t i (if step = 0 then { r0 := 1 } else { r1 := (Config.openDword s.free).toNat }) ∧
        (∀ m : LinkId, ∀ x ∈ t.links[m].slots, ∀ b ∈ x.image, b = 0) ∧
        ({ s with engines := t.engines, links := t.links, free := s.free + 1 } : State).SessionOnly t))

/-- FW_COMMIT refuses what is not whole and what its signature does not verify, and changes nothing then; else it names the
staged slot in the older copy of the boot record, with the next sequence number, and leaves the other copy (R79, R403). -/
def Clause.CommitNamesStagedSlot : Prop :=
  ∀ (s : State) (i : Issue), s.runs 0x71 i = true →
    let bs := s.boot.staged.filterMap id
    let k := olderCopy s.boot.recs
    let other := s.boot.recs[(k + 1 : Fin 2)]
    (s.staged = false → ∃ t, exec (.fwCommit i) s = .next t ∧
      s.Answered t i { status := .invalidField, detail := 0x1A } ∧ s.SessionOnly t) ∧
    (s.staged = true → Config.signatureVerifies bs = false → ∃ t, exec (.fwCommit i) s = .next t ∧
      s.Answered t i { status := .invalidField, detail := 0x19 } ∧ s.SessionOnly t) ∧
    (s.staged = true → Config.signatureVerifies bs = true → ∃ t, exec (.fwCommit i) s = .next t ∧
      s.Answered t i { r0 := leNat ((bs.drop 4).take 4), r1 := if s.stageSlot then 1 else 0 } ∧
      t.boot.recs[k] = { seq := ((if other.valid then other.seq else 0) + 1) % 2 ^ 32, slotB := s.stageSlot, valid := true } ∧
      t.boot.recs[(k + 1 : Fin 2)] = other ∧ t.boot.staged = [] ∧ t.boot.slotB = s.boot.slotB ∧
      ({ s with boot := t.boot } : State).SessionOnly t)

/-- RESET_DEVICE answers, and the reset that it names is due 1 ms later; in banked mode the counter of failed starts and the
force flag clear (R79, R404, R405). -/
def Clause.ResetDeviceSchedules : Prop :=
  ∀ (s : State) (i : Issue), s.runs 0x72 i = true →
    ∃ t, exec (.resetDevice i) s = .next t ∧ s.Answered t i {} ∧ ({ s with boot := t.boot } : State).SessionOnly t ∧
      t.boot = { s.boot with
        resetAt := some (s.time + Config.msTau, (s.issued 0x72 i).f 0 0 1 == 1)
        fails := if s.banked then 0 else s.boot.fails, force := if s.banked then false else s.boot.force }

/-- RANK_RETIRE, MIGRATE_STATUS and RANK_REINSTATE. -/
def Obligations.RankCommands : Prop := Clause.RetireStartsMigration ∧ Clause.ReinstateTestsRank

/-- SCRUB_CONFIG and RETRAIN. -/
def Obligations.ScrubAndRetrain : Prop := Clause.ScrubConfigSets ∧ Clause.RetrainTakesRanks

/-- POWER_POLICY and QUENCH_RELEASE. -/
def Obligations.PowerAndQuench : Prop := Clause.PowerPolicyQueuesSwitches ∧ Clause.ReleaseEndsQuench

/-- FW_COMMIT and RESET_DEVICE. -/
def Obligations.FirmwareAndReset : Prop := Clause.CommitNamesStagedSlot ∧ Clause.ResetDeviceSchedules

/-! ### Register accesses -/

/-- A write of SQ_TAIL or CQ_HEAD is taken when its queue is in service, the index lies in the ring, and the index does not move
back past the other end; any other write sets DB_ERROR, is logged, and moves nothing (R52). -/
def Clause.DoorbellsMove : Prop :=
  ∀ (s : State) (h : HostId) (q : QueueId) (v : Dword), s.takesWrite h = true →
    let k := s.queue h q
    let i := v.toNat % 256
    let tail : Prop := k.enable = true ∧ i < k.size ∧
      (k.sqTail + k.size - k.sqHead) % k.size ≤ (i + k.size - k.sqHead) % k.size
    let head : Prop := k.enable = true ∧ i < k.size ∧
      (i + k.size - k.cqHead) % k.size ≤ (k.cqTail + k.size - k.cqHead) % k.size
    let ignored (x : Instr) : Prop := ∃ t, exec x s = .next t ∧
      t = { s.updQueue h q fun k => { k with dbError := true } with logs := t.logs }
    (tail → exec (.sqTail h q v) s = .next (s.updQueue h q fun k => { k with sqTail := i })) ∧ (¬tail → ignored (.sqTail h q v)) ∧
    (head → exec (.cqHead h q v) s = .next (s.updQueue h q fun k => { k with cqHead := i })) ∧ (¬head → ignored (.cqHead h q v))

/-- Q_CONTROL (R49, R50): ENABLE puts a queue of 2 to 256 entries into service with empty rings and phase 1, and refuses another
size, or in banked mode another queue than 0 (R66), with CONFIG_ERROR; ENABLE 0 takes a queue out of service once none of its
commands is in flight, and fetches no more meanwhile. -/
def Clause.QueueControl : Prop :=
  ∀ (s : State) (h : HostId) (q : QueueId) (v : Dword), s.takesWrite h = true →
    let k := s.queue h q
    let size := v.toNat % 512
    let may : Prop := (s.banked = true → q = 0) ∧ 2 ≤ size ∧ size ≤ 256
    let set (x : Queue) : Queue := { x with vector := Fin.ofNat 32 (v.toNat / 2 ^ 20), notifyAll := v.getLsbD 25 }
    (k.enable = false → k.disabling = false →
      (may → exec (.queueEnable h q v) s = .next (s.updQueue h q fun x => { set x with
        size := size, enable := true, sqHead := 0, sqTail := 0, cqHead := 0, cqTail := 0, phase := true })) ∧
      (¬may → exec (.queueEnable h q v) s = .next (s.updQueue h q fun x => { set x with size := size, configError := true })) ∧
      exec (.queueDisable h q v) s = .next (s.updQueue h q fun x => { set x with size := size })) ∧
    (k.enable = true →
      (k.disabling = false → exec (.queueEnable h q v) s = .next (s.updQueue h q set)) ∧
      (s.queueFlight h q = 0 → exec (.queueDisable h q v) s =
        .next (s.updQueue h q fun x => { set x with enable := false, disabling := false })) ∧
      (s.queueFlight h q ≠ 0 →
        exec (.queueDisable h q v) s = .next (s.updQueue h q fun x => { set x with disabling := true }) ∧
        (k.disabling = true → exec (.queueEnable h q v) s =
          .next (s.updQueue h q fun x => { set x with configError := true }))))

/-- A FENCED host reaches HOST_CONTROL alone: every other write of its port, of 4 or of 8 bytes, is ignored and counted
once (R43). -/
def Clause.FencedWritesCount : Prop :=
  ∀ (s : State) (h : HostId) (q : QueueId) (v : Dword) (n : Fin 96) (m : Fin 3) (off : BitVec 16) (wide : Bool) (x : BitVec 64),
    s.reachesPort h = true → s.hosts[h].st = .fenced →
    ∀ c ∈ ([.sqTail h q v, .cqHead h q v, .queueEnable h q v, .queueDisable h q v, .heartbeatRegisterWrite h v,
        .keystoneRegisterWrite h v, .apply h v, .mailboxRing h v, .eventRouteWrite h n v, .eventMaskWrite h m v, .clear h v,
        .goMem h v, .goCore h v] : List Instr) ++
        (if off.toNat % 4 = 0 ∧ off ≠ 0x104 ∧ ¬(wide = true ∧ off = 0x100) then [.registerWrite h off wide x] else []),
      exec c s = .next (s.updHost h fun r => { r with ignored := min 0xFFFF (r.ignored + 1) })

/-- FENCE_ACK of a FENCED host empties its queues, keeps their settings, and makes it RECOVERING; of any other host it does
nothing, nor does a write without the bit (R44). -/
def Clause.FenceAckRecovers : Prop :=
  ∀ (s : State) (h : HostId) (v : Dword), s.reachesPort h = true →
    (s.hosts[h].st = .fenced → v.getLsbD 0 = true → ∃ t, exec (.fenceAck h v) s = .next t ∧
      t.hosts[h].st = .recovering ∧ t.hosts[h].ignored = s.hosts[h].ignored ∧
      (∀ q, t.queue h q = { s.queue h q with sqHead := 0, sqTail := 0, cqHead := 0, cqTail := 0, phase := true }) ∧
      (s.updHost h fun r => { r with queues := r.queues.map Queue.emptied, st := .recovering }).RaisedOnly t) ∧
    (s.hosts[h].st ≠ .fenced ∨ v.getLsbD 0 = false → exec (.fenceAck h v) s = .next s)

/-- A write of HEARTBEAT counts for an ATTACHED host, and makes a LATE one ATTACHED again; of another host it counts for nothing
(R39, R40). -/
def Clause.HeartbeatWrite : Prop :=
  ∀ (s : State) (h : HostId) (v : Dword), s.takesWrite h = true →
    (s.hosts[h].st = .attached → exec (.heartbeatRegisterWrite h v) s = .next (s.updHost h fun r => { r with lastHb := s.time })) ∧
    (s.hosts[h].st = .late → ∃ t, exec (.heartbeatRegisterWrite h v) s = .next t ∧
      t.hosts[h].st = .attached ∧ t.hosts[h].lastHb = s.time ∧
      (s.updHost h fun r => { r with lastHb := s.time, st := .attached }).RaisedOnly t) ∧
    (s.attached h = false → exec (.heartbeatRegisterWrite h v) s = .next s)

/-- MAILBOX_RING of an attached host names it as the last to ring each mailbox of its value, and raises their sources; of another
host it does nothing (R420). -/
def Clause.MailboxRings : Prop :=
  ∀ (s : State) (h : HostId) (v : Dword), s.takesWrite h = true →
    (s.attached h = true → ∃ t, exec (.mailboxRing h v) s = .next t ∧
      (∀ k : Fin 8, t.events.from_[k] = if v.getLsbD k.val then some h else s.events.from_[k]) ∧
      ({ s with events := { s.events with from_ := t.events.from_ } } : State).RaisedOnly t) ∧
    (s.attached h = false → exec (.mailboxRing h v) s = .next s)

/-- EVENT_ROUTE: on the steward's port a write sets the entry of its source, and no other; on another port it is logged and sets
none (R413). An entry that cannot be set stays as it is (the model's choice). -/
def Clause.RoutesAreTheStewards : Prop :=
  ∀ (s : State) (h : HostId) (n : Fin 96) (v : Dword), s.takesWrite h = true → 16 ≤ n.val →
    let target := v.toNat / 256 % 8
    let may : Prop := s.part.neverAsserts n.val = false ∧ (target = 4 ∨ target < s.part.ports ∧ target < 4)
    (s.isSteward h = false → ∃ t, exec (.eventRouteWrite h n v) s = .next t ∧ t = { s with logs := t.logs } ∧
      t.logs = { s.logs with error := t.logs.error }) ∧
    (s.isSteward h = true → may → exec (.eventRouteWrite h n v) s = .next { s with events := { s.events with
      routes := vset s.events.routes n { enable := v.getLsbD 31, target := Fin.ofNat 5 target, vector := Fin.ofNat 32 v.toNat } } }) ∧
    (s.isSteward h = true → ¬may → exec (.eventRouteWrite h n v) s = .next s)

/-- EVENT_MASK: the mask of the port takes the word, where the part has the sources (R4); no status bit changes, and unmasking a source whose status bit is set counts
a raise of it (R416). -/
def Clause.MaskWrite : Prop :=
  ∀ (s : State) (h : HostId) (m : Fin 3) (v : Dword), s.takesWrite h = true →
    ∃ t, exec (.eventMaskWrite h m v) s = .next t ∧
      (∀ k : Fin 96, t.hosts[h].mask.getLsbD k.val =
        (!s.part.neverAsserts k.val &&
          (if k.val / 32 = m.val then v.getLsbD (k.val % 32) else s.hosts[h].mask.getLsbD k.val))) ∧
      t.hosts[h].status = s.hosts[h].status ∧
      (s.updHost h fun r => { r with mask := t.hosts[h].mask }).RaisedOnly t ∧
      ((∀ k : Fin 96, k.val / 32 = m.val → s.hosts[h].mask.getLsbD k.val = true → v.getLsbD (k.val % 32) = false →
        s.hosts[h].status.getLsbD k.val = false) → t = s.updHost h fun r => { r with mask := t.hosts[h].mask })

/-- A holdoff that ends (R417): before its time nothing happens; with no raise gathered the vector is free again; with raises
gathered one message goes out and the holdoff starts again, as long as one is set. The message of a masked vector waits (R416), and
none goes to a FENCED host (R42) or where MSI-X is off (R19). -/
def Clause.HoldoffEnds : Prop :=
  ∀ (s : State) (h : HostId) (v : Fin 32),
    let x := s.hosts[h].vecs[v]
    (x.until_ = none → exec (.holdoffExpiry h v) s = .next s) ∧
    ∀ e, x.until_ = some e →
      (s.time < e → exec (.holdoffExpiry h v) s = .next s) ∧
      (e ≤ s.time → x.gathered = 0 → exec (.holdoffExpiry h v) s = .next (s.updVec h v fun y => { y with until_ := none })) ∧
      (e ≤ s.time → x.gathered ≠ 0 →
        let next : Option Nat := if x.holdoff = 0 then none else some (s.time + x.holdoff * 160000)
        let restart (pends : Bool) : State :=
          s.updVec h v fun y => { y with until_ := next, gathered := 0, pend := y.pend || pends }
        let waits : Prop := x.masked = true ∨ s.hosts[h].pci.functionMask = true
        let sends : Prop := s.hosts[h].pci.msixEnable = true ∧ s.hosts[h].pci.d3hot = false
        (s.hosts[h].st = .fenced → exec (.holdoffExpiry h v) s = .next (restart false)) ∧
        (s.hosts[h].st ≠ .fenced → waits → exec (.holdoffExpiry h v) s = .next (restart true)) ∧
        (s.hosts[h].st ≠ .fenced → ¬waits → sends →
          exec (.holdoffExpiry h v) s = .next ((restart false).emit (.msix h v))) ∧
        (s.hosts[h].st ≠ .fenced → ¬waits → ¬sends → exec (.holdoffExpiry h v) s = .next (restart false)))

/-- A pulse of a pin ends 1 us after it began, and not before (R423). -/
def Clause.PulseEnds : Prop :=
  ∀ (s : State) (k : Fin 2),
    (s.events.pulse[k] = none → exec (.pulseEnd k) s = .next s) ∧
    ∀ b, s.events.pulse[k] = some b →
      (s.time < b + 160000 → exec (.pulseEnd k) s = .next s) ∧
      (b + 160000 ≤ s.time →
        exec (.pulseEnd k) s = .next { s with events := { s.events with pulse := vset s.events.pulse k none } })

/-- Where a raise goes (R411 to R416): sources 0 to 15 to their host; another to the target of its enabled entry when that host is
attached, else to the steward, else it is held; one of the fault class to the steward besides, or held. No other source's
status bit changes. -/
def Clause.RaiseReaches : Prop :=
  ∀ (s : State) (n : Fin 96), s.part.neverAsserts n.val = false →
    let t := s.raise n
    let r := s.events.routes[n]
    let set (h : HostId) : Prop := t.hosts[h].status.getLsbD n.val = true
    s.RaisedOnly t ∧
    (∀ h : HostId, ∀ m : Fin 96, m ≠ n → t.hosts[h].status.getLsbD m.val = s.hosts[h].status.getLsbD m.val) ∧
    (∀ h : HostId, n.val / 4 = h.val → set h) ∧
    (16 ≤ n.val →
      (r.enable = true → ∀ h : HostId, r.target.val = h.val → s.attached h = true → set h) ∧
      (r.enable = true → (∀ h : HostId, r.target.val = h.val → s.attached h = false) →
        (∀ h, s.role.holder = some h → set h) ∧ (s.role.holder = none → t.events.held.getLsbD n.val = true)) ∧
      (faultClass n.val = true →
        (∀ h, s.role.holder = some h → set h) ∧ (s.role.holder = none → t.events.held.getLsbD n.val = true)) ∧
      (r.enable = false → faultClass n.val = false → ∀ h : HostId, t.hosts[h].status = s.hosts[h].status))

/-- KEYSTONE by its register (R29, R176): on the steward's port a refusal is shown and commits nothing, and else the shadows are
accepted; on another port the write has no effect. -/
def Clause.KeystoneWrite : Prop :=
  ∀ (s : State) (h : HostId) (v : Dword), s.takesWrite h = true →
    (s.isSteward h = false → exec (.keystoneRegisterWrite h v) s = .next s) ∧
    (s.isSteward h = true →
      (∀ d, s.keyRefusal = some d → exec (.keystoneRegisterWrite h v) s =
        .next { s with ks := { s.ks with outcome := 3, detail := d } }) ∧
      (s.keyRefusal = none → s.coursesRun = true → ∃ t, exec (.keystoneRegisterWrite h v) s = .next t ∧
        t = { s with ks := t.ks } ∧ t.ks.seq = s.ks.seq + 1 ∧ t.ks.outcome = 1 ∧ t.ks.force = s.ks.force ∧ t.ks.cmds = s.ks.cmds) ∧
      (s.keyRefusal = none → s.coursesRun = false → s.ks.accepted = none → ∃ t,
        exec (.keystoneRegisterWrite h v) s = .next t ∧ t.ks.force = s.ks.shadow ∧ t.ks.seq = s.ks.seq + 1 ∧ t.ks.outcome = 2 ∧
        t.raster = s.raster))

/-- MAP_CONTROL.APPLY (R29, R96): on the steward's port a condition that fails is shown as the reason of the refusal, and nothing
else changes; else the shadows of masks and spares are in force, and only ranks of channels, with their rows and the commands
that go to them, change beside. -/
def Clause.ApplyTakesMap : Prop :=
  ∀ (s : State) (h : HostId) (v : Dword), s.takesWrite h = true →
    (s.isSteward h = false → exec (.apply h v) s = .next s) ∧
    (s.isSteward h = true →
      (s.applyRefusal ≠ 0 → exec (.apply h v) s =
        .next { s with raster := { s.raster with refused := true, reason := s.applyRefusal } }) ∧
      (s.applyRefusal = 0 → ∃ t, exec (.apply h v) s = .next t ∧
        t = { s with raster := t.raster, chans := t.chans, out := t.out } ∧
        t.raster = { s.raster with mask := s.raster.maskShadow, spare := s.raster.spareShadow, phys := t.raster.phys
                                   refused := t.raster.refused } ∧
        ∀ c : ChanId, t.chans[c] = { s.chans[c] with
          ranks := t.chans[c].ranks, rows := t.chans[c].rows, subs := t.chans[c].subs }))

/-- RANK_HEALTH.CLEAR (R29, R349): on the steward's port every rank in service or DEGRADED is GOOD with its counts at 0, but for
the source of a running migration; other ranks keep their health. -/
def Clause.ClearMakesGood : Prop :=
  ∀ (s : State) (h : HostId) (v : Dword), s.takesWrite h = true →
    (s.isSteward h = false → exec (.clear h v) s = .next s) ∧
    (s.isSteward h = true → ∃ t, exec (.clear h v) s = .next t ∧ t = { s with chans := t.chans } ∧
      ∀ (c : ChanId) (r : RankId),
        let k := s.chans[c].ranks[r]
        let taken : Prop := (k.st = .inService ∨ k.st = .degraded) ∧ ¬(s.migrating c = true ∧ s.chans[c].mig.source = r)
        (taken → t.chans[c].ranks[r] = { k with health := .good, ceHour := 0, ueDay := 0, ueTen := 0, ceRaised := false }) ∧
        (¬taken → t.chans[c].ranks[r] = k))

/-- GO_MEM and GO_CORE (R29, R382, R383): on the steward's port a change that is refused leaves the clocks as they are but for
the refusal and its reason; else it is under way, with the plan's settings of its loop as its target. -/
def Clause.GoStartsChange : Prop :=
  ∀ (s : State) (h : HostId) (v : Dword), s.takesWrite h = true →
    (s.isSteward h = false → exec (.goMem h v) s = .next s ∧ exec (.goCore h v) s = .next s) ∧
    (s.isSteward h = true → ∀ (l : LoopId) (x : Instr),
      (l = 1 ∧ x = .goMem h v ∧ v.getLsbD 30 = false) ∨ (l = 0 ∧ x = .goCore h v ∧ v.getLsbD 31 = false) →
      (s.changeRefusal ≠ 0 → ∃ t, exec x s = .next t ∧ t = { s with clk := t.clk, logs := t.logs } ∧
        t.clk = { s.clk with refused := true, reason := s.changeRefusal }) ∧
      (s.changeRefusal = 0 → ∃ t ch, exec x s = .next t ∧ t.clk.change = some ch ∧ ch.loop = l ∧ ch.former = s.clk.force ∧
        ch.target = s.clk.force.take s.clk.plan l ∧ t.clk.force = s.clk.force ∧ t.raster = s.raster))

/-- Accesses to BAR0 by offset (R9, R21, R29, R400, R419): a write of 4 or 8 bytes writes its dwords, low first; the
identification block is read-only, and the steward block is written on the steward's port alone; a read of the low half of a
pair keeps the high half for the next read of it; an access of another alignment is logged and answered. -/
def Clause.BarAccesses : Prop :=
  ∀ (s : State) (h : HostId) (off : BitVec 16) (wide : Bool) (v : BitVec 64), s.reachesPort h = true →
    (off.toNat % 4 = 0 →
      (wide = false → exec (.registerWrite h off wide v) s = .next (s.write32 h off.toNat (v.extractLsb' 0 32))) ∧
      (wide = true → s.hosts[h].st ≠ .fenced → exec (.registerWrite h off wide v) s =
        .next ((s.write32 h off.toNat (v.extractLsb' 0 32)).write32 h (off.toNat + 4) (v.extractLsb' 32 32))) ∧
      (wide = false → s.hosts[h].st ≠ .fenced → off.toNat < 0x100 → exec (.registerWrite h off wide v) s = .next s) ∧
      (wide = false → s.hosts[h].st ≠ .fenced → 0x4000 ≤ off.toNat → off.toNat < 0x8000 → s.isSteward h = false →
        exec (.registerWrite h off wide v) s = .next s) ∧
      (s.coreRuns = false → exec (.registerPairRead h off wide) s = .next { s with reads := s.reads ++ [(h, off, wide)] }) ∧
      (s.coreRuns = true → wide = false →
        (0x4000 ≤ off.toNat → off.toNat < 0x8000 → s.isSteward h = false →
          exec (.registerPairRead h off wide) s = .next (s.emit (.readData h 0xFFFFFFFF))) ∧
        (s.dark h off.toNat = false → State.pairLow off.toNat = true → ∃ t, exec (.registerPairRead h off wide) s = .next t ∧
          t.out = .readData h (BitVec.ofNat 64 (s.readReg h off.toNat)) :: s.out ∧
          (off.toNat + 4, BitVec.ofNat 32 (s.readReg h (off.toNat + 4))) ∈ t.hosts[h].latch.map (fun x => (x.1 + 4, x.2)) ∧
          t = { s.updHost h fun r => { r with latch := t.hosts[h].latch } with out := t.out }) ∧
        (s.dark h off.toNat = false → State.pairLow off.toNat = false → (∀ x ∈ s.hosts[h].latch, x.1 + 4 ≠ off.toNat) →
          exec (.registerPairRead h off wide) s = .next (s.emit (.readData h (BitVec.ofNat 64 (s.readReg h off.toNat))))))) ∧
    (off.toNat % 4 ≠ 0 → ∃ t u, exec (.registerWrite h off wide v) s = .next t ∧ exec (.registerPairRead h off wide) s = .next u ∧
      s.Sent t (.ack h) ∧ s.Sent u (.readData h 0xFFFFFFFF) ∧ u = { s with logs := u.logs, out := u.out })

/-- Accesses that BAR0 does not accept are logged, writes of a FENCED host are counted, a write is acknowledged and a read returns
all-ones; a request outside BAR0 completes with Unsupported Request, as does every request before READY or in D3hot (R19, R21, R43, R400). -/
def Clause.OddAccesses : Prop :=
  ∀ (s : State) (h : HostId) (write : Bool) (off : BitVec 16) (size : Nat) (addr : BitVec 64), s.portUp h = true →
    let good : Prop := off.toNat % 4 = 0 ∧ (size = 4 ∨ size = 8)
    (s.serves = true → s.hosts[h].pci.d3hot = false → ¬good →
      (write = false → ∃ t, exec (.barAccess h write off size) s = .next t ∧ t = { s with logs := t.logs, out := t.out } ∧
        t.out = .readData h 0xFFFFFFFF :: s.out) ∧
      (write = true → s.hosts[h].st ≠ .fenced → ∃ t, exec (.barAccess h write off size) s = .next t ∧
        t = { s with logs := t.logs, out := t.out } ∧ t.out = .ack h :: s.out) ∧
      (write = true → s.hosts[h].st = .fenced → ∃ t, exec (.barAccess h write off size) s = .next t ∧
        t.hosts[h].ignored = min 0xFFFF (s.hosts[h].ignored + 1) ∧ t.out = .ack h :: s.out)) ∧
    (good → exec (.barAccess h write off size) s = .next s) ∧
    exec (.unsupportedRequest h write addr) s = .next (s.emit (.unsupported h)) ∧
    (s.serves = false ∨ s.hosts[h].pci.d3hot = true → ¬good → exec (.barAccess h write off size) s = .next (s.emit (.unsupported h)))

/-- Doorbells and queue control. -/
def Obligations.QueueRegisters : Prop := Clause.DoorbellsMove ∧ Clause.QueueControl

/-- The host block: a FENCED host, FENCE_ACK, HEARTBEAT and MAILBOX_RING. -/
def Obligations.HostRegisters : Prop :=
  Clause.FencedWritesCount ∧ Clause.FenceAckRecovers ∧ Clause.HeartbeatWrite ∧ Clause.MailboxRings

/-- Raising, steering, masking and coalescing of events. -/
def Obligations.EventRegisters : Prop :=
  Clause.RaiseReaches ∧ Clause.RoutesAreTheStewards ∧ Clause.MaskWrite ∧ Clause.HoldoffEnds ∧ Clause.PulseEnds

/-- The commands of the steward block. -/
def Obligations.StewardRegisters : Prop :=
  Clause.KeystoneWrite ∧ Clause.ApplyTakesMap ∧ Clause.ClearMakesGood ∧ Clause.GoStartsChange

/-- Accesses to the registers by offset. -/
def Obligations.RegisterAccesses : Prop := Clause.BarAccesses ∧ Clause.OddAccesses

/-! ### Ports, host data and compressor engines -/

/-- A reset of a port (R26, R27, R34, R101, R418): its host is DOWN with queues, status bits, masks and vectors at their reset
values, none of its commands is in flight and none completes, it does not hold the role, its partitions are reserved for it, and
no other host changes its state. No word of raster memory changes but of bursts that its WRITE_RAW and ZERO commands had still to
write, up to the point at which they stop, and no ashlar comes to be written. -/
def Clause.PortResets : Prop :=
  ∀ (s : State) (h : HostId) (k : PortResetKind), s.FreshNumbers → ∃ t, exec (.portReset h k) s = .next t ∧
    t.hosts[h].st = .down ∧ t.hosts[h].status = 0 ∧ t.hosts[h].mask = 0 ∧ t.hosts[h].pci = {} ∧
    (∀ q : QueueId, (t.queue h q).enable = false ∧ (t.queue h q).vector.val = q.val) ∧
    t.cmds = s.cmds.filter (fun c => c.iss.host ≠ h) ∧ t.role.holder ≠ some h ∧ (s.role.holder ≠ some h → t.role = s.role) ∧
    (∀ p : Fin 16, t.parts[p] =
      if s.parts[p].owner = some h then { s.parts[p] with reserved := some h } else s.parts[p]) ∧
    s.WritesOnly t ((s.cmds.filter fun c =>
      c.iss.host = h && (c.op == 0x12 || c.op == 0x15)).flatMap fun c => (c.todo ++ s.presentedBursts c.id).map (·.addr)) ∧
    (∀ n ∈ t.raster.written, n ∈ s.raster.written) ∧
    (∀ j, j ≠ h → t.hosts[j].st = s.hosts[j].st ∧ t.hosts[j].queues = s.hosts[j].queues) ∧
    ∀ o ∈ t.out, o ∈ s.out ∨ ∃ j v, o = .msix j v

/-- A link that comes up makes a DOWN host LINKED where the port may link, with its count of ignored writes at 0 (R24), and with
MSI-X enabled (the model's choice, log entry 8); else it changes nothing. -/
def Clause.PortLinks : Prop :=
  ∀ (s : State) (h : HostId),
    let u := s.updHost h fun r => { r with st := .linked, ignored := 0, pci := { r.pci with msixEnable := true } }
    (s.portMayLink h = true → s.hosts[h].st = .down → ∃ t, exec (.portLinkUp h) s = .next t ∧ t.hosts[h].st = .linked ∧
      t.hosts[h].ignored = 0 ∧ u.RaisedOnly t) ∧
    (s.portMayLink h = false ∨ s.hosts[h].st ≠ .down → exec (.portLinkUp h) s = .next s)

/-- Heartbeat deadlines (R40): after HB_TIMEOUT an ATTACHED host is LATE; after twice HB_TIMEOUT a LATE host whose AUTO_FENCE is 1
or that is the steward is fenced with cause 2; before, nothing happens. -/
def Clause.HeartbeatDeadlines : Prop :=
  ∀ (s : State) (h : HostId),
    let age := s.time - s.hosts[h].lastHb
    let limit := s.hosts[h].hbTimeout * 160000000
    (s.hosts[h].st = .attached → limit ≤ age → ∃ t, exec (.hbTimeout h) s = .next t ∧ t.hosts[h].st = .late ∧
      (s.updHost h fun r => { r with st := .late }).RaisedOnly t) ∧
    (s.hosts[h].st ≠ .attached ∨ age < limit → exec (.hbTimeout h) s = .next s) ∧
    (s.hosts[h].st = .late → 2 * limit ≤ age → s.hosts[h].autoFence = true ∨ s.isSteward h = true →
      exec (.heartbeatExpiry h) s = .next (s.fence h 2 0xFF)) ∧
    (s.hosts[h].st ≠ .late ∨ age < 2 * limit ∨ (s.hosts[h].autoFence = false ∧ s.isSteward h = false) →
      exec (.heartbeatExpiry h) s = .next s)

/-- Data that the device has read come in order (R22, R101): they are added to what the command has, up to what it reads; without
a read outstanding nothing happens; a command other than a write that still lacks data goes on waiting; a compressor engine makes
the next line of its input as soon as that has come, and a line that it makes wrong is a fault of the engine (R128); a table that
has come whole is validated and takes its bank, or is refused with the first rule that it breaks (R152, R153); the descriptors of a
PAGE_QUEUE are taken all or none (R167). -/
def Clause.HostDataComes : Prop :=
  ∀ (s : State) (h : HostId) (id : Nat) (data : List Byte),
    (s.reading h id = none → exec (.hostReadCompletion h id data) s = .next s) ∧
    ∀ c, s.reading h id = some c →
      let d : Cmd := { c with buf := c.buf ++ data.take (s.readNeed c - c.buf.length) }
      let u := s.updCmd id fun _ => d
      exec (.hostReadCompletion h id data) s = .next (u.sourced d) ∧
      (c.op ≠ 0x12 → c.op ≠ 0x50 → c.op ≠ 0x13 → d.buf.length < s.readNeed c →
        exec (.hostReadCompletion h id data) s = .next u) ∧
      (c.op = 0x13 → ∀ n, ((List.finRange 8).find? fun n => s.comps[n].job == some id) = some n →
        let lb := lineBytes (c.f 3 0 11)
        let k := c.out.ends.length
        (d.buf.length < (k + 1) * lb → exec (.hostReadCompletion h id data) s = .next u) ∧
        (k < c.f 2 0 16 → (k + 1) * lb ≤ d.buf.length →
          c.out.line (c.f 3 12 2) (max 1 (16384 / lb)) (k + 1 == c.f 2 0 16) (d.inputLine k) = none →
          exec (.hostReadCompletion h id data) s = .next (u.compFault n 1 (2 ^ 64 - 1)))) ∧
      (c.op = 0x20 → c.prog = .source d.buf.length →
        let ch : ChanId := Fin.ofNat 2 (c.f 0 0 1)
        let b : Fin 2 := Fin.ofNat 2 (c.f 0 8 1)
        let ws := (List.range (c.f 3 0 11)).map fun k => BitVec.ofNat 64 (leNat ((d.buf.drop (8 * k)).take 8))
        s.bankActive ch b = false →
          (validate (s.fit ch) (BitVec.ofNat 32 (c.p 4)) (c.f 5 0 12) (ws.map Entry.of) = none →
            let x : Bank := { entries := ws, tableId := BitVec.ofNat 32 (c.p 4), slots := c.f 5 0 12, loaded := true }
            exec (.hostReadCompletion h id data) s =
              .next ((u.updChan ch fun k => { k with banks := vset k.banks b x }).succeed id)) ∧
          ∀ x, validate (s.fit ch) (BitVec.ofNat 32 (c.p 4)) (c.f 5 0 12) (ws.map Entry.of) = some x →
            ∃ t, exec (.hostReadCompletion h id data) s = .next t ∧ t.chans = s.chans ∧
              s.Sent t (.completion c.iss.host c.iss.queue (s.queue c.iss.host c.iss.queue).cqTail
                (completionEntry c.iss.tag { status := .tableRejected, detail := x.rule, r0 := x.idx.getD 0xFFFFFFFF }
                  (s.queue c.iss.host c.iss.queue).phase c.iss.queue (s.queue c.iss.host c.iss.queue).sqHead))) ∧
      (c.op = 0x22 → c.prog = .source d.buf.length → ∃ t, exec (.hostReadCompletion h id data) s = .next t ∧
        (t.seq = s.seq ∨ ∃ ps, ps.length = c.f 2 0 5 ∧ t.seq = { s.seq with pages := s.seq.pages ++ ps }) ∧
        ({ s with seq := t.seq } : State).SessionOnly t)

/-- A read that fails (R22, R101): its command stops, with ABORTED and detail 0x13 when its data are bad, and with TIMEOUT when they do
not come; no word of raster memory changes but of bursts that a WRITE_RAW had still to write, up to the point at which it stops.
Without a read outstanding nothing happens. -/
def Clause.HostDataFails : Prop :=
  ∀ (s : State) (h : HostId) (id : Nat),
    let stops (x : Instr) (a : Answer) : Prop :=
      (s.reading h id = none → exec x s = .next s) ∧
      ∀ c, s.reading h id = some c → ∃ t, exec x s = .next t ∧ (∀ k ∈ t.cmds, k.id ≠ id) ∧
        (c.op ≠ 0x12 → c.op ≠ 0x15 → t.raster.dram = s.raster.dram) ∧
        s.WritesOnly t ((c.todo ++ s.presentedBursts id).map (·.addr)) ∧
        s.Sent t (.completion c.iss.host c.iss.queue (s.queue c.iss.host c.iss.queue).cqTail
          (completionEntry c.iss.tag a (s.queue c.iss.host c.iss.queue).phase c.iss.queue
            (s.queue c.iss.host c.iss.queue).sqHead))
    stops (.hostDataBad h id) { status := .aborted, detail := 0x13 } ∧ stops (.completionTimeout h id) { status := .timeout }

/-- A compressor engine that is in service, free, within its shares and not to be tested takes the command whose turn it is, or
refuses it by the state of its strip; any other engine, or with no command waiting, changes nothing (R126, R127). -/
def Clause.EngineTakesCommand : Prop :=
  ∀ (s : State) (n : Fin 8) (stream : List Byte) (bits : Nat),
    let e := s.comps[n]
    let free : Prop := e.inService = true ∧ e.job = none ∧ e.test = none ∧ n.val < min (poolShares s.ks.force.pool) s.shares
    (¬free ∨ s.nextCompress = none → exec (.compressorDispatch n stream bits) s = .next s) ∧
    (free → ∀ c, s.nextCompress = some c →
      (∀ a, s.compressCheck c = some a → exec (.compressorDispatch n stream bits) s =
        .next (({ s with compTurn := c.host } : State).finish c.id a)) ∧
      (s.compressCheck c = none →
        let t : Strip := (s.findStrip (c.p 5)).getD { idx := 0, gen := 0 }
        let u : State := { s with compTurn := c.host, comps := vmod s.comps n fun x => { x with job := some c.id } }
        exec (.compressorDispatch n stream bits) s =
          .next (u.updCmd c.id fun x => { x with out := State.outputAfter t stream bits c.gainLimit })))

/-- An engine ends its command (R117 to R120): not before its output is all made and written; then output within the gain limit
is the strip, a new one or the one that it extends, and its handle and size are the answer; of output beyond the limit nothing
stays: the answer is NOSHRINK with the size, the records of strips are what they were, no ashlar that it took is written, and no
stored word changes. -/
def Clause.EngineEndsCommand : Prop :=
  ∀ (s : State) (n : Fin 8),
    (s.comps[n].job.bind s.findCmd = none → exec (.writeCompressDone n) s = .next s) ∧
    ∀ c, s.comps[n].job.bind s.findCmd = some c →
      (c.out.ended = false ∨ s.moved c = false → exec (.writeCompressDone n) s = .next s) ∧
      (c.out.ended = true → s.moved c = true →
        let size := ceilDiv (c.out.tail + c.out.bits) 8 - ceilDiv c.out.tail 8 + 8 * c.out.ends.length
        let limit := c.f 2 0 16 * lineBytes (c.f 3 0 11) * (256 - c.f 4 0 8) / 256
        (limit < size → c.op = 0x13 → ∃ t, exec (.writeCompressDone n) s = .next t ∧
          t = s.engineFails n c.id { status := .noshrink, r0 := c.p 5, r1 := size } ∧ t.strips = s.strips ∧
          t.raster.dram = s.raster.dram ∧ t.raster.alloc = s.raster.alloc ∧ ∀ a ∈ c.out.taken, a ∉ t.raster.written) ∧
        (size ≤ limit →
          (∀ t, s.findStrip (c.p 5) = some t → exec (.writeCompressDone n) s =
            .next (((s.putStrip (State.Output.strip c.out t)).succeed c.id t.handle size).engineFree n)) ∧
          (s.findStrip (c.p 5) = none →
            let v := State.Output.strip c.out { idx := 0, gen := 0, part := c.part, words := c.f 3 0 11 }
            (∀ y, s.createStrip v = some y → exec (.writeCompressDone n) s =
              .next ((y.1.succeed c.id y.2.handle size).engineFree n)) ∧
            (s.createStrip v = none → exec (.writeCompressDone n) s =
              .next (s.engineFails n c.id { status := .resourceConflict })))))

/-- A fault of a compressor engine takes it out of service, and its command answers ABORTED with detail 0x14 and leaves nothing of
its output (R119, R128). -/
def Clause.EngineFaults : Prop :=
  ∀ (s : State) (n : Fin 8) (cause : Fin 4) (addr : BitVec 64),
    (cause = 0 ∨ s.comps[n].job = none → exec (.compressorFault n cause addr) s = .next s) ∧
    (cause ≠ 0 → ∀ id c, s.comps[n].job = some id → s.findCmd id = some c → c.op = 0x13 → s.comps[n].test = none →
      ∃ t, exec (.compressorFault n cause addr) s = .next t ∧ t.comps[n].broken = true ∧ t.comps[n].job = none ∧
        t.comps[n].inService = false ∧ (∀ k ∈ t.cmds, k.id ≠ id) ∧ t.strips = s.strips ∧ t.raster.dram = s.raster.dram ∧
        t.raster.alloc = s.raster.alloc ∧ (∀ a ∈ c.out.taken, a ∉ t.raster.written) ∧
        s.Sent t (.completion c.iss.host c.iss.queue (s.queue c.iss.host c.iss.queue).cqTail
          (completionEntry c.iss.tag { status := .aborted, detail := 0x14 } (s.queue c.iss.host c.iss.queue).phase c.iss.queue
            (s.queue c.iss.host c.iss.queue).sqHead)))

/-- Ports: resets, links, heartbeats. -/
def Obligations.PortEvents : Prop := Clause.PortResets ∧ Clause.PortLinks ∧ Clause.HeartbeatDeadlines

/-- Data that the device reads from its hosts. -/
def Obligations.HostReads : Prop := Clause.HostDataComes ∧ Clause.HostDataFails

/-- The compressor engines. -/
def Obligations.CompressorEngines : Prop := Clause.EngineTakesCommand ∧ Clause.EngineEndsCommand ∧ Clause.EngineFaults

/-! ### Codewords, transfers and the arbiter -/

/-- The code of R328 to R332: a word that was encoded decodes CLEAN, or POISON when its poison bit is set, with its data; with
any one of its 80 bits inverted it decodes CORRECTED_1, or POISON, with its data and that position inverted. -/
def Clause.CodeCorrectsOneBit : Prop :=
  ∀ (d : BitVec 64) (p : Bool),
    decodeWord (encodeWord d p) = ⟨if p then .poison else .clean, [], encodeWord d p⟩ ∧
      wordData (encodeWord d p) = d ∧ wordPoison (encodeWord d p) = p ∧
      ∀ k, k < 80 → decodeWord (encodeWord d p ^^^ BitVec.twoPow 80 k) =
        ⟨if p then .poison else .corrected1, [k], encodeWord d p⟩

/-- The decode outcomes of R331, with S1 and S3 as the sums of R329 over the bits that are 1: the positions inverted, the word
after their inversion, and the outcome, which is POISON in place of the table's where position 78 is then 1 (R332). -/
def Obligations.DecodeOutcomes : Prop :=
  ∀ c : BitVec 80,
    let sum (k : Nat) : BitVec 7 := (List.range 79).foldl (fun x i => if c.getLsbD i then x ^^^ gfPow (k * i) else x) 0
    let s1 := sum 1
    let s3 := sum 3
    let odd : Prop := ((List.range 80).filter fun i => c.getLsbD i).length % 2 = 1
    let is (o : DecOut) (ps : List Nat) : Prop :=
      let w := ps.foldl (fun x i => x ^^^ BitVec.twoPow 80 i) c
      decodeWord c = ⟨if o ≠ .uncorrectable ∧ w.getLsbD 78 = true then .poison else o, ps, w⟩
    let single (i : Nat) : Prop := i < 79 ∧ s1 = gfPow i ∧ s3 = gfPow (3 * i)
    let cube : Prop := ∃ k, k < 127 ∧ s1 = gfPow k ∧ s3 = gfPow (3 * k)
    let double (i j : Nat) : Prop :=
      i < j ∧ j < 79 ∧ gfPow i ^^^ gfPow j = s1 ∧ gfPow (3 * i) ^^^ gfPow (3 * j) = s3
    (s1 = 0 → s3 = 0 → ¬odd → is .clean []) ∧
    (s1 = 0 → s3 = 0 → odd → is .corrected1 [79]) ∧
    (∀ i, single i → (odd → is .corrected1 [i]) ∧ (¬odd → is .corrected2 [i, 79])) ∧
    (∀ i j, ¬odd → s1 ≠ 0 → ¬cube → double i j → is .corrected2 [i, j]) ∧
    (¬(s1 = 0 ∧ s3 = 0) → (∀ i, ¬single i) → (odd ∨ s1 = 0 ∨ cube ∨ ∀ i j, ¬double i j) → is .uncorrectable [])

/-- Writing a burst stores its eight codewords and changes no other; flips that are armed for a word of the burst are applied to
it and disarmed (R330, R340). -/
def Clause.BurstReadsBack : Prop :=
  ∀ (s : State) (a : Nat) (ws : List (BitVec 80)), s.CanonicalMemory → a % 64 = 0 → ws.length = 8 →
    let c := (s.raster.loc a).chan
    let t := s.storeBurst a ws
    t.CanonicalMemory ∧ s.WritesOnly t [a] ∧
      ((∀ x, s.chans[c].armed = some x → x.1 / 64 ≠ a / 64) → readBurst t.raster.dram a = ws ∧
        t.chans[c].armed = s.chans[c].armed) ∧
      ∀ w f, s.chans[c].armed = some (w, f) → w / 64 = a / 64 →
        readBurst t.raster.dram a = ws.modify (w % 64 / 8) (· ^^^ f) ∧ t.chans[c].armed = none

/-- The end of a granted transfer (R148, R299, R311): without one, with a first burst that the guard or a replay holds, or while
the channel does not serve or its window has shut, nothing moves; a transfer whose last burst goes out ends, its channel has no
holder, and its requester goes on. No codeword changes but those of its bursts, and of bursts that a command which is stopped by
it had still to write. -/
def Clause.TransferMovesBursts : Prop :=
  ∀ (s : State) (c : ChanId) (staging : Option Nat),
    (s.chans[c].arb.holder = none → exec (.transferComplete c staging) s = .next s.settlePool) ∧
    ∀ r x, s.chans[c].arb.holder = some (r, x) →
      (s.chanServes c = false ∨ s.storming c = true ∨ s.windowShut c x = true →
        exec (.transferComplete c staging) s = .next s.settlePool) ∧
      (∃ t, exec (.transferComplete c staging) s = .next t ∧ s.WritesOnly t (x.bursts.map (·.addr) ++ s.openWrites)) ∧
      (s.chanServes c = true → s.storming c = false → s.windowShut c x = false → staging = none →
        ∀ b rest, x.bursts.drop x.done = b :: rest →
          let l := s.raster.loc b.addr
          let held : Prop := s.actHeldOn (s.xferRank c x.src b) b.addr = true ∨ s.chans[c].subs[l.sub].replay ≠ []
          (held → ∃ t, exec (.transferComplete c staging) s = .next t ∧ t.chans[c].arb.holder = some (r, x) ∧
            t.raster = s.raster ∧ t.cmds = s.cmds) ∧
          (¬held → rest = [] →
            let u := s.doXfer c x.src b
            u.chans[c].arb.holder ≠ none →
              exec (.transferComplete c staging) s = .next ((((u.settleHalf c x).updChan c fun ch =>
                { ch with arb := { ch.arb with holder := none, freed := s.time } }).afterXfer c x.src).settlePool)))

/-- The end of a fill (R91, R92): a fill that is not under way, or of which bursts are still to be written, stays as it is; else
the ashlar fills no more and is written, but for one that a stopped WRITE_COMPRESS had taken, which goes back unwritten (R119). -/
def Clause.FillsComplete : Prop :=
  ∀ (s : State) (n : Nat),
    (s.raster.filling.find? (fun f => f.ashlar = n) = none → exec (.fillComplete n) s = .next s) ∧
    ∀ f, s.raster.filling.find? (fun f => f.ashlar = n) = some f →
      let done := s.updRaster fun r => { r with
        filling := r.filling.filter fun g => g.ashlar ≠ n, written := if f.back then r.written else Raster.insertNat r.written n }
      (f.rest = none → ∀ c, s.findCmd f.cmd = some c →
        ((∃ a ∈ s.raster.ashlarBursts n, s.unwritten c a = true) → exec (.fillComplete n) s = .next s) ∧
        ((∀ a ∈ s.raster.ashlarBursts n, s.unwritten c a = false) → exec (.fillComplete n) s = .next (done.progress f.cmd) ∧
          (c.op ≠ 0x14 → c.op ≠ 0x51 → ∃ t, exec (.fillComplete n) s = .next t ∧ (f.back = false → t.raster.isWritten n = true) ∧
            t.raster.isFilling n = false ∧ t.raster.dram = s.raster.dram))) ∧
      ∀ rest, f.rest = some rest →
        (rest ≠ [] → exec (.fillComplete n) s = .next s) ∧ (rest = [] → exec (.fillComplete n) s = .next done)

/-- A decision of an arbiter (R316, R318, R319): a channel out of service, or with a holder, decides nothing; the parked owner's
request may start without a decision; with no request that is eligible and seen none is granted; else the request granted is
one of these, no other of them has a higher class or, in the same class, a greater age, and it holds the grant with the bursts
that fit. -/
def Clause.ArbiterGrantsHighest : Prop :=
  ∀ (s : State) (c : ChanId),
    (s.chans[c].st ≠ .service ∨ s.chans[c].arb.holder ≠ none → exec (.arbiterDecision c) s = .next s) ∧
    (s.chans[c].st = .service → s.chans[c].arb.holder = none →
      (∀ k, s.parkedStart c (s.eligible c) = some k → k ∈ s.eligible c ∧
        exec (.arbiterDecision c) s = .next (s.grant c k.1 k.2.1 k.2.2)) ∧
      (s.parkedStart c (s.eligible c) = none →
        let ks := (s.eligible c).filter fun k => (s.configure c).visible c k.2.1
        (ks = [] → ∃ t, exec (.arbiterDecision c) s = .next t ∧ t.chans[c].arb.holder = none ∧
          t.chans[c].arb.reqs = s.chans[c].arb.reqs ∧ t = { s with chans := t.chans, buckets := t.buckets }) ∧
        (ks ≠ [] → ∃ t, ∃ k ∈ ks, exec (.arbiterDecision c) s = .next t ∧
          t.chans[c].arb.holder = some (k.1, { k.2.1 with
            bursts := k.2.2, granted := some (k.2.1.granted.getD s.time), closes := s.closesAt c k.2.2, done := 0 }) ∧
          t.chans[c].arb.parked = some k.1 ∧ t.raster = s.raster ∧
          ∀ x ∈ ks, s.ks.force.classOf x.1 < s.ks.force.classOf k.1 ∨
            (s.ks.force.classOf x.1 = s.ks.force.classOf k.1 ∧ s.ageOf c x.2.1 ≤ s.ageOf c k.2.1))))

/-- Pre-emption (R320, R321): a read-modify-write of which the write half is on its way, a transfer that has issued all its
bursts, and one that nothing takes the grant from, keep it; a read-modify-write whose read half has issued becomes one of the
first; any other is withdrawn and presented again with its age, and is counted. No codeword changes but those of the bursts that
had issued, and of bursts that a command which is stopped by them had still to write. -/
def Clause.PreemptionWithdraws : Prop :=
  ∀ (s : State) (c : ChanId) (issued : Nat),
    (s.chans[c].arb.holder = none → exec (.preemption c issued) s = .next s) ∧
    ∀ r x, s.chans[c].arb.holder = some (r, x) →
      let keeps : Prop := x.half = true ∨ (x.bursts.length ≤ issued ∧ x.isRmw = false) ∨ s.chanServes c = false ∨
        s.storming c = true ∨ s.loses c r x = false
      (keeps → exec (.preemption c issued) s = .next s) ∧
      (¬keeps → x.isRmw = true → 0 < issued → exec (.preemption c issued) s = .next (s.protect c r x)) ∧
      (¬keeps → x.isRmw = false ∨ issued = 0 → ∃ t, exec (.preemption c issued) s = .next t ∧
        t.chans[c].arb.holder = none ∧ s.WritesOnly t ((x.bursts.take issued).map (·.addr) ++ s.openWrites) ∧
        (issued ≤ x.done → t.chans[c].arb.preemptions = min 0xFFFF (s.chans[c].arb.preemptions + 1) ∧
          t.raster = s.raster ∧ t.chans[c].arb.reqs[r] = { x with done := 0 } :: s.chans[c].arb.reqs[r]))

/-- A token period (R324): once 64 CCK have passed every bucket gains its RATE, up to its DEPTH, and nothing else changes. -/
def Clause.TokensRefill : Prop :=
  ∀ s : State,
    (s.time < s.refilled + loopTau → exec .tokenRefill s = .next s) ∧
    (s.refilled + loopTau ≤ s.time → ∃ t, exec .tokenRefill s = .next t ∧
      t = { s with buckets := t.buckets, refilled := s.refilled + loopTau } ∧
      ∀ h : HostId, t.buckets[h] = { s.buckets[h] with
        tokens := min (256 * ((s.ks.force.reg[h]).toNat / 2 ^ 16 % 2 ^ 12))
          (s.buckets[h].tokens + (s.ks.force.reg[h]).toNat % 2 ^ 16) })

/-! ### Courses and DRAM service -/

/-- A course boundary (R132, R133, R182, R304): a course that may not end goes on; else it ends with its debt and the next has
the next number, and the next course starts, unless channels in QUIESCE leave for self-refresh. An uncorrectable word of the course
tables or the page list quenches the device instead (R224, R360). -/
def Clause.CoursesFollow : Prop :=
  ∀ (s : State) (bad : Bool),
    (s.courseOver = false → exec (.courseBoundary bad) s = .next s) ∧
    (s.courseOver = true → bad = true → exec (.courseBoundary bad) s = .next (s.enterQuench 2 3)) ∧
    s.endCourse.seq.number = (s.seq.number + 1) % 2 ^ 64 ∧
    s.endCourse.seq.debt = min (2 ^ 32 - 1) (s.seq.debt + s.courseLen - s.grid * 16) ∧
    (s.courseOver = true → bad = false → (∀ c, s.inUse c = true → s.chans[c].st ≠ .quiesce) →
      exec (.courseBoundary bad) s = .next s.endCourse.startCourse) ∧
    (s.courseOver = true → bad = false → (∃ c, s.inUse c = true ∧ s.chans[c].st = .quiesce) →
      let leaving := ([(0 : ChanId), 1].filter fun c => s.endCourse.chans[c].st == .quiesce)
      let u := leaving.foldl (fun acc c => acc.issueSreOn c) s.endCourse
      (∀ c : ChanId, s.chans[c].st = .quiesce → u.chans[c].st = .sreIssued) ∧
        exec (.courseBoundary bad) s = .next s.endCourse.issueSre ∧ (u.coursesRun = true → s.endCourse.issueSre = u.startCourse))

/-- Entries act in their order, each by its own row (R133): a row for an entry whose turn has not come, or of another type, changes
nothing; an entry for which the slot counter has been held for STALL_LIMIT is abandoned, and the counter goes on from there (R156,
R157). -/
def Clause.EntriesActInOrder : Prop :=
  ∀ (s : State) (c : ChanId) (i : Nat) (r : TemperResult),
    let rows : List (Nat × Instr) := [(1, .fetchEntry c i), (2, .refsb c i), (3, .mitig c i), (4, .temperPause c i r)]
    (s.nextEntry c i = none → exec (.stallLimit c i) s = .next s ∧ (∀ x ∈ rows, exec x.2 s = .next s) ∧
      (s.chans[c].latch.contains i = false → exec (.zqcal c i) s = .next s)) ∧
    ∀ e, s.nextEntry c i = some e →
      let all := if s.chans[c].latch.contains i then rows else rows ++ [(6, .zqcal c i)]
      let m := s.mckOf c (s.holdSlot c i e)
      (∀ x ∈ all, e.type ≠ x.1 → exec x.2 s = .next s) ∧
      (s.stalled c i e = true → ∀ x ∈ all, e.type = x.1 → exec x.2 s = exec (.stallLimit c i) s) ∧
      (s.stalled c i e = false → exec (.stallLimit c i) s = .next s) ∧
      (s.stalled c i e = true → ∃ t, exec (.stallLimit c i) s = .next t ∧ t.chans[c].due = s.chans[c].due.erase i ∧
        (mckIn s.chans[c].mts 32000000 ≠ 0 → t.chans[c].base = m ∧ s.timeOf c m + 32000000 ≤ t.chans[c].from_) ∧
        t.raster = s.raster ∧ t.cmds = s.cmds)

/-- The entry rows that act (R140, R144 to R147): REFSB refreshes and adds one to the credit, or skips; MITIG issues RFMsb where a need
is pending and clears it; both block their bank where they issue, and wait for what the guard holds; ZQCAL starts a calibration, and
latches it in its last six slots; TEMPER runs its step; FETCH reads what is given to it, and ends with the last of it. -/
def Clause.EntriesAct : Prop :=
  (∀ (s : State) (c : ChanId) (i : Nat) (e : Entry), s.nextEntry c i = some e → s.stalled c i e = false →
    let r := e.rankId
    let awake : Prop := s.rankAsleep c r = false
    let held : Prop := ∃ u ∈ State.entrySubs e, s.wouldIssue c e u = true ∧ s.indexHeld c r u e.bank = true
    (e.type = 2 → (held → exec (.refsb c i) s = .next s) ∧
      (¬held → ∃ t, exec (.refsb c i) s = .next t ∧ t.raster = s.raster ∧ t.chans[c].due = s.chans[c].due.erase i ∧
        ∀ u ∈ State.entrySubs e,
          (s.wouldIssue c e u = true → s.Sent t (.dramCmd c 6 r u e.bank.val) ∧ (i, u) ∈ t.chans[c].blocks ∧
            (t.bankIdx c r u e.bank).credit = (s.bankIdx c r u e.bank).credit + 1) ∧
          (s.wouldIssue c e u = false → t.bankIdx c r u e.bank = s.bankIdx c r u e.bank))) ∧
    (e.type = 3 → (held → exec (.mitig c i) s = .next s) ∧
      (¬held → ∃ t, exec (.mitig c i) s = .next t ∧ t.raster = s.raster ∧ t.chans[c].due = s.chans[c].due.erase i ∧
        ∀ u ∈ State.entrySubs e,
          (s.wouldIssue c e u = true → s.Sent t (.dramCmd c 7 r u e.bank.val) ∧ (i, u) ∈ t.chans[c].blocks ∧
            (t.bankIdx c r u e.bank).need = false) ∧
          (s.wouldIssue c e u = false → t.bankIdx c r u e.bank = s.bankIdx c r u e.bank))) ∧
    (e.type = 6 → s.chans[c].latch.contains i = false → ∃ t, exec (.zqcal c i) s = .next t ∧ t.raster = s.raster ∧
      t.chans[c].due = s.chans[c].due.erase i ∧
      (awake → (∀ u ∈ State.entrySubs e, s.Sent t (.dramCmd c 10 r u 0)) ∧
        (t.chans[c].latch.contains i = true ↔ e.blockFrom < s.grid))) ∧
    (e.type = 4 → ∀ x : TemperResult, ∃ t, exec (.temperPause c i x) s = .next t ∧ t.raster = s.raster ∧
      t.chans[c].due = s.chans[c].due.erase i ∧ (awake → e.kind = 0 → t.chans[c].ranks[r].temp = x.temp) ∧
      (awake → e.kind ≠ 0 → ∀ u ∈ State.entrySubs e,
        ((State.onSub x u).eye = 0 → t.chans[c].ranks[r].st = .degraded) ∧
        (e.kind = 1 → (State.onSub x u).eye ≠ 0 → (t.chans[c].ranks[r].centring[u]).read =
          (s.chans[c].ranks[r].centring[u]).read + (State.onSub x u).moved))) ∧
    (e.type = 1 →
      let n : LinkId := Fin.ofNat 32 e.link
      let s1 := State.readGiven c i n 0 (s.givenOn c i e 0) s
      let s2 := State.readGiven c i n 1 (s1.givenOn c i e 1) s1
      exec (.fetchEntry c i) s = .next (if (s2.givenTo c i e).isEmpty then s2.passEntry c i e s2.time else s2) ∧
        (s.givenTo c i e = [] → exec (.fetchEntry c i) s = .next (s.passEntry c i e s.time)) ∧ s.WritesOnly s2 s.openWrites)) ∧
  ∀ (s : State) (c : ChanId) (i : Nat) (e : Entry), (s.table c).table[i]? = some e → s.chans[c].latch.contains i = true →
    let ready : Prop := s.chanServes c = true ∧ s.storming c = false ∧ s.mckOf c e.blockFrom ≤ s.mckNow c ∧
      s.chans[c].ranks[e.rankId].zqReady ≤ s.time
    (¬ready → exec (.zqcal c i) s = .next s) ∧
    (ready → ∃ t, exec (.zqcal c i) s = .next t ∧ t.chans[c].latch = s.chans[c].latch.erase i ∧ t.raster = s.raster ∧
      (s.rankAsleep c e.rankId = false → ∀ u ∈ State.entrySubs e, s.Sent t (.dramCmd c 11 e.rankId u 0) ∧
        (i, u) ∈ t.chans[c].blocks ∧ ∀ x ∈ t.chans[c].rows, ¬(x.rank = e.rankId ∧ x.sub = u)))

/-- Refresh credits (R158 to R160, R297): the timer of a bank index takes one off its credit when its interval has passed, down to
-4; at -4 the guard refreshes, and it mitigates for an activate that is held at RAAMMT, each once the slot counter is held and
nothing of the bank index is; otherwise these rows change nothing. -/
def Clause.CreditsAndForced : Prop :=
  ∀ (s : State) (c : ChanId) (r : RankId) (u : SubId) (b : Fin 4),
    let live : Prop := s.rankTrained c r = true ∧ s.rankAsleep c r = false
    let k := s.bankIdx c r u b
    let may : Prop := s.chanServes c = true ∧ s.counterHeld c = true ∧ s.indexHeld c r u b = false
    (live → k.timer ≤ s.time → ∃ t, exec (.refreshCreditTimer c r u b) s = .next t ∧
      t.bankIdx c r u b = { k with
        credit := max (-4) (k.credit - 1), timer := k.timer + (if s.chans[c].hot then 312000 else 624000) } ∧
      t = { s with chans := t.chans } ∧ ∀ d, d ≠ c → t.chans[d] = s.chans[d]) ∧
    (¬live ∨ s.time < k.timer → exec (.refreshCreditTimer c r u b) s = .next s) ∧
    (may → live → k.credit ≤ -4 → ∃ t, exec (.forcedRefresh c r u b) s = .next t ∧
      s.Sent t (.dramCmd c 6 r u b.val) ∧ (t.bankIdx c r u b).credit = k.credit + 1 ∧ t.raster = s.raster) ∧
    (¬may ∨ ¬live ∨ -4 < k.credit → exec (.forcedRefresh c r u b) s = .next s) ∧
    (may → s.chans[c].rfmDue.contains (r, u, b) = true → ∃ t, exec (.forcedRfm c r u b) s = .next t ∧
      s.Sent t (.dramCmd c 7 r u b.val) ∧ (t.bankIdx c r u b).need = false ∧
      t.chans[c].rfmDue = s.chans[c].rfmDue.erase (r, u, b) ∧ t.raster = s.raster) ∧
    (¬may ∨ s.chans[c].rfmDue.contains (r, u, b) = false → exec (.forcedRfm c r u b) s = .next s)

/-- Rows and power-down (R291, R302): a row is closed on its timer and no other; a trained rank that is awake, idle for 64 slots and
named by no entry soon enters power-down with its rows closed, when IDLE_POWER_DOWN is set or it is the spare. -/
def Clause.RowsClose : Prop :=
  ∀ (s : State) (c : ChanId) (u : SubId) (r : RankId) (g : Fin 8) (b : Fin 4),
    (∃ t, exec (.rowClose c u r g b) s = .next t ∧ t = { s with chans := t.chans, out := t.out } ∧
      (∀ d, d ≠ c → t.chans[d] = s.chans[d]) ∧
      t.chans[c] = { s.chans[c] with rows := t.chans[c].rows, subs := t.chans[c].subs } ∧
      ∀ x, x ∈ t.chans[c].rows ↔ x ∈ s.chans[c].rows ∧
        ¬(x.rank = r ∧ x.sub = u ∧ x.group = g ∧ x.bank = b ∧ s.rowDue c x = true)) ∧
    let k := s.chans[c].ranks[r]
    let may : Prop := (s.power.pdIdle = true ∨ k.st = .spare) ∧ s.chanServes c = true ∧ s.rankTrained c r = true ∧
      s.rankAsleep c r = false ∧ k.powerDown = false ∧ k.lastUse + 64 ≤ s.slotsRun c ∧ s.entrySoon c r = false
    (may → ∃ t, exec (.powerDownEntry c r) s = .next t ∧ t = { s with chans := t.chans, out := t.out } ∧
      t.chans[c].ranks[r] = { k with powerDown := true } ∧ ∀ x, x ∈ t.chans[c].rows ↔ x ∈ s.chans[c].rows ∧ x.rank ≠ r) ∧
    (¬may → exec (.powerDownEntry c r) s = .next s)

/-- Write-CRC alerts (R299, R300): the last writes of the subchannel, after those that still wait, are written again in their
order and counted, up to one that the guard holds; the retraining of a storm ends with its hold, of at most 199.6 us. -/
def Clause.AlertsReplay : Prop :=
  ∀ (s : State) (c : ChanId) (u : SubId) (n : Nat),
    (s.chanServes c = false → exec (.writeCrcAlert c u n) s = .next s) ∧
    (s.chanServes c = true →
      let again := s.chans[c].subs[u].replay ++ (s.chans[c].subs[u].kept.take n).reverse
      ∃ t done, exec (.writeCrcAlert c u n) s = .next t ∧ again = done ++ t.chans[c].subs[u].replay ∧
        (∀ k rest, t.chans[c].subs[u].replay = k :: rest → t.actHeld k.addr = true) ∧
        t.raster = { s.raster with dram := done.foldl (fun m k => writeBurst m k.addr k.words) s.raster.dram } ∧
        t.chans[c].replays = min 0xFFFF (s.chans[c].replays + done.length) ∧
        ({ s with raster := t.raster, chans := t.chans, logs := t.logs } : State).RaisedOnly t) ∧
    (s.chans[c].subs[u].storm = false → exec (.stormRetrainDone c u) s = .next s) ∧
    (s.chans[c].subs[u].storm = true → ∀ start, s.chans[c].subs[u].stormAt = some start →
      ∃ t, exec (.stormRetrainDone c u) s = .next t ∧
        t.chans[c].subs[u] = { s.chans[c].subs[u] with storm := false } ∧
        t.chans[c].base = s.chans[c].base ∧ min s.time (start + 31936000) ≤ t.chans[c].from_ ∧
        ({ s with chans := t.chans, logs := t.logs } : State).RaisedOnly t)

/-! ### Self-refresh, training, domains, scrub, health and migration -/

/-- Self-refresh (R304, R305): the channels begin QUIESCE when the conditions have held for the entry delay; their ranks are in
self-refresh once they have entered; a channel that exits has the credits of its ranks at 0 and serves, or trains; otherwise these
rows change nothing. -/
def Clause.SelfRefreshRows : Prop :=
  ∀ (s : State) (c : ChanId),
    let rests (k : ChanId) : Prop := s.chans[k].st = .quenched ∨ s.chans[k].st = .domainOff
    let due : Prop := s.power.srIdle = true ∧ s.idleNow = true ∧ s.sr.idle = false ∧
      (∀ k, s.inUse k = true → s.chans[k].st = .service ∨ rests k) ∧ (∃ k, s.inUse k = true ∧ ¬rests k) ∧
      s.sr.idleFrom + s.power.srDelay * 160000 ≤ s.time
    (due → ∃ t, exec .selfRefreshEntry s = .next t ∧
      (∀ k, s.inUse k = true → s.chans[k].st = .service → t.chans[k].st = .quiesce) ∧
      t.sr = { s.sr with idle := true, wanted := false } ∧ t = { s with sr := t.sr, chans := t.chans }) ∧
    (¬due → exec .selfRefreshEntry s = .next s) ∧
    (s.chans[c].st ≠ .sreIssued → exec (.selfRefreshEntered c) s = .next s) ∧
    (s.chans[c].st = .sreIssued → ∃ t, exec (.selfRefreshEntered c) s = .next t ∧
      (∀ r : RankId, t.chans[c].ranks[r].selfRefresh = true) ∧ s.WritesOnly t s.openWrites) ∧
    ((∀ k, s.inUse k = true → s.chans[k].st ≠ .exiting) → exec .selfRefreshExit s = .next s) ∧
    ((∃ k, s.inUse k = true ∧ s.chans[k].st = .exiting) →
      let u := (s.chansInUse.filter fun k => s.chans[k].st == .exiting).foldl (fun acc k => acc.exitChan s.coursesRun k) s
      let v : State := { u with sr := { u.sr with entries := min 0xFFFF (u.sr.entries + 1), idleFrom := u.time } }
      exec .selfRefreshExit s = .next (v.regrid s.coursesRun).steer ∧
        ∀ k, s.inUse k = true → s.chans[k].st = .exiting → (u.chans[k].st = .service ∨ u.chans[k].st = .training) ∧
          ∀ r ∈ s.liveRanks k, ∀ b : Fin 8, u.chans[k].ranks[r].banks[b].credit = 0)

/-- The end of a rank's training (R288, R307, R357, R382, R393): a rank whose turn it is not changes nothing; a rank that passes has
its temperature and its RFM thresholds read anew; a retired rank that passes its tests is the spare, with its health GOOD, and one
that fails stays retired, in self-refresh; in a RETRAIN the command records the result. -/
def Clause.TrainingEnds : Prop :=
  ∀ (s : State) (c : ChanId) (r : RankId) (res : TrainResult),
    ((∀ k x rest, s.chans[c].service = some (k, x :: rest) → x ≠ r) → exec (.rankTrainingDone c r res) s = .next s) ∧
    ∀ k rest, s.chans[c].service = some (k, r :: rest) →
      let read (t : State) (b : Baseline) : Prop := t.chans[c].ranks[r].temp = b.temp ∧
        t.chans[c].ranks[r].raaimt = b.raaimt ∧ t.chans[c].ranks[r].raammt = b.raammt
      (∀ id b, k = .reinstate id → res = .pass b → s.chans[c].st ≠ .training → ∃ t,
        exec (.rankTrainingDone c r res) s = .next t ∧ t.chans[c].ranks[r].st = .spare ∧ read t b ∧
        t.chans[c].ranks[r].health = .good ∧ t.chans[c].service = none ∧ (∀ x ∈ t.cmds, x.id ≠ id) ∧ t.raster = s.raster) ∧
      (∀ id cause mask, k = .reinstate id → res = .fail cause mask → s.chans[c].st ≠ .training → ∃ t,
        exec (.rankTrainingDone c r res) s = .next t ∧ t.chans[c].ranks[r].st = s.chans[c].ranks[r].st ∧
        t.chans[c].ranks[r].selfRefresh = true ∧
        t.chans[c].service = none ∧ (∀ x ∈ t.cmds, x.id ≠ id) ∧ t.raster = s.raster) ∧
      (∀ id b, k = .retrain id → res = .pass b →
        exec (.rankTrainingDone c r res) s = .next (((s.rankPassed c r b k).nextRank c k rest).rankResult id c r true)) ∧
      (∀ id cause mask, k = .retrain id → res = .fail cause mask → exec (.rankTrainingDone c r res) s =
        .next (((s.logTrainFail c r cause mask).nextRank c k rest).rankResult id c r false)) ∧
      (∀ b, k = .domain ∨ k = .speed → res = .pass b →
        exec (.rankTrainingDone c r res) s = .next ((s.rankPassed c r b k).nextRank c k rest) ∧
        (k = .domain → read (s.rankPassed c r b k) b))

/-- A domain switches when its turn has come (R393, R394): off when nothing in progress needs it, on with its work; a link domain that
goes off leaves no link of it UP; a row for another domain changes nothing. -/
def Clause.DomainsSwitch : Prop :=
  ∀ (s : State) (d : DomainId),
    ((∀ up, s.power.todo.head? ≠ some (d, up)) → exec (.domainSwitch d) s = .next s) ∧
    (s.power.todo.head? = some (d, false) →
      (s.busyDomain d = true → exec (.domainSwitch d) s = .next s) ∧
      (s.busyDomain d = false → exec (.domainSwitch d) s = .next (s.switchOff d) ∧
        (d = 6 ∨ d = 7 → ∃ t, exec (.domainSwitch d) s = .next t ∧ t.power.on = s.power.on &&& ~~~ (BitVec.twoPow 8 d.val) ∧
          t.power.todo = s.power.todo.tail ∧ t.raster = s.raster ∧
          ∀ n : LinkId, n.val < s.part.links → linkDomain n = d → t.links[n].st = .disabled))) ∧
    (s.power.todo.head? = some (d, true) →
      (s.domainOn d.val = true → exec (.domainSwitch d) s = .next s) ∧
      (s.domainOn d.val = false → exec (.domainSwitch d) s = .next (s.switchOn d) ∧
        ∃ t, exec (.domainSwitch d) s = .next t ∧ t.power.on = s.power.on ||| BitVec.twoPow 8 d.val ∧
          t.raster.dram = s.raster.dram))

/-- Patrol scrub (R311, R342 to R344): a pass starts at its period, is late when the last has not ended, and ends with source 62 when
no written ashlar is left; the scrubber presents a write-back that it owes before a queued burst, and that before the patrol, one
transfer at a time, and drops a burst whose ashlar is no longer written. -/
def Clause.ScrubRows : Prop :=
  ∀ (s : State) (c : ChanId),
    let x := s.chans[c].scrub
    let due : Prop := s.scrubs c = true ∧ x.startedAt + x.period * 160000000000 ≤ s.time
    (¬due → exec (.scrubPassStart c) s = .next s) ∧
    (due → x.active = true → x.late = true → exec (.scrubPassStart c) s = .next s) ∧
    (due → x.active = true → x.late = false → ∃ t, exec (.scrubPassStart c) s = .next t ∧
      t.chans[c].scrub = { x with late := true } ∧ t = { s with chans := t.chans, logs := t.logs }) ∧
    (due → x.active = false → ∃ t, exec (.scrubPassStart c) s = .next t ∧ t.chans[c].scrub.active = true ∧
      t.chans[c].scrub.startedAt = s.time ∧ t.chans[c].scrub.next = (s.raster.nextWritten 0).getD 0 ∧
      t = { s with chans := t.chans }) ∧
    (let free : Prop := s.chans[c].arb.reqs[(9 : Fin 12)] = [] ∧ s.chans[c].st = .service
     let holds (a : Nat) : Bool := s.raster.isWritten (s.raster.ashlar a)
     let presents (u : State) (bs : List Burst) : Prop := exec (.scrubTransfer c) s = .next (u.presentXfer c 9 .scrub bs)
     (¬free → exec (.scrubTransfer c) s = .next s) ∧
     (free → ∀ a rest, x.back = a :: rest →
       let u := s.updScrub c fun y => { y with back := rest }
       (holds a = false → exec (.scrubTransfer c) s = .next u) ∧ (holds a = true → presents u [⟨a, .rmw⟩])) ∧
     (free → x.back = [] → ∀ a rest, x.prio = a :: rest →
       let u := s.updScrub c fun y => { y with prio := rest }
       (s.scrubs c = false → exec (.scrubTransfer c) s = .next s) ∧
       (s.scrubs c = true → holds a = false → exec (.scrubTransfer c) s = .next u) ∧
       (s.scrubs c = true → holds a = true → presents u [⟨a, .read⟩])) ∧
     (free → x.back = [] → x.prio = [] →
       let patrols : Prop := s.scrubs c = true ∧ x.active = true ∧ s.patrolDue c = true
       (¬patrols → exec (.scrubTransfer c) s = .next s) ∧
       (patrols → ∀ n, s.raster.nextWritten x.next = some n → ∃ t, exec (.scrubTransfer c) s = .next t ∧
         t = { s with chans := t.chans } ∧ t.chans[c].arb.reqs[(9 : Fin 12)].map (·.bursts) =
           [(s.raster.burstsAt c n (if n = x.next then x.nextBurst else 0)).map fun a => ⟨a, .read⟩]))) ∧
    (let ends : Prop := s.scrubs c = true ∧ x.active = true ∧ s.raster.nextWritten x.next = none ∧ s.scrubIdle c = true
     (ends → ∃ t, exec (.scrubPassComplete c) s = .next t ∧ t.chans[c].scrub.active = false ∧
       (s.updScrub c fun y => { y with active := false, late := false, left := 0, next := 0, nextBurst := 0 }).RaisedOnly t) ∧
     (¬ends → exec (.scrubPassComplete c) s = .next s))

/-- The end of a counting interval of a rank, of an hour, a day or 10 ms since its last, starts its count anew, and no other count,
health or state (R346); before it nothing happens. -/
def Clause.IntervalsRestart : Prop :=
  ∀ (s : State) (c : ChanId) (r : RankId),
    let k := s.chans[c].ranks[r]
    let only (t : State) : Prop := t = { s with chans := t.chans } ∧ ∀ q, q ≠ r → t.chans[c].ranks[q] = s.chans[c].ranks[q]
    let hour := 3600 * 160000000000
    (s.time < k.hourFrom + hour → exec (.healthIntervalEnd c r .hour) s = .next s) ∧
    (k.hourFrom + hour ≤ s.time → ∃ t, exec (.healthIntervalEnd c r .hour) s = .next t ∧ only t ∧
      t.chans[c].ranks[r] = { k with ceHour := 0, ceRaised := false, hourFrom := k.hourFrom + hour } ∧
      t.chans[c].ueSeen = s.chans[c].ueSeen) ∧
    (s.time < k.dayFrom + 24 * hour → exec (.healthIntervalEnd c r .day) s = .next s) ∧
    (k.dayFrom + 24 * hour ≤ s.time → ∃ t, exec (.healthIntervalEnd c r .day) s = .next t ∧ only t ∧
      t.chans[c].ranks[r] = { k with ueDay := 0, dayFrom := k.dayFrom + 24 * hour } ∧
      ∀ x ∈ t.chans[c].ueSeen, x.rank = r → x.day = false) ∧
    (s.time < k.tenFrom + 1600000000 → exec (.healthIntervalEnd c r .tenMs) s = .next s) ∧
    (k.tenFrom + 1600000000 ≤ s.time → ∃ t, exec (.healthIntervalEnd c r .tenMs) s = .next t ∧ only t ∧
      t.chans[c].ranks[r] = { k with ueTen := 0, tenFrom := k.tenFrom + 1600000000 } ∧
      ∀ x ∈ t.chans[c].ueSeen, x.rank = r → x.ten = false)

/-- Migration (R311, R351 to R355): a step presents the next bursts of the lowest ashlar left, to be read and then written, within
PACE, not of one that fills, and none that a read-modify-write holds; with none left and none on its way the cutover gives the
logical rank to the target and retires the source, which is in self-refresh; else the rows change nothing. -/
def Clause.MigrationMoves : Prop :=
  ∀ (s : State) (c : ChanId),
    let m := s.chans[c].mig
    let works : Prop := m.st = .copying ∧ s.chans[c].st = .service ∧ m.transit = []
    let may : Prop := works ∧ s.ks.force.arbEnable.getLsbD 10 = true ∧ m.paced < (s.ks.force.pace).toNat % 256
    (¬may ∨ s.raster.rankHolds m.logical m.ashlar = [] → exec (.migrationTransfer c) s = .next s) ∧
    (may → ∀ n, least (s.raster.rankHolds m.logical m.ashlar) = some n →
      let bs := s.raster.burstsAt c n (if n = m.ashlar then m.burst else 0)
      (s.raster.isFilling n = true ∨ s.merging c bs = true → exec (.migrationTransfer c) s = .next s) ∧
      (s.raster.isFilling n = false → s.merging c bs = false → ∃ t, exec (.migrationTransfer c) s = .next t ∧
        t = { s with chans := t.chans } ∧ t.chans[c].mig.transit = bs ∧ t.chans[c].mig.paced = m.paced + 1 ∧
        t.chans[c].arb.reqs[(10 : Fin 12)].map (·.bursts) = [bs.map fun a => ⟨a, .read⟩])) ∧
    (¬works ∨ s.raster.rankHolds m.logical m.ashlar ≠ [] → exec (.migrationCutover c) s = .next s) ∧
    (works → s.raster.rankHolds m.logical m.ashlar = [] → m.source ≠ m.target → ∃ t, exec (.migrationCutover c) s = .next t ∧
      t.raster.phys[c][m.logical] = some m.target ∧ t.raster.dram = s.raster.dram ∧ t.raster.written = s.raster.written ∧
      t.chans[c].ranks[m.target].st = .inService ∧ t.chans[c].ranks[m.target].health = .good ∧
      t.chans[c].ranks[m.source].st = .retired ∧ t.chans[c].ranks[m.source].selfRefresh = true ∧
      t.chans[c].mig = { m with st := .done } ∧ t.cmds = s.cmds)

/-- The word code corrects any one bit, and stored codewords and bursts read back. -/
def Obligations.CodeAndStore : Prop := Clause.CodeCorrectsOneBit ∧ Clause.CodewordReadsBack ∧ Clause.BurstReadsBack

/-- Window transfers and fills. -/
def Obligations.TransfersAndFills : Prop := Clause.TransferMovesBursts ∧ Clause.FillsComplete

/-- The arbiter and the regulators. -/
def Obligations.ArbiterAndTokens : Prop :=
  Clause.ArbiterGrantsHighest ∧ Clause.PreemptionWithdraws ∧ Clause.TokensRefill

/-- Courses and the entries of their tables. -/
def Obligations.CoursesAndEntries : Prop := Clause.CoursesFollow ∧ Clause.EntriesActInOrder ∧ Clause.EntriesAct

/-- DRAM service outside the entries. -/
def Obligations.DramService : Prop := Clause.CreditsAndForced ∧ Clause.RowsClose ∧ Clause.AlertsReplay

/-- Self-refresh, training and power domains. -/
def Obligations.RestTrainingDomains : Prop := Clause.SelfRefreshRows ∧ Clause.TrainingEnds ∧ Clause.DomainsSwitch

/-- Scrub, rank health and migration. -/
def Obligations.ScrubHealthMigration : Prop := Clause.ScrubRows ∧ Clause.IntervalsRestart ∧ Clause.MigrationMoves

/-! ### The web loop -/

/-- What a row of the CORE domain does while that domain is powered: without its power it does nothing (R13). -/
def Clause.InCore (s : State) (x : Instr) (goes : Prop) : Prop :=
  (s.domainOn 1 = false → exec x s = .next s) ∧ (s.domainOn 1 = true → goes)

/-- An update of the loop comes every 64 CCK (R261, R272): a loop that follows counts takes the correction of its error, which is
the model's formula of the log entry on the loop filter, and an estimate without counts and without error stays; a marker that the
update commits leaves at least 64 tau later, keeps clear of the three symbols of the markers before it, and has a fine delay below
a symbol's 256 parts. -/
def Clause.EstimateCommits : Prop :=
  ∀ s : State, Clause.InCore s .loopUpdate <|
    let corrects : Prop := (s.web.st = .locked ∨ s.web.st = .acquire) ∧ (s.web.stamps ≠ [] ∨ s.loopError ≠ 0)
    (s.time < s.web.updated + 8533 → exec .loopUpdate s = .next s) ∧
    (s.web.updated + 8533 ≤ s.time → ∃ t, exec .loopUpdate s = .next t ∧ s.DrainOnly t ∧ t.web.st = s.web.st ∧
      t.web.count = s.web.count ∧ t.web.cfg = s.web.cfg ∧ t.web.held = s.web.held ∧ s.web.hwm ≤ t.web.hwm ∧
      t.web.updated = s.time ∧
      (corrects → t.web.est = s.correct s.loopError ∧ t.web.stamps = []) ∧ (¬corrects → t.web.est = s.web.est) ∧
      ∀ (n : LinkId), ∀ m ∈ t.links[n].markers, m ∈ s.links[n].markers ∨
        (m.sent = false ∧ s.time + 64 ≤ m.boundary ∧ m.fine < 256 ∧
          ∀ k ∈ s.links[n].markers, k.boundary + 3 * s.symOf n ≤ m.boundary))

/-- Edges of A and B (R257, R258, R275, R276): the inputs take their levels; an edge of both is no count but an illegal one, and no
edge none. A count goes forward where A leads B, which INVERT turns; a reversal is declared when the count has gone REV_HYST back
from the furthest one, and in PASS mode it ends every page that runs; a count back in PRESS mode leaves no marker that has not
left, in every state of the loop. -/
def Clause.CountsMove : Prop :=
  ∀ (s : State) (a b : Bool), Clause.InCore s (.encoderCount a b) <|
    let onA := a != s.web.inA
    let onB := b != s.web.inB
    let fwd := ((quadrature a b - quadrature s.web.inA s.web.inB) % 4 == 1) != s.web.cfg.invert
    let c := if fwd then s.web.count + 1 else s.web.count - 1
    let back := if s.web.reverse then c - s.web.furthest else s.web.furthest - c
    let hyst : Int := (s.ks.force.webCtrl.extractLsb' 0 8).toNat
    let follows : Prop := s.web.st ≠ .off ∧ s.web.st ≠ .lost
    (onA = onB → ∃ w : Web, exec (.encoderCount a b) s = .next { s with web := w } ∧ w.inA = a ∧ w.inB = b ∧
      w.count = s.web.count ∧ w.st = s.web.st ∧ w.est = s.web.est ∧ w.held = s.web.held ∧
      w.illegal = (s.web.illegal || onA)) ∧
    (onA ≠ onB → ∃ t, exec (.encoderCount a b) s = .next t ∧ s.DrainOnly t ∧ t.web.inA = a ∧ t.web.inB = b ∧
      t.web.count = c ∧ t.web.valid = s.web.valid + 1 ∧ t.web.st = s.web.st ∧ t.web.est = s.web.est ∧
      (¬follows → t.web.reverse = s.web.reverse ∧ t.web.held = s.web.held) ∧
      (s.web.st = .acquire → t.web.held = t.web.posOf c) ∧
      (follows → s.web.st ≠ .coasting → hyst ≤ back → t.web.reverse = !s.web.reverse ∧ t.web.furthest = c ∧
        (s.passMode = true → ∀ p ∈ t.seq.pages, p.active = false)) ∧
      (s.web.st = .coasting ∨ back < hyst → t.web.reverse = s.web.reverse) ∧
      (fwd = false → s.passMode = false → ∀ (n : LinkId), ∀ m ∈ t.links[n].markers, m.sent = true))

/-- Lock (R262): ACQUIRE locks with the position where it is after 64 counts within 1/8 of one, or 1 ms without a count; LOCKED
falls to ACQUIRE after 4 counts beyond 1/2 of one, with the position that its counts give; else nothing happens. -/
def Clause.LockChanges : Prop :=
  ∀ s : State, Clause.InCore s .webLockChange <|
    let locks : Prop := s.web.st = .acquire ∧ (64 ≤ s.web.lockRun ∨ s.web.lastCount + 160000000 ≤ s.time)
    let falls : Prop := s.web.st = .locked ∧ 4 ≤ s.web.offRun
    (locks → ∃ t, exec .webLockChange s = .next t ∧ s.DrainOnly t ∧ t.web.st = .locked ∧ t.web.est = s.estNow ∧
      t.links = s.links ∧ t.seq = s.seq) ∧
    (falls → ∃ t, exec .webLockChange s = .next t ∧ s.DrainOnly t ∧ t.web.st = .acquire ∧
      t.web.held = s.web.posOf s.web.count ∧ t.links = s.links ∧ t.seq = s.seq) ∧
    (¬locks → ¬falls → exec .webLockChange s = .next s)

/-- The loop is LOST (R279): it stands where it is, the drain is HALTED, and no marker is left that has not left. -/
def Clause.Lost (s t : State) : Prop :=
  s.DrainOnly t ∧ t.web.st = .lost ∧ t.web.held = s.pos ∧ t.pos = s.pos ∧ t.web.est.v = 0 ∧ t.seq.drain = .halted ∧
    ∀ (n : LinkId), ∀ m ∈ t.links[n].markers, m.sent = true

/-- The condition of an encoder loss holds (R258): a fail-safe for 100 ns, edges less than 2 ns apart, more than 40 counts in 1 us. -/
def Clause.LossHolds (s : State) : EncoderLoss → Prop
  | .failsafe held => 16000 ≤ held
  | .illegal => s.web.illegal = true
  | .overrange => 40 < (s.web.recent.filter fun t => decide (s.time < t + 160000)).length

/-- The encoder is lost (R258, R278, R279): a LOCKED loop coasts from its position at constant velocity, one in ACQUIRE is LOST, one
that coasts counts its valid counts from 0 again, and one in OFF or LOST stays as it is; a condition that does not hold changes
nothing; after COAST_LIMIT of coasting the loop is LOST. -/
def Clause.EncoderIsLost : Prop :=
  ∀ (s : State) (k : EncoderLoss),
    (Clause.InCore s (.encoderLost k) <|
      (¬Clause.LossHolds s k → exec (.encoderLost k) s = .next s) ∧
      (Clause.LossHolds s k →
        (s.web.st = .locked → ∃ t, exec (.encoderLost k) s = .next t ∧ s.DrainOnly t ∧ t.web.st = .coasting ∧
          t.pos = s.pos ∧ t.web.est = { s.estNow with a := 0 } ∧ t.web.coastFrom = s.time ∧ t.web.valid = 0 ∧
          t.web.lossCause = lossCode k ∧ t.links = s.links ∧ t.seq = s.seq) ∧
        (s.web.st = .acquire → ∃ t, exec (.encoderLost k) s = .next t ∧ Clause.Lost s t ∧ t.web.lossCause = lossCode k) ∧
        (s.web.st = .coasting → exec (.encoderLost k) s = .next (s.updWeb fun w =>
          { w with lossCause := lossCode k, valid := 0, illegal := false, recent := [] })) ∧
        (s.web.st = .off ∨ s.web.st = .lost → exec (.encoderLost k) s =
          .next (s.updWeb fun w => { w with valid := 0, illegal := false, recent := [] })))) ∧
    (Clause.InCore s .coastLimit <|
      (s.web.st = .coasting → s.web.coastFrom + s.web.coastUs * 160000 ≤ s.time → ∃ t,
        exec .coastLimit s = .next t ∧ Clause.Lost s t) ∧
      (s.web.st ≠ .coasting ∨ s.time < s.web.coastFrom + s.web.coastUs * 160000 → exec .coastLimit s = .next s))

/-- 64 valid counts within COAST_LIMIT (R278): the loop is LOCKED again with its position as it was, on the count nearest to it of
those that agree with A and B modulo 4; with fewer or later, nothing happens. -/
def Clause.Rebases : Prop :=
  ∀ s : State, Clause.InCore s .encoderRebase <|
    let met : Prop := s.web.st = .coasting ∧ 64 ≤ s.web.valid ∧ s.time < s.web.coastFrom + s.web.coastUs * 160000
    (met → ∃ t, exec .encoderRebase s = .next t ∧ s.DrainOnly t ∧ t.web.st = .locked ∧ t.pos = s.pos ∧
      t.web.count = State.nearestCount s.web s.pos ∧ (t.web.count - s.web.phase) % 4 = 0 ∧ t.links = s.links ∧
      t.seq = s.seq) ∧
    (¬met → exec .encoderRebase s = .next s)

/-- Index edges (R259): outside OFF the count is kept; one that is not a period away from the last is an index slip, counted and
logged with its signed difference from the period, and the loop's state stays. A fail-safe on Z is one log entry and no loss; its
entry's type is a free value, the model's choice of the log entry on INDEX_FAILSAFE. -/
def Clause.IndexEdges : Prop :=
  ∀ s : State,
    let period : Int := (s.ks.force.webCtrl.extractLsb' 8 24).toNat
    let w : Web := { s.web with indexRef := some s.web.count }
    (Clause.InCore s .indexSlip <|
      (s.web.st = .off → exec .indexSlip s = .next s) ∧
      (s.web.st ≠ .off → (∀ r, s.web.indexRef = some r → period = 0 ∨ s.web.count - r = period ∨ s.web.count - r = -period) →
        exec .indexSlip s = .next { s with web := w }) ∧
      ∀ r, s.web.st ≠ .off → s.web.indexRef = some r → period ≠ 0 → s.web.count - r ≠ period → s.web.count - r ≠ -period →
        let d := s.web.count - r
        ∃ e, exec .indexSlip s = .next { s with
            web := { w with slips := satAdd 0xFF w.slips 1 }, logs := { s.logs with error := s.logs.error ++ [e] } } ∧
          e.type = 0x0A04 ∧ e.body.extractLsb' 96 64 = BitVec.ofInt 64 (if d < 0 then d + period else d - period)) ∧
    (Clause.InCore s .indexFailsafe <|
      ∃ e, exec .indexFailsafe s = .next { s with
        free := s.free + 1, logs := { s.logs with error := s.logs.error ++ [e] } })

/-- Marks (R280, R281): an edge that is not MARK_CTRL's or has not just been held for its filter changes nothing; the mark's position
is the loop's at the crossing; an edge outside the window is counted; while marks are off one inside changes nothing; one beyond the
distance from the last is accepted with its position; any other is chatter, counted, and leaves the last mark as it is. -/
def Clause.MarksAreJudged : Prop :=
  ∀ (s : State) (rising : Bool) (held : Nat), Clause.InCore s (.markSeen rising held) <|
    let c := s.ks.force.markCtrl.toNat
    let seen := (rising == (c / 2 ^ 30 % 2 == 0)) && decide (held = c % 2 ^ 14 * 16000)
    let crossed := (s.web.motionAt (s.time - held)).posAt (s.time - held)
    let on : Prop := c / 2 ^ 31 % 2 = 1
    let u := s.travel s.web.reverse crossed
    let lo : Int := (s.ks.force.markWin.extractLsb' 16 16).toInt
    let len : Int := (s.ks.force.markWin.extractLsb' 0 16).toNat
    let inside : Prop := len = 0 ∨ ∃ st, s.web.lastStart = some st ∧ (st + lo) * 65536 ≤ u ∧ u < (st + lo + len) * 65536
    let beyond : Prop := ∀ m, s.web.markLast = some m →
      (c / 2 ^ 16 % 2 ^ 14 : Nat) * (65536 : Int) ≤ (if s.web.reverse then m - crossed else crossed - m)
    (seen = false → exec (.markSeen rising held) s = .next s) ∧
    (seen = true → ¬inside → exec (.markSeen rising held) s =
      .next (s.updWeb fun x => { x with outside := satAdd 0xFF x.outside 1 })) ∧
    (seen = true → inside → ¬on → exec (.markSeen rising held) s = .next s) ∧
    (seen = true → inside → on → beyond → ∃ t, exec (.markSeen rising held) s = .next t ∧ s.RaisedOnly { t with web := s.web } ∧
      t.web = { s.web with markPos := crossed, markLast := some crossed, accepted := satAdd 0xFFFF s.web.accepted 1
                           chatterRaised := false }) ∧
    (seen = true → inside → on → ¬beyond → ∃ t, exec (.markSeen rising held) s = .next t ∧
      s.RaisedOnly { t with web := s.web, logs := s.logs } ∧
      t.web = { s.web with chatter := satAdd 0xFFFF s.web.chatter 1, chatterRaised := true })

/-- A page's boundary (R171): when the position has reached the start line of a page that runs, the page has passed it, once; the
marks' window moves to that line. -/
def Clause.BoundariesPass : Prop :=
  ∀ (s : State) (id : BitVec 16), Clause.InCore s (.pageBoundary id) <|
    (s.findPage id = none → exec (.pageBoundary id) s = .next s) ∧
    ∀ p, s.findPage id = some p →
      let met : Prop := p.active = true ∧ p.passed = false ∧ p.start * 65536 ≤ s.travelNow p.reverse
      (¬met → exec (.pageBoundary id) s = .next s) ∧
      (met → ∃ t, exec (.pageBoundary id) s = .next t ∧ s.DrainOnly t ∧ t.web = { s.web with lastStart := some p.start } ∧
        ∀ q ∈ t.seq.pages, q.id = id → q.passed = true)

/-! ### Lines, frames and markers -/

/-- An engine and its line (R198, R205 to R208, R212): an engine that serves no line, or a raw line that lacks bursts, changes
nothing; a raw line whose bursts have all come fills its slot with them; a compressed line fills its slot with what the stream
decodes to, waits for bursts still to come, and is poisoned when the stream ends, goes wrong, or has no more to read; an engine that
fails is out of service. -/
def Clause.LinesDecode : Prop :=
  ∀ (s : State) (n : LinkId),
    let f := s.links[n].fetch
    (f.busy = false ∨ s.engineServes n = false → exec (.decodeLineComplete n none) s = .next s) ∧
    (∀ a, s.engineServes n = false → exec (.decodeLineComplete n (some a)) s = .next s) ∧
    (∀ a e, s.links[n].engine = some e → s.engines[e].st = .serving → ∃ t,
      exec (.decodeLineComplete n (some a)) s = .next t ∧ t.engines[e].st = .out ∧ t.raster = s.raster ∧ s.DueOnly t ∧
      t.web = s.web) ∧
    ∀ e p u, f.busy = true → s.links[n].engine = some e → s.engines[e].st = .serving → s.findPage f.page = some p →
      s.pageStrip p n = some u →
      let i := p.links[n].taken - 1
      let filled (t : State) (image : List Byte) : Prop :=
        exec (.decodeLineComplete n none) s = .next t ∧ t.raster = s.raster ∧ s.DueOnly t ∧ t.strips = s.strips ∧
          t.links[n].fetch.busy = false ∧ ∀ x ∈ t.links[n].slots, x.page = p.id → x.line = i →
            x.complete = true ∧ x.poison = false ∧ x.image = image
      (u.raw = true → (∃ b ∈ f.want, ∃ k, b.use = .raw k) → exec (.decodeLineComplete n none) s = .next s) ∧
      (u.raw = true → (∀ b ∈ f.want, ∀ k, b.use ≠ .raw k) → f.missing = [] → f.badWords = [] → ∃ t,
        filled t (clearPads u.words ((List.range (lineBytes u.words)).map fun k =>
          match s.engines[e].input.find? fun b => b.1 = k / 64 with
          | some b => byteOf b.2 (k % 64)
          | none => 0))) ∧
      (u.raw = false → f.missing = [] → f.badWords = [] →
        let x := s.engines[e]
        let limit := 512 * firstGap x.input (x.input.length + 1) (x.dec.bit / 512)
        let r := x.dec.line (inputOf x.input limit) (lineBytes u.words)
        (r.2.2 = .full → ¬(p.links[n].firstLine + i + 1 = u.lines ∧ r.1.pending = true) → ∃ t,
          filled t (clearPads u.words r.2.1)) ∧
        (r.2.2 = .full → p.links[n].firstLine + i + 1 = u.lines → r.1.pending = true → ∃ t v,
          exec (.decodeLineComplete n none) s = .next (State.poisonLine v n p u i 4 r.1.bit false) ∧
          v = s.updEngine e t) ∧
        (r.2.2 = .streamEnd → exec (.decodeLineComplete n none) s = .next (s.poisonLine n p u i 2 r.1.bit true)) ∧
        (r.2.2 = .error → exec (.decodeLineComplete n none) s = .next (s.poisonLine n p u i 3 r.1.bit true)) ∧
        (r.2.2 = .short → (∃ b ∈ f.want, ∃ k, b.use = .stream k) → exec (.decodeLineComplete n none) s = .next s) ∧
        (r.2.2 = .short → (∀ b ∈ f.want, ∀ k, b.use ≠ .stream k) →
          exec (.decodeLineComplete n none) s = .next (s.poisonLine n p u i 1 r.1.bit true)))

/-- LINE frames (R234, R238, R250, R254): no frame goes out when there is none to send, the link carries none, the board cannot take
one, the lane is busy, or the slot is not complete; otherwise the frame has the line's count, page and number, its last-line flag
and wave bank, and POISON, BLANK or NO_DATA in place of the payload where it must; an uncorrectable word that is read while the
payload goes out ends the frame early, after the payload symbols already sent. -/
def Clause.LineFrames : Prop :=
  ∀ (s : State) (n : LinkId) (ue : SlotRead),
    (s.nextFrame n = none → exec (.lineFrame n ue) s = .next s) ∧
    ∀ p i, s.nextFrame n = some (p, i) →
      let l := p.links[n]
      let clear := s.carries n && s.boardTakes n (l.lineNo i) && decide (s.links[n].laneFree ≤ s.time)
      let flags (flag : Nat) : Nat := flag + (if i + 1 = l.lines then 4 else 0) + 16 * (s.waveBank n l.pitch).val
      let words := if l.blank then s.links[n].board.maxWords else s.pageWords l
      let out (flag : Nat) (image : List Byte) : Out := s.frameOf n 1 (flags flag) words (l.lineNo i) p.id i image
      let sends (o : Out) : Prop := ∃ t, exec (.lineFrame n ue) s = .next t ∧ s.DrainOnly t ∧ s.Sent t o ∧
        t.links[n].seq = s.links[n].seq + 1 ∧ t.links[n].held = s.links[n].held ++ [l.lineNo i] ∧
        (∀ k, k ≠ n → t.links[k] = s.links[k])
      (clear = false → exec (.lineFrame n ue) s = .next s) ∧
      (clear = true → l.blank = true → sends (out 2 [])) ∧
      (clear = true → l.blank = false → s.slotOf n p.id i = none → exec (.lineFrame n ue) s = .next s) ∧
      (clear = true → l.blank = false → ∀ x, s.slotOf n p.id i = some x →
        let wide : Prop := s.links[n].board.maxWords < s.pageWords l
        (x.complete = false → exec (.lineFrame n ue) s = .next s) ∧
        (x.complete = true → wide → sends (out 8 [])) ∧
        (x.complete = true → ¬wide → x.poison = true → sends (out 1 [])) ∧
        (x.complete = true → ¬wide → x.poison = false →
          (ue = .good → sends (out 0 x.image)) ∧ (∀ a, ue = .badBefore a → sends (out 1 [])) ∧
          ∀ a k, ue = .badDuring a k → sends (.abortedFrame n
            (frameHeader n 1 (flags 0) words (l.lineNo i) p.id s.links[n].seq i) (x.image.take k))))

/-- The deadline of a line whose slot is not complete (R238): a frame with NO_DATA goes out and is counted, or, when the board
cannot take it or the lane is busy, no frame is sent for the line; otherwise nothing happens. -/
def Clause.NoDataFrames : Prop :=
  ∀ (s : State) (n : LinkId),
    (s.nextFrame n = none → exec (.noData n) s = .next s) ∧
    ∀ p i, s.nextFrame n = some (p, i) →
      let l := p.links[n]
      let complete := l.blank || ((s.slotOf n p.id i).map (·.complete)).getD false
      let due := s.carries n && !complete && s.deadline n p i
      let takes := s.boardTakes n (l.lineNo i) && decide (s.links[n].laneFree ≤ s.time)
      (due = false → exec (.noData n) s = .next s) ∧
      (due = true → takes = false → exec (.noData n) s =
        .next (s.updPageLink p.id n fun k => { k with frame := i + 1 })) ∧
      (due = true → takes = true → ∃ t, exec (.noData n) s = .next t ∧ s.DrainOnly t ∧
        t.links[n].noData = satAdd 0xFFFF s.links[n].noData 1 ∧
        s.Sent t (s.frameOf n 1 (8 + (if i + 1 = l.lines then 4 else 0) + 16 * (s.waveBank n l.pitch).val)
          (s.pageWords l) (l.lineNo i) p.id i []))

/-- A marker at its boundary (R235, R251, R253, R273): none leaves before it; it leaves when the link carries, and the board holds
the frames up to its line no more; else its line is skipped and counted. -/
def Clause.MarkersLeave : Prop :=
  ∀ (s : State) (n : LinkId),
    let first := s.links[n].markers.find? fun m => !m.sent
    (first = none → exec (.fireMarker n) s = .next s) ∧
    ∀ m, first = some m →
      (s.time < m.boundary → exec (.fireMarker n) s = .next s) ∧
      (m.boundary ≤ s.time → s.carries n = true → ∃ t, exec (.fireMarker n) s = .next t ∧
        t = { s with links := t.links, out := .marker n m.boundary m.fine (BitVec.ofNat 8 m.count) :: s.out } ∧
        t.links[n].markers = s.links[n].markers.map (fun k => if k = m then { k with sent := true } else k) ∧
        t.links[n].sinceEcho = s.links[n].sinceEcho + 1 ∧ t.links[n].lastMark = some m.boundary ∧
        (∀ h ∈ t.links[n].held, h ∈ s.links[n].held ∧ h ≠ m.count) ∧
        t.links[n].slots = s.links[n].slots ∧ ∀ k, k ≠ n → t.links[k] = s.links[k]) ∧
      (m.boundary ≤ s.time → s.carries n = false → ∃ t, exec (.fireMarker n) s = .next t ∧
        s.DrainOnly t ∧ m ∉ t.links[n].markers ∧ t.web = { s.web with skipped := satAdd 0xFFFF s.web.skipped 1 } ∧
        ∀ x ∈ t.links[n].slots, x.page = m.page → x.line ≠ m.line)

/-- A fire instant (R171, R218): the line whose marker has left and whose instant has passed has fired, and its slot is free. -/
def Clause.LinesFire : Prop :=
  ∀ (s : State) (n : LinkId),
    let first := s.links[n].markers.find? fun m => m.sent && decide (m.instant ≤ s.time)
    (first = none → exec (.fireInstant n) s = .next s) ∧
    ∀ m, first = some m → ∃ t, exec (.fireInstant n) s = .next t ∧ s.DrainOnly t ∧ m ∉ t.links[n].markers ∧
      t.web = s.web ∧ ∀ x ∈ t.links[n].slots, x.page = m.page → x.line ≠ m.line

/-! ### Links: training, return frames and losses -/

/-- A link falls to DOWN with a cause (R252). -/
def Clause.Down (s t : State) (n : LinkId) (cause : Nat) : Prop :=
  s.LinkOnly t n ∧ t.links[n].st = .down ∧ t.links[n].downCause = cause ∧ t.links[n].markers = s.links[n].markers ∧
    t.links[n].slots = s.links[n].slots

/-- A link's training has failed with a cause (R241, R242): it is UNTRAINED. -/
def Clause.Failed (s t : State) (n : LinkId) (cause : Nat) : Prop :=
  s.DrainOnly t ∧ t.links[n].step = .idle ∧ t.links[n].trainCmd = none ∧ t.links[n].trainCause = cause ∧
    t.links[n].st = .untrained ∧ ∀ k, k ≠ n → t.links[k] = s.links[k]

/-- A return frame that is not valid is discarded and counted (R248): one whose payload has not the length of its type or whose CRC
is wrong, of every type, and one that is none of the types. -/
def Clause.BadReturns : Prop :=
  ∀ (s : State) (n : LinkId) (f : ReturnFrame),
    let dropped : State := s.updLink n fun k => { k with badReturns := k.badReturns + 1 }
    exec (.invalidReturnFrame n) s = .next dropped ∧
    (goodReturn f 1 16 16 = false → exec (.statusFrame n f) s = .next dropped) ∧
    (goodReturn f 2 1 240 = false → exec (.messageFrame n f) s = .next dropped) ∧
    (goodReturn f 3 0 0 = false → exec (.ackFrame n f) s = .next dropped) ∧
    (goodReturn f 4 32 32 = false → exec (.identFrame n f) s = .next dropped) ∧
    (goodReturn f 5 0 0 = false → ∀ rt, exec (.echoReply n f rt) s = .next dropped) ∧
    (goodReturn f 6 2304 2304 = false → exec (.testFrame n f) s = .next dropped)

/-- Training (R241): 1,024 symbols of comma alignment send IDENT_REQ, the board's answer to it sends the 256 TEST frames, the board's
TEST frames and STATUS lead to MEASURE, and MEASURE sends 64 ECHO frames; a declaration out of range, a frame gone wrong and a step
beyond its limit fail the training with its cause; outside its step each does nothing to it. -/
def Clause.TrainingGoes : Prop :=
  ∀ (s : State) (n : LinkId),
    let l := s.links[n]
    let at_ (x : TrainStep) : Prop := l.step = x ∧ s.time ≤ l.stepStart + x.limit
    let due : Prop := l.step = .measure ∧ l.echoes < 64 ∧ l.stepStart + l.echoes * 4096 * s.symOf n ≤ s.time
    let heard : State := s.updLink n fun k => { k with lastReturn := s.time }
    (∀ k, at_ .search → 1024 ≤ k → ∃ t, exec (.commaAlignment n k) s = .next t ∧
      s.Sent t (s.frameOf n 6 0 0 0 0xFFFF 0 []) ∧ t.links[n].awaited = l.awaited ++ [l.seq] ∧
      t.links[n].step = .ident ∧ t.links[n].stepStart = s.time ∧ t = { s with links := t.links, out := t.out }) ∧
    (∀ k, ¬at_ .search ∨ k < 1024 → exec (.commaAlignment n k) s = .next s) ∧
    (∀ f, goodReturn f 4 32 32 = true →
      let b := Board.of (BitVec.ofNat 256 (leNat f.payload))
      let sound : Prop := 2 ≤ b.buffers ∧ b.buffers ≤ 16 ∧ 1 ≤ b.maxWords ∧ b.maxWords ≤ 1024
      (¬at_ .ident ∨ f.seq ∉ l.awaited → exec (.identFrame n f) s = .next heard) ∧
      (at_ .ident → f.seq ∈ l.awaited → b.rates.getLsbD l.rate.val = false → ∃ t,
        exec (.identFrame n f) s = .next t ∧ Clause.Failed s t n 3) ∧
      (at_ .ident → f.seq ∈ l.awaited → b.rates.getLsbD l.rate.val = true → ¬sound → ∃ t,
        exec (.identFrame n f) s = .next t ∧ Clause.Failed s t n 4) ∧
      (at_ .ident → f.seq ∈ l.awaited → b.rates.getLsbD l.rate.val = true → sound → ∃ t,
        exec (.identFrame n f) s = .next t ∧ t.links[n].board = b ∧ t.links[n].step = .test ∧
        t.links[n].seq = l.seq ∧ t.out.length = s.out.length + 256 ∧
        t = { s with links := t.links, out := t.out })) ∧
    (∀ f, goodReturn f 6 2304 2304 = true →
      (¬at_ .test → exec (.testFrame n f) s = .next heard) ∧
      (at_ .test → ∃ t, exec (.testFrame n f) s = .next t ∧ t = { s with links := t.links } ∧
        t.links[n].testFrames = l.testFrames + 1 ∧
        t.links[n].testBad = (l.testBad || decide (f.payload ≠ testPayload)) ∧
        t.links[n].step = (if 256 ≤ l.testFrames + 1 then .status else .test))) ∧
    (∀ f, goodReturn f 1 16 16 = true → at_ .status →
      let bad := (BitVec.ofNat 128 (leNat f.payload)).extractLsb' 32 16
      (l.testBad = true ∨ bad ≠ 0#16 → ∃ t, exec (.statusFrame n f) s = .next t ∧ Clause.Failed s t n 5) ∧
      (l.testBad = false → bad = 0#16 → ∃ t, exec (.statusFrame n f) s = .next t ∧
        t.links[n].step = .measure ∧ t.links[n].stepStart = s.time ∧ t = { s with links := t.links })) ∧
    ((due → ∃ t, exec (.measureEcho n) s = .next t ∧ s.Sent t (s.frameOf n 5 0 0 0 0xFFFF 0 []) ∧
        t.links[n].echoes = l.echoes + 1 ∧ t = { s with links := t.links, out := t.out }) ∧
      (¬due → exec (.measureEcho n) s = .next s)) ∧
    (l.step = .idle ∨ s.time ≤ l.stepStart + l.step.limit → exec (.trainingStepTimeout n) s = .next s) ∧
    (l.step ≠ .idle → l.stepStart + l.step.limit < s.time → ∃ t, exec (.trainingStepTimeout n) s = .next t ∧
      Clause.Failed s t n l.step.cause)

/-- The end of training (R243, R244): with 64 round trips that differ by no more than 8, the link's LAT is theirs, its SEQ is 0, its
line count starts at 0 for the lines that have no marker yet, and it is UP, or in REJOIN where a page that runs has lines of it or
it was DOWN; one that is UP stays UP (R242). More apart, training fails with cause 6. -/
def Clause.TrainingPasses : Prop :=
  ∀ (s : State) (n : LinkId) (f : ReturnFrame) (rt : Nat), goodReturn f 5 0 0 = true → f.seq ∈ s.links[n].awaited →
    let l := s.links[n]
    let trips := rt :: l.trips
    let spread := trips.foldl max 0 - trips.foldl min rt
    let taken := (s.heard n).answered n f.seq
    l.step = .measure →
      (l.stepStart + TrainStep.measure.limit < s.time → exec (.echoReply n f rt) s = .next taken) ∧
      (s.time ≤ l.stepStart + TrainStep.measure.limit →
        (trips.length < 64 → exec (.echoReply n f rt) s = .next (taken.updLink n fun k => { k with trips := trips })) ∧
        (64 ≤ trips.length → 8 < spread → ∃ t, exec (.echoReply n f rt) s = .next t ∧ Clause.Failed s t n 6) ∧
        (64 ≤ trips.length → spread ≤ 8 → ∃ t, exec (.echoReply n f rt) s = .next t ∧ s.DrainOnly t ∧
          t.links[n].lat = (latOf l.board trips).toNat ∧ t.links[n].step = .idle ∧ t.links[n].seq = 0 ∧
          (s.hasLines n = false → t.links[n].count = 0) ∧ t.links[n].held = [] ∧
          (l.st = .untrained → t.links[n].st = (if s.hasLines n = true then .rejoin else .up)) ∧
          (l.st = .down → t.links[n].st = .rejoin) ∧
          (l.st ≠ .untrained → l.st ≠ .down → t.links[n].st = l.st) ∧ ∀ k, k ≠ n → t.links[k] = s.links[k]))

/-- Latency tracking (R245): an ECHO goes out after 4,096 markers, in a gap, whatever became of the one before; its reply moves LAT
by at most one toward the median of the last eight, and a median that is more than 64 from the LAT of training brings the link
DOWN with cause 5; a reply to no ECHO of the device only shows that the board is there. -/
def Clause.LatencyTracks : Prop :=
  ∀ (s : State) (n : LinkId) (f : ReturnFrame) (rt : Nat),
    let l := s.links[n]
    let due := s.carries n && decide (4096 ≤ l.sinceEcho) && s.gapFits n 22
    (due = false → exec (.echoTracking n) s = .next s) ∧
    (due = true → ∃ t, exec (.echoTracking n) s = .next t ∧
      t = { s with links := t.links, out := s.frameOf n 5 0 0 0 0xFFFF 0 [] :: s.out } ∧
      t.links[n].sinceEcho = l.sinceEcho - 4096 ∧ t.links[n].awaited = [l.seq] ∧ ∀ k, k ≠ n → t.links[k] = s.links[k]) ∧
    (goodReturn f 5 0 0 = true → f.seq ∉ l.awaited → exec (.echoReply n f rt) s = .next (s.heard n)) ∧
    (goodReturn f 5 0 0 = true → f.seq ∈ l.awaited → l.step ≠ .measure →
      (s.carries n = false → exec (.echoReply n f rt) s = .next ((s.heard n).answered n f.seq)) ∧
      (s.carries n = true →
        let target := latOf l.board ((rt :: l.trips).take 8)
        ∃ t, exec (.echoReply n f rt) s = .next t ∧ s.LinkOnly t n ∧ t.links[n].awaited = l.awaited.erase f.seq ∧
          t.links[n].lat ≤ l.lat + 1 ∧ l.lat ≤ t.links[n].lat + 1 ∧
          ((target - l.latTrained).natAbs ≤ 64 → t.links[n].st = .up) ∧
          (64 < (target - l.latTrained).natAbs → t.links[n].st = .down ∧ t.links[n].downCause = 5)))

/-- STATUS frames of a link that carries (R247, R252): four frames discarded within 256 markers bring it DOWN with cause 4, the
board's fault bit with cause 6, and else the payload is kept; 100 us without a return frame, a loss of signal for 1 us and sixteen
code errors within 4,096 symbols bring an UP link DOWN with causes 3, 1 and 2. -/
def Clause.LinksFall : Prop :=
  ∀ (s : State) (n : LinkId),
    let l := s.links[n]
    (∀ f, goodReturn f 1 16 16 = true → ¬(l.step = .status ∧ s.time ≤ l.stepStart + TrainStep.status.limit) →
      let w := BitVec.ofNat 128 (leNat f.payload)
      let bad := (w.extractLsb' 32 16).toNat
      let recent := l.statuses.filter fun x => decide (l.marked ≤ x.2 + 256)
      let lost := recent.any fun x => decide (4 ≤ (bad + 65536 - x.1) % 65536)
      let kept : State := (s.heard n).updLink n fun k => { k with
        lastStatus := w, statuses := recent ++ [(bad, l.marked)] }
      (s.carries n = false ∨ (lost = false ∧ w.getLsbD 81 = false) → exec (.statusFrame n f) s = .next kept) ∧
      (s.carries n = true → lost = true → ∃ t, exec (.statusFrame n f) s = .next t ∧ Clause.Down s t n 4) ∧
      (s.carries n = true → lost = false → w.getLsbD 81 = true → ∃ t, exec (.statusFrame n f) s = .next t ∧
        Clause.Down s t n 6)) ∧
    (∀ k, l.st ≠ .up → exec (.lossOfSignal n k) s = .next s ∧ exec (.codeErrors n k) s = .next s ∧
      exec (.statusTimeout n) s = .next s) ∧
    (∀ k, k < 160000 → exec (.lossOfSignal n k) s = .next s) ∧
    (∀ k, 4096 < k → exec (.codeErrors n k) s = .next s) ∧
    (s.time < l.lastReturn + 16000000 → exec (.statusTimeout n) s = .next s) ∧
    (l.st = .up → (∀ k, 160000 ≤ k → ∃ t, exec (.lossOfSignal n k) s = .next t ∧ Clause.Down s t n 1) ∧
      (∀ k, k ≤ 4096 → ∃ t, exec (.codeErrors n k) s = .next t ∧ Clause.Down s t n 2) ∧
      (l.lastReturn + 16000000 ≤ s.time → ∃ t, exec (.statusTimeout n) s = .next t ∧ Clause.Down s t n 3))

/-- Messages (R240, R248): a message of the board is kept while fewer than eight are, else it is dropped; the ACK of the frame sent
completes its LINK_MSG with the length, and 1 ms without a gap or without an ACK completes it with TIMEOUT. -/
def Clause.MessagesEnd : Prop :=
  ∀ (s : State) (n : LinkId),
    let l := s.links[n]
    let heard : State := s.updLink n fun k => { k with lastReturn := s.time }
    let ends (x : Instr) (m : Sending) (a : Cmd → Answer) : Prop := ∃ t, exec x s = .next t ∧ s.DrainOnly t ∧
      (∀ c ∈ t.cmds, c.id ≠ m.cmd) ∧ ∀ c, s.findCmd m.cmd = some c →
        s.Sent t (.completion c.iss.host c.iss.queue (s.queue c.iss.host c.iss.queue).cqTail
          (completionEntry c.iss.tag (a c) (s.queue c.iss.host c.iss.queue).phase c.iss.queue
            (s.queue c.iss.host c.iss.queue).sqHead))
    (∀ f, goodReturn f 2 1 240 = true → l.inbox.length < 8 → ∃ t, exec (.messageFrame n f) s = .next t ∧
      t.links[n].inbox = l.inbox ++ [f.payload] ∧ s.LinkOnly t n) ∧
    (∀ f, goodReturn f 2 1 240 = true → 8 ≤ l.inbox.length → ∃ t, exec (.messageFrame n f) s = .next t ∧
      t = { heard with logs := t.logs }) ∧
    (∀ f, goodReturn f 3 0 0 = true → (∀ m, l.sending = some m → m.seq ≠ some f.seq) →
      exec (.ackFrame n f) s = .next heard) ∧
    (∀ f m, goodReturn f 3 0 0 = true → l.sending = some m → m.seq = some f.seq →
      ends (.ackFrame n f) m fun c => { r0 := c.buf.length }) ∧
    (l.sending = none → exec (.messageGapTimeout n) s = .next s ∧ exec (.ackTimeout n) s = .next s) ∧
    ∀ m, l.sending = some m →
      (m.seq = none → m.start + 160000000 ≤ s.time → ends (.messageGapTimeout n) m fun _ => { status := .timeout }) ∧
      (m.seq ≠ none ∨ s.time < m.start + 160000000 → exec (.messageGapTimeout n) s = .next s) ∧
      (m.seq ≠ none → m.sentAt + 160000000 ≤ s.time → ends (.ackTimeout n) m fun _ => { status := .timeout }) ∧
      (m.seq = none ∨ s.time < m.sentAt + 160000000 → exec (.ackTimeout n) s = .next s)

/-- The web loop: estimates, counts, lock, loss. -/
def Obligations.WebLoop : Prop :=
  Clause.EstimateCommits ∧ Clause.CountsMove ∧ Clause.LockChanges ∧ Clause.EncoderIsLost ∧ Clause.Rebases

/-- The index, marks and page boundaries. -/
def Obligations.MarksAndBoundaries : Prop := Clause.IndexEdges ∧ Clause.MarksAreJudged ∧ Clause.BoundariesPass

/-- Lines on their way: decoding, frames, markers and fire instants. -/
def Obligations.LinesAndMarkers : Prop :=
  Clause.LinesDecode ∧ Clause.LineFrames ∧ Clause.NoDataFrames ∧ Clause.MarkersLeave ∧ Clause.LinesFire

/-- Links: training, latency, return frames, losses and messages. -/
def Obligations.LinkEvents : Prop :=
  Clause.BadReturns ∧ Clause.TrainingGoes ∧ Clause.TrainingPasses ∧ Clause.LatencyTracks ∧ Clause.LinksFall ∧ Clause.MessagesEnd

/-! ### Clocks -/

/-- Nothing but the clocks, what raising sources does, and the logs has changed. -/
def Clause.ClockOnly (s t : State) : Prop :=
  t = { s with hosts := t.hosts, events := t.events, out := t.out, clk := t.clk, logs := t.logs } ∧ ∃ o, t.out = o ++ s.out

/-- An orderly stop has run for a loop (R380): it is STOPPED, the drain runs no more, no marker waits to leave, and channels in
service are on their way to self-refresh; raster memory and the commands in flight are as they were. -/
def Clause.StopRan (s t : State) (l : LoopId) : Prop :=
  t.clk.stopped = true ∧ t.clk.loops[l].st = .stopped ∧ t.seq.drain ≠ .running ∧
    (∀ (n : LinkId), ∀ m ∈ t.links[n].markers, m.sent = true) ∧ t.raster = s.raster ∧ t.cmds = s.cmds ∧
    ∀ c : ChanId, s.inUse c = true → s.chans[c].st = .service → t.chans[c].st = .quiesce

/-- The reference (R369, R372, R379): when four of its periods are missed every locked loop coasts from now on, and no other loop
changes; when it has been there for 1,024 periods coasting loops count windows afresh, and their spread starts at the mean. -/
def Clause.ReferenceComesAndGoes : Prop :=
  ∀ (s : State) (n : Nat),
    (s.clk.refOk = false ∨ n < 4 → exec (.refLost n) s = .next s) ∧
    (s.clk.refOk = true → 4 ≤ n → ∃ t, exec (.refLost n) s = .next t ∧ Clause.ClockOnly s t ∧ t.clk.refOk = false ∧
      ∀ l : LoopId, (s.clk.loops[l].st = .locked → t.clk.loops[l].st = .coasting ∧ t.clk.loops[l].coastFrom = s.time) ∧
        (s.clk.loops[l].st ≠ .locked → t.clk.loops[l] = s.clk.loops[l])) ∧
    (s.clk.refOk = true ∨ s.boot.stage = 0 ∨ n < 1024 → exec (.refPresent n) s = .next s) ∧
    (s.clk.refOk = false → s.boot.stage ≠ 0 → 1024 ≤ n → ∃ t, exec (.refPresent n) s = .next t ∧
      t = { s with clk := t.clk } ∧ t.clk.refOk = true ∧ ∀ l : LoopId,
        let mode := (s.clk.force.spread l).1
        t.clk.loops[l] = if s.clk.loops[l].st = .coasting then
            { s.clk.loops[l] with inTol := 0, window := s.time
                                  spread := if mode = 0 then none else some (s.time, meanPlace mode) }
          else s.clk.loops[l])

/-- Windows of a loop that is not coasting, of 2.56 us each (R372, R373, R382): the 16th window in a row within 300 ppm locks a loop in ACQUIRE or
RELOCK, and a change of a loop other than MEM has then ended on its new settings; the second in a row beyond 1,000 ppm makes a
locked loop coast; a loop that is off or stopped does not change its state. -/
def Clause.WindowsCount : Prop :=
  ∀ (s : State) (l : LoopId) (ppm err : Int),
    let k := s.clk.loops[l]
    let ends : Prop := k.window + 409600 ≤ s.time
    let w := s.updLoop l fun x => { x with window := x.window + 409600 }
    (¬ends → exec (.lockWindow l ppm err) s = .next s) ∧
    (ends → k.st = .off → exec (.lockWindow l ppm err) s = .next w) ∧
    (ends → k.st = .stopped → ∃ t, exec (.lockWindow l ppm err) s = .next t ∧ t = { s with clk := t.clk } ∧
      t.clk.loops[l] = { k with window := k.window + 409600, err := max (-128) (min 127 err) }) ∧
    (ends → k.st = .acquire ∨ k.st = .relock →
      (s.clk.refOk = false → exec (.lockWindow l ppm err) s = .next w) ∧
      (s.clk.refOk = true → 300 < ppm.natAbs → exec (.lockWindow l ppm err) s =
        .next (w.updLoop l fun x => { x with inTol := 0 })) ∧
      (s.clk.refOk = true → ppm.natAbs ≤ 300 → k.inTol + 1 < 16 → exec (.lockWindow l ppm err) s =
        .next (w.updLoop l fun x => { x with inTol := x.inTol + 1 })) ∧
      (s.clk.refOk = true → ppm.natAbs ≤ 300 → 16 ≤ k.inTol + 1 → ∃ t, exec (.lockWindow l ppm err) s = .next t ∧
        t.clk.loops[l].st = .locked ∧ t.raster = s.raster ∧ t.cmds = s.cmds ∧ (k.st = .acquire → Clause.ClockOnly s t) ∧
        (k.st = .relock → ∀ ch, s.clk.change = some ch → ch.loop = l →
          t.clk.force = s.clk.force.take ch.target l ∧
          (l ≠ 1 → t.clk.change = none) ∧ (l = 1 → t.clk.change = some { ch with locked := true })))) ∧
    (ends → k.st = .locked →
      (s.clk.refOk = false ∨ ppm.natAbs ≤ 1000 → exec (.lockWindow l ppm err) s =
        .next (w.updLoop l fun x => { x with missed := 0 })) ∧
      (s.clk.refOk = true → 1000 < ppm.natAbs → k.missed = 0 → exec (.lockWindow l ppm err) s =
        .next (w.updLoop l fun x => { x with missed := 1 })) ∧
      (s.clk.refOk = true → 1000 < ppm.natAbs → k.missed ≠ 0 → ∃ t, exec (.lockWindow l ppm err) s = .next t ∧
        Clause.ClockOnly s t ∧ t.clk.loops[l].st = .coasting ∧ t.clk.loops[l].coastFrom = s.time))

/-- A coasting loop (R378, R380): the second window in a row beyond 0.1 % brings the orderly stop, and so does 1 s of coasting; in
other windows it notes the monitor's error and goes toward lock; when a stop has run there is no second one. -/
def Clause.CoastingEnds : Prop :=
  ∀ (s : State) (l : LoopId) (ppm err : Int), s.clk.loops[l].st = .coasting →
    let k := s.clk.loops[l]
    let ends : Prop := k.window + 409600 ≤ s.time
    let noted (b : Nat) : State := s.updLoop l fun x =>
      { x with window := x.window + 409600, err := max (-128) (min 127 err), monBad := b }
    (¬ends → exec (.lockWindow l ppm err) s = .next s) ∧
    (ends → err.natAbs ≤ 10 → exec (.lockWindow l ppm err) s = .next ((noted 0).towardLock l ppm)) ∧
    (ends → 10 < err.natAbs → k.monBad = 0 → exec (.lockWindow l ppm err) s = .next ((noted 1).towardLock l ppm)) ∧
    (ends → 10 < err.natAbs → k.monBad ≠ 0 → s.stopRan = true → exec (.lockWindow l ppm err) s =
      .next ((noted k.monBad).towardLock l ppm)) ∧
    (ends → 10 < err.natAbs → k.monBad ≠ 0 → s.stopRan = false → ∃ t, exec (.lockWindow l ppm err) s = .next t ∧
      Clause.StopRan s t l) ∧
    (s.stopRan = false → k.coastFrom + 160000000000 ≤ s.time → ∃ t, exec (.coastTrust l) s = .next t ∧
      Clause.StopRan s t l)

/-- COAST_TRUST that does not apply, and the monitor's calibration, once a millisecond while a loop is locked (R378, R380). -/
def Clause.MonitorCalibrates : Prop :=
  ∀ (s : State) (l : LoopId),
    (s.clk.loops[l].st ≠ .coasting ∨ s.time < s.clk.loops[l].coastFrom + 160000000000 ∨ s.stopRan = true →
      exec (.coastTrust l) s = .next s) ∧
    (s.clk.refOk = true → s.clk.calibrated + 160000000 ≤ s.time → (∃ i : LoopId, s.clk.loops[i].st = .locked) →
      exec .monitorCalibration s = .next { s with clk := { s.clk with calibrated := s.time } }) ∧
    (s.clk.refOk = false ∨ s.time < s.clk.calibrated + 160000000 ∨ (∀ i : LoopId, s.clk.loops[i].st ≠ .locked) → exec .monitorCalibration s = .next s)

/-! ### Resets and the start -/

/-- The device has been reset (R396, R398): outside AON everything is at its reset value, and the start begins; raster memory and the
strips are kept by a warm reset whose channels had all been trained, but for fills under way and for what the writes of the commands
that it stops have still to write below their last burst (R101), and by no other. -/
def Clause.Reset (s t : State) (source : Nat) (warm : Bool) : Prop :=
  let fresh := State.init s.part
  let keep := warm && s.allTrained
  t.part = s.part ∧ t.pending = s.pending ∧ t.time = 0 ∧ t.hosts = fresh.hosts ∧ t.role = fresh.role ∧ t.parts = fresh.parts ∧
    t.cmds = [] ∧ t.logs = fresh.logs ∧ t.events = fresh.events ∧ t.ks = fresh.ks ∧ t.seq = fresh.seq ∧
    t.links = fresh.links ∧ t.web = fresh.web ∧
    (keep = true → t.strips = s.strips ∧ s.WritesOnly t s.openWrites ∧ ∀ n ∈ t.raster.written, n ∈ s.raster.written) ∧
    (keep = false → t.strips = [] ∧ t.raster.dram = [] ∧ t.raster.written = []) ∧ t.raster.filling = [] ∧ t.boot.stage = 1 ∧ t.boot.lastReset = source ∧ t.boot.recs = s.boot.recs ∧ t.boot.keep = keep ∧
    t.power.on = 0x01 ∧ t.power.armed = none ∧ ∃ o, t.out = o ++ s.out

/-- A start has failed (R404): the device has been reset, and the counter, which saturates at 3, and the cause say so. -/
def Clause.StartFailed (s t : State) (cause : Nat) (warm : Bool) : Prop :=
  Clause.Reset s t 5 warm ∧ t.boot.fails = min 3 (s.boot.fails + 1) ∧ t.boot.cause = cause

/-- Resets (R368, R392, R396): power on loses what AON holds but for what flash keeps, and samples REF_SEL when AON leaves reset;
SYS_RST_N resets in full when it is low for 1,000 ns or more; TRST_N reaches the TAP alone; a scheduled reset comes at its time
with its kind. -/
def Clause.ResetsAct : Prop :=
  ∀ s : State,
    (∀ rise sel, ∃ t, exec (.powerOnReset rise sel) s = .next t ∧ t.boot.stage = 0 ∧ t.boot.fails = 0 ∧ t.boot.force = false ∧
      t.boot.recs = s.boot.recs ∧ t.boot.versionA = s.boot.versionA ∧ t.boot.versionB = s.boot.versionB ∧
      t.raster = (State.init s.part).raster ∧ t.hosts = (State.init s.part).hosts ∧ t.quench = (State.init s.part).quench ∧
      t.power = (State.init s.part).power ∧ t.cmds = [] ∧ (rise = true → t.clk.refSel = sel)) ∧
    (∀ low, 1000 ≤ low → ∃ t, exec (.sysRstN low) s = .next t ∧ Clause.Reset s t 1 false ∧ t.boot.fails = s.boot.fails ∧
      t.boot.force = s.boot.force) ∧
    (∀ low, low < 1000 → exec (.sysRstN low) s = .next s) ∧
    exec .trstN s = .next s ∧
    (∀ at_ full, s.boot.resetAt = some (at_, full) → at_ ≤ s.time → ∃ t, exec .deviceReset s = .next t ∧
      (full = true → Clause.Reset s t 2 false) ∧ (full = false → Clause.Reset s t 3 true)) ∧
    ((∀ at_ full, s.boot.resetAt = some (at_, full) → s.time < at_) → exec .deviceReset s = .next s)

/-- The start (R399 to R405): after three failures, or when forced, the device is in banked mode; with no image that passes its check,
or with no channel that trains, the start fails; else the device is READY on the image of the slot whose turn it is, or on the
other when that one fails its check, with its loops locked. -/
def Clause.Starts : Prop :=
  ∀ (s : State) (b : BootInput),
    let turn := if s.boot.fails % 2 = 0 then committedB s.boot.recs else !committedB s.boot.recs
    let image (slotB : Bool) : ImageInfo := if slotB then b.slotB else b.slotA
    let result (i : ImageInfo) : Nat := imageResult i s.part b.revoked
    let taken := if result (image turn) = 0 then turn else !turn
    let i := image taken
    (s.starting = false → exec (.bootStart b) s = .next s) ∧
    (s.starting = true →
      (s.boot.fails = 3 ∨ s.boot.force = true → ∃ t, exec (.bootStart b) s = .next t ∧ t.boot.stage = 15 ∧
        t.raster = (State.init s.part).raster ∧ t.strips = [] ∧ t.power.on = 0x07 ∧
        (s.boot.force = true → t.boot.cause = 8) ∧ (s.boot.force = false → t.boot.cause = s.boot.cause)) ∧
      (s.boot.fails ≠ 3 → s.boot.force = false →
        (result b.slotA ≠ 0 → result b.slotB ≠ 0 → ∃ t, exec (.bootStart b) s = .next t ∧
          Clause.StartFailed s t 1 s.allResting) ∧
        (result b.slotA = 0 ∨ result b.slotB = 0 →
          (s.chooseMap i b = none → ∃ t, exec (.bootStart b) s = .next t ∧ Clause.StartFailed s t 2 false) ∧
          (∀ single only, s.chooseMap i b = some (single, only) → ∃ t, exec (.bootStart b) s = .next t ∧
            t.boot.stage = 6 ∧ t.boot.image = i ∧ t.boot.slotB = taken ∧ t.boot.fellBack = (taken != turn) ∧
            t.raster.single = single ∧ t.raster.density = i.density ∧ t.clk.refOk = true ∧
            (∀ l : LoopId, t.clk.loops[l].st = .locked) ∧
            t.power.on = (if s.part = .zr3218 then 0xFF else 0x6F)))))

/-- What ends a start or a run (R373, R385, R397, R399, R404): a loop that does not lock, the watchdog 2 s into a start, and a trap at
any time; a RUNNING device of 10 s clears the counter. -/
def Clause.StartsFail : Prop :=
  ∀ (s : State) (l : LoopId),
    (s.starting = false → exec (.loopLockTimeout l) s = .next s ∧ exec .bootWatchdog s = .next s) ∧
    (s.time < 320000000000 → exec .bootWatchdog s = .next s) ∧
    (s.starting = true → (∃ t, exec (.loopLockTimeout l) s = .next t ∧ Clause.StartFailed s t 3 s.allResting ∧
        t.boot.failStage = 3) ∧
      (320000000000 ≤ s.time → ∃ t, exec .bootWatchdog s = .next t ∧ Clause.StartFailed s t 4 s.allTrained)) ∧
    (∃ t, exec .trap s = .next t ∧ Clause.StartFailed s t 5 s.allTrained) ∧
    (∀ from_, s.boot.runningFrom = some from_ → s.boot.stage = 7 → from_ + 1600000000000 ≤ s.time →
      exec .failCountClear s = .next (s.updBoot fun x => { x with fails := 0 })) ∧
    (s.boot.stage ≠ 7 ∨ (∀ from_, s.boot.runningFrom = some from_ → s.time < from_ + 1600000000000) →
      exec .failCountClear s = .next s)

/-- A frequency change that has not locked after 2 ms (R385): a MEM change goes back to the former settings, refused with reason 7; a
CORE change, or the way back, resets the device warm; before that, or for another loop, nothing happens. -/
def Clause.ChangesTimeOut : Prop :=
  ∀ (s : State) (l : LoopId),
    let late (ch : Change) : Prop := ch.loop = l ∧ s.clk.loops[l].st = .relock ∧ ch.start + 320000000 ≤ s.time
    ((∀ ch, s.clk.change = some ch → ¬late ch) → exec (.freqChangeTimeout l) s = .next s) ∧
    ∀ ch, s.clk.change = some ch → late ch →
      (l = 1 → ch.back = false → ∃ t, exec (.freqChangeTimeout l) s = .next t ∧ t.clk.refused = true ∧ t.clk.reason = 7 ∧
        t.clk.change = some { ch with back := true, locked := false, target := ch.former, start := s.time } ∧
        t.clk.force = s.clk.force ∧ t.raster = s.raster ∧ t.cmds = s.cmds) ∧
      (l ≠ 1 ∨ ch.back = true → ∃ t, exec (.freqChangeTimeout l) s = .next t ∧ Clause.StartFailed s t 3 true)

/-! ### Heat, supply and the management sideband -/

/-- Rails (R392, R407): a warning and a recovery are reported once each, and VDD_AON's recovery not at all; a rail other than VDD_AON
below its fault threshold for 1 us resets the device in full. -/
def Clause.RailsReport : Prop :=
  ∀ (s : State) (r : Fin 7) (low : Nat),
    let marks (t : State) (b : Bool) : Prop :=
      ∃ e, ({ s with power := { s.power with warned := vset s.power.warned r b }
                     logs := { s.logs with error := s.logs.error ++ [e] } } : State).RaisedOnly t
    (s.power.warned[r] = true → exec (.supplyWarning r) s = .next s) ∧
    (s.power.warned[r] = false → ∃ t, exec (.supplyWarning r) s = .next t ∧ marks t true) ∧
    (s.power.warned[r] = false → exec (.supplyRecovered r) s = .next s) ∧
    (s.power.warned[r] = true → r = 0 → exec (.supplyRecovered r) s =
      .next (s.updPower fun p => { p with warned := vset p.warned r false })) ∧
    (s.power.warned[r] = true → r ≠ 0 → ∃ t, exec (.supplyRecovered r) s = .next t ∧ marks t false) ∧
    (r = 0 ∨ low < 1000 → exec (.supplyStop r low) s = .next s) ∧
    (r ≠ 0 → 1000 ≤ low → ∃ t, exec (.supplyStop r low) s = .next t ∧ Clause.StartFailed s t 7 false)

/-- The die (R404, R406): above 105 degrees it warns once until it is below 100; at 115 the drain halts, the domains other than AON,
CORE and HOST are on their way off and the failure counter counts, or a start that is under way fails. -/
def Clause.DieHeats : Prop :=
  ∀ (s : State) (temp : BitVec 16),
    let shown : State := s.updPower fun p => { p with dieTemp := temp }
    (temp.toInt ≤ 1680 ∨ s.power.dieWarn = true → exec (.dieWarning temp) s = .next shown) ∧
    (1680 < temp.toInt → s.power.dieWarn = false → ∃ t e, exec (.dieWarning temp) s = .next t ∧
      ({ s with power := { s.power with dieTemp := temp, dieWarn := true }
                logs := { s.logs with error := s.logs.error ++ [e] } } : State).RaisedOnly t) ∧
    (exec (.dieWarningRearm temp) s = .next { s with power := { s.power with
      dieTemp := temp, dieWarn := s.power.dieWarn && decide (1600 ≤ temp.toInt) } }) ∧
    (temp.toInt < 1840 ∨ s.power.thermalStop = true → exec (.thermalStop temp) s = .next shown) ∧
    (1840 ≤ temp.toInt → s.power.thermalStop = false → s.starting = true → ∃ t, exec (.thermalStop temp) s = .next t ∧
      Clause.StartFailed s t 6 s.allTrained) ∧
    (1840 ≤ temp.toInt → s.power.thermalStop = false → s.starting = false → ∃ t, exec (.thermalStop temp) s = .next t ∧
      t.power = { s.power with dieTemp := temp, thermalStop := true, cause := 2, todo := s.stopOffs } ∧
      t.boot = { s.boot with cause := 6, fails := min 3 (s.boot.fails + 1) } ∧ t.seq.drain ≠ .running ∧
      t.raster = s.raster ∧ t.cmds = s.cmds ∧ ∀ c : ChanId, s.inUse c = true → s.chans[c].st = .service →
        t.chans[c].st = .quiesce)

/-- The management sideband (R393, R408, R424, R425): ARM takes 0x4D alone; within 10 ms of it an action acts, and disarms; later, or
when not armed, an action changes nothing but that. -/
def Clause.ManagementActs : Prop :=
  ∀ s : State,
    let quiet : State := s.updPower fun p => { p with armed := none }
    let live : Prop := ∃ a, s.power.armed = some a ∧ s.time ≤ a + 1600000000
    (∀ v : Byte, v = 0x4D → s.boot.stage ≠ 0 → exec (.arm v) s =
      .next (s.updPower fun p => { p with armed := some s.time })) ∧
    (∀ v : Byte, v ≠ 0x4D ∨ s.boot.stage = 0 → exec (.arm v) s = .next s) ∧
    (¬live → ∀ x ∈ [Instr.mgmtReset, .mgmtForceBanked, .mgmtClearForce, .mgmtHostOn, .mgmtHostOff, .mgmtShutdown],
      exec x s = .next quiet) ∧
    (live →
      (∃ t, exec .mgmtReset s = .next t ∧ Clause.Reset s t 4 false ∧ t.boot.force = s.boot.force) ∧
      (∃ t, exec .mgmtForceBanked s = .next t ∧ Clause.Reset s t 4 false ∧ t.boot.force = true) ∧
      exec .mgmtClearForce s = .next (quiet.updBoot fun b => { b with force := false }) ∧
      (s.domainOn 2 = true → exec .mgmtHostOn s = .next quiet) ∧
      (s.domainOn 2 = false → ∃ t e, exec .mgmtHostOn s = .next t ∧
        ({ quiet with power := { quiet.power with on := s.power.on ||| 0x04 }
                      logs := { s.logs with error := s.logs.error ++ [e] } } : State).RaisedOnly t) ∧
      (s.banked = true ∨ s.domainOn 2 = false → exec .mgmtHostOff s = .next quiet) ∧
      (s.banked = false → s.domainOn 2 = true → ∃ t, exec .mgmtHostOff s = .next t ∧
        t.power = { quiet.power with on := s.power.on &&& ~~~0x04 } ∧ (∀ h : HostId, t.hosts[h].st = .down) ∧ t.cmds = [] ∧
        t.role.holder = none ∧ s.WritesOnly t s.openWrites) ∧
      (let left := s.power.todo.filter fun x => !(x.2 && x.1.val != 6 && x.1.val != 7 && !s.domainOn x.1.val)
       let offs := ([5, 4, 3] : List DomainId).filter fun d => s.domainOn d.val && !left.contains (d, false)
       (s.starting = true ∨ s.banked = true ∨ offs.all quiet.haltNow.mayLeave = false →
         exec .mgmtShutdown s = .next quiet) ∧
       (s.starting = false → s.banked = false → offs.all quiet.haltNow.mayLeave = true → ∃ t,
         exec .mgmtShutdown s = .next t ∧ t.power.todo = left ++ offs.map (fun d => (d, false)) ∧ t.power.cause = 1 ∧
         t.seq.drain = .halted ∧ t.raster = s.raster)))

/-- The multiplying loops and the reference. -/
def Obligations.ClockLoops : Prop :=
  Clause.ReferenceComesAndGoes ∧ Clause.WindowsCount ∧ Clause.CoastingEnds ∧ Clause.MonitorCalibrates ∧ Clause.ChangesTimeOut

/-- Resets and the start. -/
def Obligations.ResetsAndStart : Prop := Clause.ResetsAct ∧ Clause.Starts ∧ Clause.StartsFail

/-- Heat, supply and the management sideband. -/
def Obligations.HeatSupplyManagement : Prop := Clause.RailsReport ∧ Clause.DieHeats ∧ Clause.ManagementActs

/-! ### Every row completes -/

/-- The rows of registers and of the events' timers complete: a doorbell in its range moves, a queue comes into service and leaves it
(R49, R50, R52), FENCE_ACK recovers a FENCED host (R44), HEARTBEAT and MAILBOX_RING of an attached host count and ring (R39, R420),
the steward's EVENT_ROUTE, APPLY, CLEAR, GO_MEM, GO_CORE and KEYSTONE take effect (R96, R176, R349, R382, R413), EVENT_MASK takes its
word (R416), an aligned access reads or writes its register, an odd one is answered, and a holdoff and a pulse end. -/
def Obligations.RegisterRowsComplete : Prop :=
  ∀ (s : State) (h : HostId) (q : QueueId) (v : Dword),
    let k := s.queue h q
    let i := v.toNat % 256
    (s.reachesPort h = true → s.hosts[h].st = .fenced → v.getLsbD 0 = true → ∃ t, exec (.fenceAck h v) s = .next t ∧
      t.hosts[h].st = .recovering) ∧
    (s.takesWrite h = true →
      (k.enable = true → i < k.size →
        ((k.sqTail + k.size - k.sqHead) % k.size ≤ (i + k.size - k.sqHead) % k.size → ∃ t,
          exec (.sqTail h q v) s = .next t ∧ (t.queue h q).sqTail = i) ∧
        ((i + k.size - k.cqHead) % k.size ≤ (k.cqTail + k.size - k.cqHead) % k.size → ∃ t,
          exec (.cqHead h q v) s = .next t ∧ (t.queue h q).cqHead = i)) ∧
      (s.banked = false → k.enable = false → k.disabling = false → 2 ≤ v.toNat % 512 → v.toNat % 512 ≤ 256 → ∃ t,
        exec (.queueEnable h q v) s = .next t ∧ (t.queue h q).enable = true ∧ (t.queue h q).size = v.toNat % 512) ∧
      (k.enable = true → s.queueFlight h q = 0 → ∃ t, exec (.queueDisable h q v) s = .next t ∧ (t.queue h q).enable = false) ∧
      (s.attached h = true → (∃ t, exec (.heartbeatRegisterWrite h v) s = .next t ∧ t.hosts[h].lastHb = s.time) ∧
        ∃ t, exec (.mailboxRing h v) s = .next t ∧ ∀ m : Fin 8, v.getLsbD m.val = true → t.events.from_[m] = some h) ∧
      (∀ m : Fin 3, ∃ t, exec (.eventMaskWrite h m v) s = .next t ∧ ∀ n : Fin 96, n.val / 32 = m.val →
        t.hosts[h].mask.getLsbD n.val = (!s.part.neverAsserts n.val && v.getLsbD (n.val % 32))) ∧
      (s.isSteward h = true →
        (∀ n : Fin 96, 16 ≤ n.val → s.part.neverAsserts n.val = false → v.toNat / 256 % 8 = 4 → ∃ t,
          exec (.eventRouteWrite h n v) s = .next t ∧ t.events.routes[n].enable = v.getLsbD 31 ∧
          t.events.routes[n].target = 4 ∧ t.events.routes[n].vector = Fin.ofNat 32 v.toNat) ∧
        (s.applyRefusal = 0 → ∃ t, exec (.apply h v) s = .next t ∧ t.raster.mask = s.raster.maskShadow) ∧
        (∃ t, exec (.clear h v) s = .next t ∧ ∀ (c : ChanId) (r : RankId),
          s.chans[c].ranks[r].st = .inService → s.migrating c = false → t.chans[c].ranks[r].health = .good) ∧
        (s.keyRefusal = none → s.ks.accepted = none → ∃ t, exec (.keystoneRegisterWrite h v) s = .next t ∧
          t.ks.seq = s.ks.seq + 1) ∧
        (s.changeRefusal = 0 → v.getLsbD 30 = false → v.getLsbD 31 = false →
          (∃ t ch, exec (.goMem h v) s = .next t ∧ t.clk.change = some ch ∧ ch.loop = 1) ∧
          ∃ t ch, exec (.goCore h v) s = .next t ∧ t.clk.change = some ch ∧ ch.loop = 0))) ∧
    (s.reachesPort h = true → ∀ off : BitVec 16, off.toNat % 4 = 0 →
      (∀ x, exec (.registerWrite h off false x) s = .next (s.write32 h off.toNat (x.extractLsb' 0 32))) ∧
      (s.coreRuns = true → s.dark h off.toNat = false → (∀ x ∈ s.hosts[h].latch, x.1 + 4 ≠ off.toNat) → ∃ t,
        exec (.registerPairRead h off false) s = .next t ∧ s.Sent t (.readData h (BitVec.ofNat 64 (s.readReg h off.toNat))))) ∧
    (s.reachesPort h = true → ∃ t, exec (.barAccess h false 1 2) s = .next t ∧ s.Sent t (.readData h 0xFFFFFFFF)) ∧
    (s.portUp h = true → ∀ w a, exec (.unsupportedRequest h w a) s = .next (s.emit (.unsupported h))) ∧
    (∀ (x : Fin 32) (e : Nat), s.hosts[h].vecs[x].until_ = some e → e ≤ s.time → s.hosts[h].vecs[x].gathered = 0 → ∃ t,
      exec (.holdoffExpiry h x) s = .next t ∧ t.hosts[h].vecs[x].until_ = none) ∧
    ∀ (p : Fin 2) (b : Nat), s.events.pulse[p] = some b → b + 160000 ≤ s.time → ∃ t, exec (.pulseEnd p) s = .next t ∧
      t.events.pulse[p] = none

/-- The rows of ports, of compressor engines and of the DRAM's service complete (R24, R27, R40, R92, R126, R128, R158, R304, R307,
R318, R342, R351): each has its effect in a state in which its time has come, for every row that is not an entry of the course. -/
def Obligations.PortAndDramRowsComplete : Prop :=
  (∀ (s : State) (h : HostId) (id : Nat),
    (∀ k, ∃ t, exec (.portReset h k) s = .next t ∧ t.hosts[h].st = .down) ∧
    (s.portMayLink h = true → s.hosts[h].st = .down → ∃ t, exec (.portLinkUp h) s = .next t ∧ t.hosts[h].st = .linked) ∧
    (s.hosts[h].st = .attached → s.hosts[h].hbTimeout * 160000000 ≤ s.time - s.hosts[h].lastHb → ∃ t,
      exec (.hbTimeout h) s = .next t ∧ t.hosts[h].st = .late) ∧
    (s.hosts[h].st = .late → 2 * (s.hosts[h].hbTimeout * 160000000) ≤ s.time - s.hosts[h].lastHb → s.hosts[h].autoFence = true →
      ∃ t, exec (.heartbeatExpiry h) s = .next t ∧ t.hosts[h].st = .fenced) ∧
    ∀ c, s.reading h id = some c →
      (∀ data, let d : Cmd := { c with buf := c.buf ++ data.take (s.readNeed c - c.buf.length) }
        exec (.hostReadCompletion h id data) s = .next ((s.updCmd id fun _ => d).sourced d)) ∧
      (∃ t, exec (.hostDataBad h id) s = .next t ∧ ∀ k ∈ t.cmds, k.id ≠ id) ∧
      ∃ t, exec (.completionTimeout h id) s = .next t ∧ ∀ k ∈ t.cmds, k.id ≠ id) ∧
  (∀ (s : State) (n : Fin 8),
    (s.comps[n].inService = true → s.comps[n].job = none → s.comps[n].test = none →
      n.val < min (poolShares s.ks.force.pool) s.shares → ∀ c stream bits, s.nextCompress = some c → s.compressCheck c = none →
        ∃ t, exec (.compressorDispatch n stream bits) s = .next t ∧ t.comps[n].job = some c.id) ∧
    (∀ c t, s.comps[n].job.bind s.findCmd = some c → c.out.ended = true → s.moved c = true → s.findStrip (c.p 5) = some t →
      let size := ceilDiv (c.out.tail + c.out.bits) 8 - ceilDiv c.out.tail 8 + 8 * c.out.ends.length
      size ≤ c.f 2 0 16 * lineBytes (c.f 3 0 11) * (256 - c.f 4 0 8) / 256 →
        exec (.writeCompressDone n) s =
          .next (((s.putStrip (State.Output.strip c.out t)).succeed c.id t.handle size).engineFree n)) ∧
    ∀ cause addr id c, cause ≠ 0 → s.comps[n].job = some id → s.findCmd id = some c → c.op = 0x13 → s.comps[n].test = none →
      ∃ t, exec (.compressorFault n cause addr) s = .next t ∧ t.comps[n].inService = false ∧ ∀ k ∈ t.cmds, k.id ≠ id) ∧
  (∀ s : State,
    (∀ n f, s.raster.filling.find? (fun f => f.ashlar = n) = some f → f.rest = some [] → ∃ t,
      exec (.fillComplete n) s = .next t ∧ t.raster.isFilling n = false ∧ (f.back = false → t.raster.isWritten n = true)) ∧
    (s.refilled + 8533 ≤ s.time → ∃ t, exec .tokenRefill s = .next t ∧ t.refilled = s.refilled + 8533) ∧
    (s.power.srIdle = true → s.idleNow = true → s.sr.idle = false → (∀ k, s.inUse k = true → s.chans[k].st = .service) →
      (∃ k, s.inUse k = true) → s.sr.idleFrom + s.power.srDelay * 160000 ≤ s.time → ∃ t,
        exec .selfRefreshEntry s = .next t ∧ ∀ k, s.inUse k = true → t.chans[k].st = .quiesce) ∧
    (∀ d, s.power.todo.head? = some (d, false) → s.busyDomain d = false → exec (.domainSwitch d) s = .next (s.switchOff d)) ∧
    (∀ d, s.power.todo.head? = some (d, true) → s.domainOn d.val = false → exec (.domainSwitch d) s = .next (s.switchOn d)) ∧
    ((∃ k, s.inUse k = true ∧ s.chans[k].st = .exiting) → ∃ t, exec .selfRefreshExit s = .next t ∧
      t.sr.entries = min 0xFFFF (s.sr.entries + 1))) ∧
  (∀ (s : State) (c : ChanId),
    (s.chans[c].st = .service → s.chans[c].arb.holder = none → (∃ k, s.parkedStart c (s.eligible c) = some k) → ∃ t r x,
      exec (.arbiterDecision c) s = .next t ∧ t.chans[c].arb.holder = some (r, x)) ∧
    (∀ r x issued, s.chans[c].arb.holder = some (r, x) → x.half = false → x.isRmw = false → issued < x.bursts.length →
      s.chanServes c = true → s.storming c = false → s.loses c r x = true → ∃ t, exec (.preemption c issued) s = .next t ∧
        t.chans[c].arb.holder = none) ∧
    (∀ r x b, s.chans[c].arb.holder = some (r, x) → s.chanServes c = true → s.storming c = false → s.windowShut c x = false →
      x.bursts.drop x.done = [b] → s.actHeldOn (s.xferRank c x.src b) b.addr = false →
      s.chans[c].subs[(s.raster.loc b.addr).sub].replay = [] → (s.doXfer c x.src b).chans[c].arb.holder ≠ none →
        exec (.transferComplete c none) s = .next (((((s.doXfer c x.src b).settleHalf c x).updChan c fun ch =>
          { ch with arb := { ch.arb with holder := none, freed := s.time } }).afterXfer c x.src).settlePool)) ∧
    (s.chans[c].st = .sreIssued → ∃ t, exec (.selfRefreshEntered c) s = .next t ∧
      ∀ r : RankId, t.chans[c].ranks[r].selfRefresh = true) ∧
    (∀ u n, s.chanServes c = true → ∃ t done, exec (.writeCrcAlert c u n) s = .next t ∧
      s.chans[c].subs[u].replay ++ (s.chans[c].subs[u].kept.take n).reverse = done ++ t.chans[c].subs[u].replay ∧
      t.raster = { s.raster with dram := done.foldl (fun m k => writeBurst m k.addr k.words) s.raster.dram }) ∧
    (∀ u b, s.chans[c].subs[u].storm = true → s.chans[c].subs[u].stormAt = some b → ∃ t,
      exec (.stormRetrainDone c u) s = .next t ∧ t.chans[c].subs[u].storm = false) ∧
    (s.scrubs c = true → s.chans[c].scrub.startedAt + s.chans[c].scrub.period * 160000000000 ≤ s.time →
      s.chans[c].scrub.active = false → ∃ t, exec (.scrubPassStart c) s = .next t ∧ t.chans[c].scrub.active = true) ∧
    (s.chans[c].arb.reqs[(9 : Fin 12)] = [] → s.chans[c].st = .service → ∀ a rest, s.chans[c].scrub.back = a :: rest →
      s.raster.isWritten (s.raster.ashlar a) = true → exec (.scrubTransfer c) s =
        .next ((s.updScrub c fun y => { y with back := rest }).presentXfer c 9 .scrub [⟨a, .rmw⟩])) ∧
    (s.scrubs c = true → s.chans[c].scrub.active = true → s.raster.nextWritten s.chans[c].scrub.next = none →
      s.scrubIdle c = true → ∃ t, exec (.scrubPassComplete c) s = .next t ∧ t.chans[c].scrub.active = false) ∧
    (∀ n, s.chans[c].mig.st = .copying → s.chans[c].st = .service → s.chans[c].mig.transit = [] →
      s.ks.force.arbEnable.getLsbD 10 = true → s.chans[c].mig.paced < s.ks.force.pace.toNat % 256 →
      least (s.raster.rankHolds s.chans[c].mig.logical s.chans[c].mig.ashlar) = some n → s.raster.isFilling n = false →
      let bs := s.raster.burstsAt c n (if n = s.chans[c].mig.ashlar then s.chans[c].mig.burst else 0)
      s.merging c bs = false → ∃ t, exec (.migrationTransfer c) s = .next t ∧ t.chans[c].mig.transit = bs) ∧
    (s.chans[c].mig.st = .copying → s.chans[c].st = .service → s.chans[c].mig.transit = [] →
      s.raster.rankHolds s.chans[c].mig.logical s.chans[c].mig.ashlar = [] → s.chans[c].mig.source ≠ s.chans[c].mig.target → ∃ t,
        exec (.migrationCutover c) s = .next t ∧ t.raster.phys[c][s.chans[c].mig.logical] = some s.chans[c].mig.target)) ∧
  ∀ (s : State) (c : ChanId) (r : RankId) (u : SubId) (g : Fin 8) (b : Fin 4),
    let k := s.chans[c].ranks[r]
    let may : Prop := s.chanServes c = true ∧ s.counterHeld c = true ∧ s.indexHeld c r u b = false
    (s.rankTrained c r = true → s.rankAsleep c r = false →
      ((s.bankIdx c r u b).timer ≤ s.time → ∃ t, exec (.refreshCreditTimer c r u b) s = .next t ∧
        (t.bankIdx c r u b).credit = max (-4) ((s.bankIdx c r u b).credit - 1)) ∧
      (may → (s.bankIdx c r u b).credit ≤ -4 → ∃ t, exec (.forcedRefresh c r u b) s = .next t ∧
        s.Sent t (.dramCmd c 6 r u b.val)) ∧
      (s.power.pdIdle = true → s.chanServes c = true → k.powerDown = false → k.lastUse + 64 ≤ s.slotsRun c →
        s.entrySoon c r = false → ∃ t, exec (.powerDownEntry c r) s = .next t ∧ t.chans[c].ranks[r].powerDown = true)) ∧
    (may → s.chans[c].rfmDue.contains (r, u, b) = true → ∃ t, exec (.forcedRfm c r u b) s = .next t ∧
      s.Sent t (.dramCmd c 7 r u b.val)) ∧
    (∃ t, exec (.rowClose c u r g b) s = .next t ∧
      ∀ x ∈ t.chans[c].rows, ¬(x.rank = r ∧ x.sub = u ∧ x.group = g ∧ x.bank = b ∧ s.rowDue c x = true)) ∧
    (k.hourFrom + 3600 * 160000000000 ≤ s.time → ∃ t, exec (.healthIntervalEnd c r .hour) s = .next t ∧
      t.chans[c].ranks[r].ceHour = 0) ∧
    ∀ id rest x, s.chans[c].service = some (.retrain id, r :: rest) → exec (.rankTrainingDone c r (.pass x)) s =
      .next (((s.rankPassed c r x (.retrain id)).nextRank c (.retrain id) rest).rankResult id c r true)

/-- The rows of the course and of its entries complete (R132, R133, R138, R144 to R147, R157): an entry whose turn has come, that has
not been held for STALL_LIMIT and that the guard does not keep waiting, has acted and is due no more. -/
def Obligations.CourseRowsComplete : Prop :=
  (∀ s : State, s.courseOver = true → (∀ c, s.inUse c = true → s.chans[c].st ≠ .quiesce) →
    exec (.courseBoundary false) s = .next s.endCourse.startCourse ∧ s.endCourse.seq.number = (s.seq.number + 1) % 2 ^ 64) ∧
  ∀ (s : State) (c : ChanId) (i : Nat) (e : Entry), s.nextEntry c i = some e →
    let acts (x : Instr) : Prop := ∃ t, exec x s = .next t ∧ t.chans[c].due = s.chans[c].due.erase i
    let held : Prop := ∃ u ∈ State.entrySubs e, s.wouldIssue c e u = true ∧ s.indexHeld c e.rankId u e.bank = true
    (s.stalled c i e = true → acts (.stallLimit c i)) ∧
    (s.stalled c i e = false →
      (e.type = 1 → s.givenTo c i e = [] → acts (.fetchEntry c i)) ∧ (e.type = 2 → ¬held → acts (.refsb c i)) ∧
      (e.type = 3 → ¬held → acts (.mitig c i)) ∧ (e.type = 4 → ∀ x, acts (.temperPause c i x)) ∧
      (e.type = 6 → s.chans[c].latch.contains i = false → acts (.zqcal c i)))

/-- The rows of the web loop and of the links complete (R238, R241, R245, R248, R252, R257, R259, R261, R262, R278, R279, R281): each has
its effect in a state in which its time has come. -/
def Obligations.WebAndLinkRowsComplete : Prop :=
  (∀ s : State, s.domainOn 1 = true →
    (s.web.updated + 8533 ≤ s.time → ∃ t, exec .loopUpdate s = .next t ∧ t.web.updated = s.time) ∧
    (∀ a, s.web.cfg.invert = false → s.web.inA = false → s.web.inB = false → a = true → ∃ t,
      exec (.encoderCount a false) s = .next t ∧ t.web.count = s.web.count + 1) ∧
    (s.web.st = .acquire → 64 ≤ s.web.lockRun → ∃ t, exec .webLockChange s = .next t ∧ t.web.st = .locked) ∧
    (s.web.st = .locked → ∀ k, 16000 ≤ k → ∃ t, exec (.encoderLost (.failsafe k)) s = .next t ∧ t.web.st = .coasting) ∧
    (s.web.st = .coasting → 64 ≤ s.web.valid → s.time < s.web.coastFrom + s.web.coastUs * 160000 → ∃ t,
      exec .encoderRebase s = .next t ∧ t.web.st = .locked) ∧
    (s.web.st = .coasting → s.web.coastFrom + s.web.coastUs * 160000 ≤ s.time → ∃ t,
      exec .coastLimit s = .next t ∧ t.web.st = .lost ∧ t.seq.drain = .halted) ∧
    (s.web.st ≠ .off → ∃ t, exec .indexSlip s = .next t ∧ t.web.indexRef = some s.web.count) ∧
    (∃ t, exec .indexFailsafe s = .next t ∧ t.logs.error.length = s.logs.error.length + 1) ∧
    (∀ held, s.ks.force.markCtrl.toNat / 2 ^ 31 % 2 = 1 → s.ks.force.markCtrl.toNat / 2 ^ 30 % 2 = 0 →
      held = s.ks.force.markCtrl.toNat % 2 ^ 14 * 16000 → s.ks.force.markWin.extractLsb' 0 16 = 0 → s.web.markLast = none → ∃ t,
        exec (.markSeen true held) s = .next t ∧ t.web.markPos = (s.web.motionAt (s.time - held)).posAt (s.time - held)) ∧
    ∀ id p, s.findPage id = some p → p.active = true → p.passed = false → p.start * 65536 ≤ s.travelNow p.reverse → ∃ t,
      exec (.pageBoundary id) s = .next t ∧ t.web.lastStart = some p.start) ∧
  (∀ (s : State) (n : LinkId),
    let l := s.links[n]
    (∀ e p u, l.fetch.busy = true → l.engine = some e → s.engines[e].st = .serving → s.findPage l.fetch.page = some p →
      s.pageStrip p n = some u → u.raw = true → (∀ b ∈ l.fetch.want, ∀ k, b.use ≠ .raw k) → l.fetch.missing = [] →
      l.fetch.badWords = [] → ∃ t, exec (.decodeLineComplete n none) s = .next t ∧ t.links[n].fetch.busy = false) ∧
    (∀ m, (l.markers.find? fun m => !m.sent) = some m → m.boundary ≤ s.time → s.carries n = true → ∃ t,
      exec (.fireMarker n) s = .next t ∧ t.out = .marker n m.boundary m.fine (BitVec.ofNat 8 m.count) :: s.out) ∧
    (∀ m, (l.markers.find? fun m => m.sent && decide (m.instant ≤ s.time)) = some m → ∃ t,
      exec (.fireInstant n) s = .next t ∧ m ∉ t.links[n].markers) ∧
    (∀ p i, s.nextFrame n = some (p, i) → s.carries n = true → s.boardTakes n (p.links[n].lineNo i) = true → l.laneFree ≤ s.time →
      (∀ ue, p.links[n].blank = true → ∃ t, exec (.lineFrame n ue) s = .next t ∧ t.links[n].seq = l.seq + 1) ∧
      (∀ x, p.links[n].blank = false → s.slotOf n p.id i = some x → x.complete = true → ∃ t,
        exec (.lineFrame n .good) s = .next t ∧ t.links[n].seq = l.seq + 1) ∧
      (p.links[n].blank = false → s.slotOf n p.id i = none → s.deadline n p i = true → ∃ t, exec (.noData n) s = .next t ∧
        t.links[n].noData = min 0xFFFF (l.noData + 1))) ∧
    (s.carries n = true → 4096 ≤ l.sinceEcho → s.gapFits n 22 = true → ∃ t, exec (.echoTracking n) s = .next t ∧
      t.links[n].awaited = [l.seq]) ∧
    (∀ f, exec (.invalidReturnFrame n) s = .next (s.badReturn n) ∧
      (goodReturn f 5 0 0 = true → f.seq ∈ l.awaited → l.step ≠ .measure → ∀ rt, ∃ t,
        exec (.echoReply n f rt) s = .next t ∧ t.links[n].awaited = l.awaited.erase f.seq) ∧
      (goodReturn f 1 16 16 = true → l.step = .idle → ∃ t, exec (.statusFrame n f) s = .next t ∧
        t.links[n].lastStatus = BitVec.ofNat 128 (leNat f.payload)) ∧
      (goodReturn f 2 1 240 = true → l.inbox.length < 8 → ∃ t, exec (.messageFrame n f) s = .next t ∧
        t.links[n].inbox = l.inbox ++ [f.payload]) ∧
      (goodReturn f 3 0 0 = true → ∀ m, l.sending = some m → m.seq = some f.seq → ∃ t, exec (.ackFrame n f) s = .next t ∧
        ∀ c ∈ t.cmds, c.id ≠ m.cmd) ∧
      (goodReturn f 4 32 32 = true → l.step = .ident → s.time ≤ l.stepStart + 160000000 → f.seq ∈ l.awaited →
        let b := Board.of (BitVec.ofNat 256 (leNat f.payload))
        b.rates.getLsbD l.rate.val = true → 2 ≤ b.buffers → b.buffers ≤ 16 → 1 ≤ b.maxWords → b.maxWords ≤ 1024 → ∃ t,
          exec (.identFrame n f) s = .next t ∧ t.links[n].step = .test ∧ t.links[n].board = b) ∧
      (goodReturn f 6 2304 2304 = true → l.step = .test → s.time ≤ l.stepStart + 800000000 → ∃ t,
        exec (.testFrame n f) s = .next t ∧ t.links[n].testFrames = l.testFrames + 1)) ∧
    (l.step ≠ .idle → l.stepStart + l.step.limit < s.time → ∃ t, exec (.trainingStepTimeout n) s = .next t ∧
      t.links[n].step = .idle ∧ t.links[n].st = .untrained) ∧
    (∀ m, l.sending = some m →
      (m.seq = none → m.start + 160000000 ≤ s.time → ∃ t, exec (.messageGapTimeout n) s = .next t ∧ ∀ c ∈ t.cmds, c.id ≠ m.cmd) ∧
      (m.seq ≠ none → m.sentAt + 160000000 ≤ s.time → ∃ t, exec (.ackTimeout n) s = .next t ∧ ∀ c ∈ t.cmds, c.id ≠ m.cmd)) ∧
    (l.st = .up → (∀ k, 160000 ≤ k → ∃ t, exec (.lossOfSignal n k) s = .next t ∧ t.links[n].st = .down) ∧
      (∀ k, k ≤ 4096 → ∃ t, exec (.codeErrors n k) s = .next t ∧ t.links[n].st = .down) ∧
      (l.lastReturn + 16000000 ≤ s.time → ∃ t, exec (.statusTimeout n) s = .next t ∧ t.links[n].st = .down)) ∧
    (∀ k, l.step = .search → s.time ≤ l.stepStart + 1600000000 → 1024 ≤ k → ∃ t, exec (.commaAlignment n k) s = .next t ∧
      t.links[n].step = .ident) ∧
    (l.step = .measure → l.echoes < 64 → l.stepStart + l.echoes * 4096 * s.symOf n ≤ s.time → ∃ t,
      exec (.measureEcho n) s = .next t ∧ t.links[n].echoes = l.echoes + 1))

/-- The rows of the clocks, of resets and the start, of heat and supply, and of the management sideband complete (R369, R372, R378, R380,
R385, R396, R399, R404, R406, R407, R424, R425): each has its effect in a state in which its time has come. -/
def Obligations.ClockAndManagementRowsComplete : Prop :=
  (∀ (s : State) (l : LoopId) (n : Nat),
    let k := s.clk.loops[l]
    (s.clk.refOk = true → 4 ≤ n → ∃ t, exec (.refLost n) s = .next t ∧ t.clk.refOk = false) ∧
    (s.clk.refOk = false → s.boot.stage ≠ 0 → 1024 ≤ n → ∃ t, exec (.refPresent n) s = .next t ∧ t.clk.refOk = true) ∧
    (∀ err, k.window + 409600 ≤ s.time → k.st = .acquire → s.clk.refOk = true → k.inTol + 1 < 16 → ∃ t,
      exec (.lockWindow l 0 err) s = .next t ∧ t.clk.loops[l].inTol = k.inTol + 1) ∧
    (k.st = .coasting → s.stopRan = false → k.coastFrom + 160000000000 ≤ s.time → ∃ t, exec (.coastTrust l) s = .next t ∧
      t.clk.stopped = true ∧ t.clk.loops[l].st = .stopped) ∧
    (s.clk.refOk = true → k.st = .locked → s.clk.calibrated + 160000000 ≤ s.time → ∃ t,
      exec .monitorCalibration s = .next t ∧ t.clk.calibrated = s.time) ∧
    (∀ ch, s.clk.change = some ch → ch.loop = l → l = 1 → ch.back = false → k.st = .relock → ch.start + 320000000 ≤ s.time → ∃ t,
      exec (.freqChangeTimeout l) s = .next t ∧ t.clk.refused = true ∧ t.clk.reason = 7)) ∧
  (∀ (s : State) (l : LoopId) (r : Fin 7) (temp : BitVec 16),
    let failed (t : State) (cause : Nat) : Prop := t.boot.stage = 1 ∧ t.boot.lastReset = 5 ∧ t.boot.cause = cause ∧
      t.boot.fails = min 3 (s.boot.fails + 1) ∧ t.cmds = []
    (∀ rise sel, ∃ t, exec (.powerOnReset rise sel) s = .next t ∧ t.boot.stage = 0 ∧ t.cmds = []) ∧
    (∀ low, 1000 ≤ low → ∃ t, exec (.sysRstN low) s = .next t ∧ t.boot.stage = 1 ∧ t.boot.lastReset = 1 ∧ t.cmds = []) ∧
    exec .trstN s = .next s ∧
    (∀ at_ full, s.boot.resetAt = some (at_, full) → at_ ≤ s.time → ∃ t, exec .deviceReset s = .next t ∧ t.boot.stage = 1 ∧
      t.boot.lastReset = (if full then 2 else 3) ∧ t.cmds = []) ∧
    (s.starting = true →
      (∀ b, s.boot.fails = 3 → ∃ t, exec (.bootStart b) s = .next t ∧ t.boot.stage = 15) ∧
      (∀ b single only, s.boot.fails = 0 → s.boot.force = false → committedB s.boot.recs = false →
        imageResult b.slotA s.part b.revoked = 0 → s.chooseMap b.slotA b = some (single, only) → ∃ t,
          exec (.bootStart b) s = .next t ∧ t.boot.stage = 6 ∧ t.boot.slotB = false) ∧
      (∃ t, exec (.loopLockTimeout l) s = .next t ∧ failed t 3) ∧
      (320000000000 ≤ s.time → ∃ t, exec .bootWatchdog s = .next t ∧ failed t 4)) ∧
    (∃ t, exec .trap s = .next t ∧ failed t 5) ∧
    (∀ f, s.boot.runningFrom = some f → s.boot.stage = 7 → f + 1600000000000 ≤ s.time → ∃ t,
      exec .failCountClear s = .next t ∧ t.boot.fails = 0) ∧
    (s.power.warned[r] = false → ∃ t, exec (.supplyWarning r) s = .next t ∧ t.power.warned[r] = true) ∧
    (s.power.warned[r] = true → ∃ t, exec (.supplyRecovered r) s = .next t ∧ t.power.warned[r] = false) ∧
    (∀ low, r ≠ 0 → 1000 ≤ low → ∃ t, exec (.supplyStop r low) s = .next t ∧ failed t 7) ∧
    (1680 < temp.toInt → ∃ t, exec (.dieWarning temp) s = .next t ∧ t.power.dieWarn = true ∧ t.power.dieTemp = temp) ∧
    (temp.toInt < 1600 → ∃ t, exec (.dieWarningRearm temp) s = .next t ∧ t.power.dieWarn = false) ∧
    (1840 ≤ temp.toInt → s.power.thermalStop = false → s.starting = false → ∃ t, exec (.thermalStop temp) s = .next t ∧
      t.power.thermalStop = true ∧ t.seq.drain ≠ .running)) ∧
  ∀ s : State,
    (s.boot.stage ≠ 0 → ∃ t, exec (.arm 0x4D) s = .next t ∧ t.power.armed = some s.time) ∧
    ∀ a, s.power.armed = some a → s.time ≤ a + 1600000000 →
      (∃ t, exec .mgmtReset s = .next t ∧ t.boot.lastReset = 4 ∧ t.cmds = []) ∧
      (∃ t, exec .mgmtForceBanked s = .next t ∧ t.boot.lastReset = 4 ∧ t.boot.force = true) ∧
      (∃ t, exec .mgmtClearForce s = .next t ∧ t.boot.force = false) ∧
      (s.domainOn 2 = false → ∃ t, exec .mgmtHostOn s = .next t ∧ t.domainOn 2 = true) ∧
      (s.banked = false → s.domainOn 2 = true → ∃ t, exec .mgmtHostOff s = .next t ∧ t.domainOn 2 = false ∧ t.cmds = []) ∧
      (s.starting = false → s.banked = false →
        (([5, 4, 3] : List DomainId).filter fun d => s.domainOn d.val).all
          ((s.updPower fun p => { p with armed := none }).haltNow).mayLeave = true →
        ∃ t, exec .mgmtShutdown s = .next t ∧ t.power.cause = 1 ∧ t.seq.drain = .halted)
end

