-- ==== Sys2Proof/Laws/State.lean ====
section
/-! SUPPORT. One lemma for each field of the state and each update of it: what the update writes and what it leaves. -/

namespace Sys2Proof.Machine

/-- A replaced element reads as written. -/
@[simp] theorem vset_same {α : Type} {n : Nat} (v : Vector α n) (i : Fin n) (x : α) : (vset v i x)[i.val] = x := by
  simp [vset]

/-- The other elements stay. -/
theorem vset_other {α : Type} {n : Nat} (v : Vector α n) (i j : Fin n) (x : α) (h : i ≠ j) :
    (vset v i x)[j.val] = v[j.val] := by
  have : i.val ≠ j.val := fun e => h (Fin.ext e)
  simp [vset, Vector.getElem_set_ne, this]

/-- A changed element is the function of the old one. -/
@[simp] theorem vmod_same {α : Type} {n : Nat} (v : Vector α n) (i : Fin n) (f : α → α) :
    (vmod v i f)[i.val] = f v[i.val] := by
  simp [vmod]

/-- The other elements stay. -/
theorem vmod_other {α : Type} {n : Nat} (v : Vector α n) (i j : Fin n) (f : α → α) (h : i ≠ j) :
    (vmod v i f)[j.val] = v[j.val] :=
  vset_other v i j _ h

namespace State

/-! `updHost` -/

@[simp] theorem updHost_part (s : State) (h : HostId) (f : HostRec → HostRec) : (s.updHost h f).part = s.part := rfl
@[simp] theorem updHost_pending (s : State) (h : HostId) (f : HostRec → HostRec) : (s.updHost h f).pending = s.pending := rfl
@[simp] theorem updHost_time (s : State) (h : HostId) (f : HostRec → HostRec) : (s.updHost h f).time = s.time := rfl
@[simp] theorem updHost_free (s : State) (h : HostId) (f : HostRec → HostRec) : (s.updHost h f).free = s.free := rfl
@[simp] theorem updHost_hosts (s : State) (h : HostId) (f : HostRec → HostRec) : (s.updHost h f).hosts = vmod s.hosts h f := rfl
@[simp] theorem updHost_role (s : State) (h : HostId) (f : HostRec → HostRec) : (s.updHost h f).role = s.role := rfl
@[simp] theorem updHost_parts (s : State) (h : HostId) (f : HostRec → HostRec) : (s.updHost h f).parts = s.parts := rfl
@[simp] theorem updHost_cmds (s : State) (h : HostId) (f : HostRec → HostRec) : (s.updHost h f).cmds = s.cmds := rfl
@[simp] theorem updHost_nextId (s : State) (h : HostId) (f : HostRec → HostRec) : (s.updHost h f).nextId = s.nextId := rfl
@[simp] theorem updHost_logs (s : State) (h : HostId) (f : HostRec → HostRec) : (s.updHost h f).logs = s.logs := rfl
@[simp] theorem updHost_events (s : State) (h : HostId) (f : HostRec → HostRec) : (s.updHost h f).events = s.events := rfl
@[simp] theorem updHost_ks (s : State) (h : HostId) (f : HostRec → HostRec) : (s.updHost h f).ks = s.ks := rfl
@[simp] theorem updHost_raster (s : State) (h : HostId) (f : HostRec → HostRec) : (s.updHost h f).raster = s.raster := rfl
@[simp] theorem updHost_strips (s : State) (h : HostId) (f : HostRec → HostRec) : (s.updHost h f).strips = s.strips := rfl
@[simp] theorem updHost_comps (s : State) (h : HostId) (f : HostRec → HostRec) : (s.updHost h f).comps = s.comps := rfl
@[simp] theorem updHost_compTurn (s : State) (h : HostId) (f : HostRec → HostRec) : (s.updHost h f).compTurn = s.compTurn := rfl
@[simp] theorem updHost_writeback (s : State) (h : HostId) (f : HostRec → HostRec) : (s.updHost h f).writeback = s.writeback := rfl
@[simp] theorem updHost_seq (s : State) (h : HostId) (f : HostRec → HostRec) : (s.updHost h f).seq = s.seq := rfl
@[simp] theorem updHost_engines (s : State) (h : HostId) (f : HostRec → HostRec) : (s.updHost h f).engines = s.engines := rfl
@[simp] theorem updHost_anvilExtra (s : State) (h : HostId) (f : HostRec → HostRec) : (s.updHost h f).anvilExtra = s.anvilExtra := rfl
@[simp] theorem updHost_staging (s : State) (h : HostId) (f : HostRec → HostRec) : (s.updHost h f).staging = s.staging := rfl
@[simp] theorem updHost_shares (s : State) (h : HostId) (f : HostRec → HostRec) : (s.updHost h f).shares = s.shares := rfl
@[simp] theorem updHost_links (s : State) (h : HostId) (f : HostRec → HostRec) : (s.updHost h f).links = s.links := rfl
@[simp] theorem updHost_web (s : State) (h : HostId) (f : HostRec → HostRec) : (s.updHost h f).web = s.web := rfl
@[simp] theorem updHost_chans (s : State) (h : HostId) (f : HostRec → HostRec) : (s.updHost h f).chans = s.chans := rfl
@[simp] theorem updHost_buckets (s : State) (h : HostId) (f : HostRec → HostRec) : (s.updHost h f).buckets = s.buckets := rfl
@[simp] theorem updHost_sr (s : State) (h : HostId) (f : HostRec → HostRec) : (s.updHost h f).sr = s.sr := rfl
@[simp] theorem updHost_quench (s : State) (h : HostId) (f : HostRec → HostRec) : (s.updHost h f).quench = s.quench := rfl
@[simp] theorem updHost_refilled (s : State) (h : HostId) (f : HostRec → HostRec) : (s.updHost h f).refilled = s.refilled := rfl
@[simp] theorem updHost_integTest (s : State) (h : HostId) (f : HostRec → HostRec) : (s.updHost h f).integTest = s.integTest := rfl
@[simp] theorem updHost_clk (s : State) (h : HostId) (f : HostRec → HostRec) : (s.updHost h f).clk = s.clk := rfl
@[simp] theorem updHost_boot (s : State) (h : HostId) (f : HostRec → HostRec) : (s.updHost h f).boot = s.boot := rfl
@[simp] theorem updHost_power (s : State) (h : HostId) (f : HostRec → HostRec) : (s.updHost h f).power = s.power := rfl
@[simp] theorem updHost_reads (s : State) (h : HostId) (f : HostRec → HostRec) : (s.updHost h f).reads = s.reads := rfl
@[simp] theorem updHost_out (s : State) (h : HostId) (f : HostRec → HostRec) : (s.updHost h f).out = s.out := rfl

/-! `updQueue` -/

@[simp] theorem updQueue_part (s : State) (h : HostId) (q : QueueId) (f : Queue → Queue) : (s.updQueue h q f).part = s.part := rfl
@[simp] theorem updQueue_pending (s : State) (h : HostId) (q : QueueId) (f : Queue → Queue) : (s.updQueue h q f).pending = s.pending := rfl
@[simp] theorem updQueue_time (s : State) (h : HostId) (q : QueueId) (f : Queue → Queue) : (s.updQueue h q f).time = s.time := rfl
@[simp] theorem updQueue_free (s : State) (h : HostId) (q : QueueId) (f : Queue → Queue) : (s.updQueue h q f).free = s.free := rfl
@[simp] theorem updQueue_role (s : State) (h : HostId) (q : QueueId) (f : Queue → Queue) : (s.updQueue h q f).role = s.role := rfl
@[simp] theorem updQueue_parts (s : State) (h : HostId) (q : QueueId) (f : Queue → Queue) : (s.updQueue h q f).parts = s.parts := rfl
@[simp] theorem updQueue_cmds (s : State) (h : HostId) (q : QueueId) (f : Queue → Queue) : (s.updQueue h q f).cmds = s.cmds := rfl
@[simp] theorem updQueue_nextId (s : State) (h : HostId) (q : QueueId) (f : Queue → Queue) : (s.updQueue h q f).nextId = s.nextId := rfl
@[simp] theorem updQueue_logs (s : State) (h : HostId) (q : QueueId) (f : Queue → Queue) : (s.updQueue h q f).logs = s.logs := rfl
@[simp] theorem updQueue_events (s : State) (h : HostId) (q : QueueId) (f : Queue → Queue) : (s.updQueue h q f).events = s.events := rfl
@[simp] theorem updQueue_ks (s : State) (h : HostId) (q : QueueId) (f : Queue → Queue) : (s.updQueue h q f).ks = s.ks := rfl
@[simp] theorem updQueue_raster (s : State) (h : HostId) (q : QueueId) (f : Queue → Queue) : (s.updQueue h q f).raster = s.raster := rfl
@[simp] theorem updQueue_strips (s : State) (h : HostId) (q : QueueId) (f : Queue → Queue) : (s.updQueue h q f).strips = s.strips := rfl
@[simp] theorem updQueue_comps (s : State) (h : HostId) (q : QueueId) (f : Queue → Queue) : (s.updQueue h q f).comps = s.comps := rfl
@[simp] theorem updQueue_compTurn (s : State) (h : HostId) (q : QueueId) (f : Queue → Queue) : (s.updQueue h q f).compTurn = s.compTurn := rfl
@[simp] theorem updQueue_writeback (s : State) (h : HostId) (q : QueueId) (f : Queue → Queue) : (s.updQueue h q f).writeback = s.writeback := rfl
@[simp] theorem updQueue_seq (s : State) (h : HostId) (q : QueueId) (f : Queue → Queue) : (s.updQueue h q f).seq = s.seq := rfl
@[simp] theorem updQueue_engines (s : State) (h : HostId) (q : QueueId) (f : Queue → Queue) : (s.updQueue h q f).engines = s.engines := rfl
@[simp] theorem updQueue_anvilExtra (s : State) (h : HostId) (q : QueueId) (f : Queue → Queue) : (s.updQueue h q f).anvilExtra = s.anvilExtra := rfl
@[simp] theorem updQueue_staging (s : State) (h : HostId) (q : QueueId) (f : Queue → Queue) : (s.updQueue h q f).staging = s.staging := rfl
@[simp] theorem updQueue_shares (s : State) (h : HostId) (q : QueueId) (f : Queue → Queue) : (s.updQueue h q f).shares = s.shares := rfl
@[simp] theorem updQueue_links (s : State) (h : HostId) (q : QueueId) (f : Queue → Queue) : (s.updQueue h q f).links = s.links := rfl
@[simp] theorem updQueue_web (s : State) (h : HostId) (q : QueueId) (f : Queue → Queue) : (s.updQueue h q f).web = s.web := rfl
@[simp] theorem updQueue_chans (s : State) (h : HostId) (q : QueueId) (f : Queue → Queue) : (s.updQueue h q f).chans = s.chans := rfl
@[simp] theorem updQueue_buckets (s : State) (h : HostId) (q : QueueId) (f : Queue → Queue) : (s.updQueue h q f).buckets = s.buckets := rfl
@[simp] theorem updQueue_sr (s : State) (h : HostId) (q : QueueId) (f : Queue → Queue) : (s.updQueue h q f).sr = s.sr := rfl
@[simp] theorem updQueue_quench (s : State) (h : HostId) (q : QueueId) (f : Queue → Queue) : (s.updQueue h q f).quench = s.quench := rfl
@[simp] theorem updQueue_refilled (s : State) (h : HostId) (q : QueueId) (f : Queue → Queue) : (s.updQueue h q f).refilled = s.refilled := rfl
@[simp] theorem updQueue_integTest (s : State) (h : HostId) (q : QueueId) (f : Queue → Queue) : (s.updQueue h q f).integTest = s.integTest := rfl
@[simp] theorem updQueue_clk (s : State) (h : HostId) (q : QueueId) (f : Queue → Queue) : (s.updQueue h q f).clk = s.clk := rfl
@[simp] theorem updQueue_boot (s : State) (h : HostId) (q : QueueId) (f : Queue → Queue) : (s.updQueue h q f).boot = s.boot := rfl
@[simp] theorem updQueue_power (s : State) (h : HostId) (q : QueueId) (f : Queue → Queue) : (s.updQueue h q f).power = s.power := rfl
@[simp] theorem updQueue_reads (s : State) (h : HostId) (q : QueueId) (f : Queue → Queue) : (s.updQueue h q f).reads = s.reads := rfl
@[simp] theorem updQueue_out (s : State) (h : HostId) (q : QueueId) (f : Queue → Queue) : (s.updQueue h q f).out = s.out := rfl

/-! `updVec` -/

@[simp] theorem updVec_part (s : State) (h : HostId) (v : Fin 32) (f : Vec → Vec) : (s.updVec h v f).part = s.part := rfl
@[simp] theorem updVec_pending (s : State) (h : HostId) (v : Fin 32) (f : Vec → Vec) : (s.updVec h v f).pending = s.pending := rfl
@[simp] theorem updVec_time (s : State) (h : HostId) (v : Fin 32) (f : Vec → Vec) : (s.updVec h v f).time = s.time := rfl
@[simp] theorem updVec_free (s : State) (h : HostId) (v : Fin 32) (f : Vec → Vec) : (s.updVec h v f).free = s.free := rfl
@[simp] theorem updVec_role (s : State) (h : HostId) (v : Fin 32) (f : Vec → Vec) : (s.updVec h v f).role = s.role := rfl
@[simp] theorem updVec_parts (s : State) (h : HostId) (v : Fin 32) (f : Vec → Vec) : (s.updVec h v f).parts = s.parts := rfl
@[simp] theorem updVec_cmds (s : State) (h : HostId) (v : Fin 32) (f : Vec → Vec) : (s.updVec h v f).cmds = s.cmds := rfl
@[simp] theorem updVec_nextId (s : State) (h : HostId) (v : Fin 32) (f : Vec → Vec) : (s.updVec h v f).nextId = s.nextId := rfl
@[simp] theorem updVec_logs (s : State) (h : HostId) (v : Fin 32) (f : Vec → Vec) : (s.updVec h v f).logs = s.logs := rfl
@[simp] theorem updVec_events (s : State) (h : HostId) (v : Fin 32) (f : Vec → Vec) : (s.updVec h v f).events = s.events := rfl
@[simp] theorem updVec_ks (s : State) (h : HostId) (v : Fin 32) (f : Vec → Vec) : (s.updVec h v f).ks = s.ks := rfl
@[simp] theorem updVec_raster (s : State) (h : HostId) (v : Fin 32) (f : Vec → Vec) : (s.updVec h v f).raster = s.raster := rfl
@[simp] theorem updVec_strips (s : State) (h : HostId) (v : Fin 32) (f : Vec → Vec) : (s.updVec h v f).strips = s.strips := rfl
@[simp] theorem updVec_comps (s : State) (h : HostId) (v : Fin 32) (f : Vec → Vec) : (s.updVec h v f).comps = s.comps := rfl
@[simp] theorem updVec_compTurn (s : State) (h : HostId) (v : Fin 32) (f : Vec → Vec) : (s.updVec h v f).compTurn = s.compTurn := rfl
@[simp] theorem updVec_writeback (s : State) (h : HostId) (v : Fin 32) (f : Vec → Vec) : (s.updVec h v f).writeback = s.writeback := rfl
@[simp] theorem updVec_seq (s : State) (h : HostId) (v : Fin 32) (f : Vec → Vec) : (s.updVec h v f).seq = s.seq := rfl
@[simp] theorem updVec_engines (s : State) (h : HostId) (v : Fin 32) (f : Vec → Vec) : (s.updVec h v f).engines = s.engines := rfl
@[simp] theorem updVec_anvilExtra (s : State) (h : HostId) (v : Fin 32) (f : Vec → Vec) : (s.updVec h v f).anvilExtra = s.anvilExtra := rfl
@[simp] theorem updVec_staging (s : State) (h : HostId) (v : Fin 32) (f : Vec → Vec) : (s.updVec h v f).staging = s.staging := rfl
@[simp] theorem updVec_shares (s : State) (h : HostId) (v : Fin 32) (f : Vec → Vec) : (s.updVec h v f).shares = s.shares := rfl
@[simp] theorem updVec_links (s : State) (h : HostId) (v : Fin 32) (f : Vec → Vec) : (s.updVec h v f).links = s.links := rfl
@[simp] theorem updVec_web (s : State) (h : HostId) (v : Fin 32) (f : Vec → Vec) : (s.updVec h v f).web = s.web := rfl
@[simp] theorem updVec_chans (s : State) (h : HostId) (v : Fin 32) (f : Vec → Vec) : (s.updVec h v f).chans = s.chans := rfl
@[simp] theorem updVec_buckets (s : State) (h : HostId) (v : Fin 32) (f : Vec → Vec) : (s.updVec h v f).buckets = s.buckets := rfl
@[simp] theorem updVec_sr (s : State) (h : HostId) (v : Fin 32) (f : Vec → Vec) : (s.updVec h v f).sr = s.sr := rfl
@[simp] theorem updVec_quench (s : State) (h : HostId) (v : Fin 32) (f : Vec → Vec) : (s.updVec h v f).quench = s.quench := rfl
@[simp] theorem updVec_refilled (s : State) (h : HostId) (v : Fin 32) (f : Vec → Vec) : (s.updVec h v f).refilled = s.refilled := rfl
@[simp] theorem updVec_integTest (s : State) (h : HostId) (v : Fin 32) (f : Vec → Vec) : (s.updVec h v f).integTest = s.integTest := rfl
@[simp] theorem updVec_clk (s : State) (h : HostId) (v : Fin 32) (f : Vec → Vec) : (s.updVec h v f).clk = s.clk := rfl
@[simp] theorem updVec_boot (s : State) (h : HostId) (v : Fin 32) (f : Vec → Vec) : (s.updVec h v f).boot = s.boot := rfl
@[simp] theorem updVec_power (s : State) (h : HostId) (v : Fin 32) (f : Vec → Vec) : (s.updVec h v f).power = s.power := rfl
@[simp] theorem updVec_reads (s : State) (h : HostId) (v : Fin 32) (f : Vec → Vec) : (s.updVec h v f).reads = s.reads := rfl
@[simp] theorem updVec_out (s : State) (h : HostId) (v : Fin 32) (f : Vec → Vec) : (s.updVec h v f).out = s.out := rfl

/-! `updLink` -/

@[simp] theorem updLink_part (s : State) (n : LinkId) (f : Link → Link) : (s.updLink n f).part = s.part := rfl
@[simp] theorem updLink_pending (s : State) (n : LinkId) (f : Link → Link) : (s.updLink n f).pending = s.pending := rfl
@[simp] theorem updLink_time (s : State) (n : LinkId) (f : Link → Link) : (s.updLink n f).time = s.time := rfl
@[simp] theorem updLink_free (s : State) (n : LinkId) (f : Link → Link) : (s.updLink n f).free = s.free := rfl
@[simp] theorem updLink_hosts (s : State) (n : LinkId) (f : Link → Link) : (s.updLink n f).hosts = s.hosts := rfl
@[simp] theorem updLink_role (s : State) (n : LinkId) (f : Link → Link) : (s.updLink n f).role = s.role := rfl
@[simp] theorem updLink_parts (s : State) (n : LinkId) (f : Link → Link) : (s.updLink n f).parts = s.parts := rfl
@[simp] theorem updLink_cmds (s : State) (n : LinkId) (f : Link → Link) : (s.updLink n f).cmds = s.cmds := rfl
@[simp] theorem updLink_nextId (s : State) (n : LinkId) (f : Link → Link) : (s.updLink n f).nextId = s.nextId := rfl
@[simp] theorem updLink_logs (s : State) (n : LinkId) (f : Link → Link) : (s.updLink n f).logs = s.logs := rfl
@[simp] theorem updLink_events (s : State) (n : LinkId) (f : Link → Link) : (s.updLink n f).events = s.events := rfl
@[simp] theorem updLink_ks (s : State) (n : LinkId) (f : Link → Link) : (s.updLink n f).ks = s.ks := rfl
@[simp] theorem updLink_raster (s : State) (n : LinkId) (f : Link → Link) : (s.updLink n f).raster = s.raster := rfl
@[simp] theorem updLink_strips (s : State) (n : LinkId) (f : Link → Link) : (s.updLink n f).strips = s.strips := rfl
@[simp] theorem updLink_comps (s : State) (n : LinkId) (f : Link → Link) : (s.updLink n f).comps = s.comps := rfl
@[simp] theorem updLink_compTurn (s : State) (n : LinkId) (f : Link → Link) : (s.updLink n f).compTurn = s.compTurn := rfl
@[simp] theorem updLink_writeback (s : State) (n : LinkId) (f : Link → Link) : (s.updLink n f).writeback = s.writeback := rfl
@[simp] theorem updLink_seq (s : State) (n : LinkId) (f : Link → Link) : (s.updLink n f).seq = s.seq := rfl
@[simp] theorem updLink_engines (s : State) (n : LinkId) (f : Link → Link) : (s.updLink n f).engines = s.engines := rfl
@[simp] theorem updLink_anvilExtra (s : State) (n : LinkId) (f : Link → Link) : (s.updLink n f).anvilExtra = s.anvilExtra := rfl
@[simp] theorem updLink_staging (s : State) (n : LinkId) (f : Link → Link) : (s.updLink n f).staging = s.staging := rfl
@[simp] theorem updLink_shares (s : State) (n : LinkId) (f : Link → Link) : (s.updLink n f).shares = s.shares := rfl
@[simp] theorem updLink_links (s : State) (n : LinkId) (f : Link → Link) : (s.updLink n f).links = vmod s.links n f := rfl
@[simp] theorem updLink_web (s : State) (n : LinkId) (f : Link → Link) : (s.updLink n f).web = s.web := rfl
@[simp] theorem updLink_chans (s : State) (n : LinkId) (f : Link → Link) : (s.updLink n f).chans = s.chans := rfl
@[simp] theorem updLink_buckets (s : State) (n : LinkId) (f : Link → Link) : (s.updLink n f).buckets = s.buckets := rfl
@[simp] theorem updLink_sr (s : State) (n : LinkId) (f : Link → Link) : (s.updLink n f).sr = s.sr := rfl
@[simp] theorem updLink_quench (s : State) (n : LinkId) (f : Link → Link) : (s.updLink n f).quench = s.quench := rfl
@[simp] theorem updLink_refilled (s : State) (n : LinkId) (f : Link → Link) : (s.updLink n f).refilled = s.refilled := rfl
@[simp] theorem updLink_integTest (s : State) (n : LinkId) (f : Link → Link) : (s.updLink n f).integTest = s.integTest := rfl
@[simp] theorem updLink_clk (s : State) (n : LinkId) (f : Link → Link) : (s.updLink n f).clk = s.clk := rfl
@[simp] theorem updLink_boot (s : State) (n : LinkId) (f : Link → Link) : (s.updLink n f).boot = s.boot := rfl
@[simp] theorem updLink_power (s : State) (n : LinkId) (f : Link → Link) : (s.updLink n f).power = s.power := rfl
@[simp] theorem updLink_reads (s : State) (n : LinkId) (f : Link → Link) : (s.updLink n f).reads = s.reads := rfl
@[simp] theorem updLink_out (s : State) (n : LinkId) (f : Link → Link) : (s.updLink n f).out = s.out := rfl

/-! `updFetch` -/

@[simp] theorem updFetch_part (s : State) (n : LinkId) (f : Fetch → Fetch) : (s.updFetch n f).part = s.part := rfl
@[simp] theorem updFetch_pending (s : State) (n : LinkId) (f : Fetch → Fetch) : (s.updFetch n f).pending = s.pending := rfl
@[simp] theorem updFetch_time (s : State) (n : LinkId) (f : Fetch → Fetch) : (s.updFetch n f).time = s.time := rfl
@[simp] theorem updFetch_free (s : State) (n : LinkId) (f : Fetch → Fetch) : (s.updFetch n f).free = s.free := rfl
@[simp] theorem updFetch_hosts (s : State) (n : LinkId) (f : Fetch → Fetch) : (s.updFetch n f).hosts = s.hosts := rfl
@[simp] theorem updFetch_role (s : State) (n : LinkId) (f : Fetch → Fetch) : (s.updFetch n f).role = s.role := rfl
@[simp] theorem updFetch_parts (s : State) (n : LinkId) (f : Fetch → Fetch) : (s.updFetch n f).parts = s.parts := rfl
@[simp] theorem updFetch_cmds (s : State) (n : LinkId) (f : Fetch → Fetch) : (s.updFetch n f).cmds = s.cmds := rfl
@[simp] theorem updFetch_nextId (s : State) (n : LinkId) (f : Fetch → Fetch) : (s.updFetch n f).nextId = s.nextId := rfl
@[simp] theorem updFetch_logs (s : State) (n : LinkId) (f : Fetch → Fetch) : (s.updFetch n f).logs = s.logs := rfl
@[simp] theorem updFetch_events (s : State) (n : LinkId) (f : Fetch → Fetch) : (s.updFetch n f).events = s.events := rfl
@[simp] theorem updFetch_ks (s : State) (n : LinkId) (f : Fetch → Fetch) : (s.updFetch n f).ks = s.ks := rfl
@[simp] theorem updFetch_raster (s : State) (n : LinkId) (f : Fetch → Fetch) : (s.updFetch n f).raster = s.raster := rfl
@[simp] theorem updFetch_strips (s : State) (n : LinkId) (f : Fetch → Fetch) : (s.updFetch n f).strips = s.strips := rfl
@[simp] theorem updFetch_comps (s : State) (n : LinkId) (f : Fetch → Fetch) : (s.updFetch n f).comps = s.comps := rfl
@[simp] theorem updFetch_compTurn (s : State) (n : LinkId) (f : Fetch → Fetch) : (s.updFetch n f).compTurn = s.compTurn := rfl
@[simp] theorem updFetch_writeback (s : State) (n : LinkId) (f : Fetch → Fetch) : (s.updFetch n f).writeback = s.writeback := rfl
@[simp] theorem updFetch_seq (s : State) (n : LinkId) (f : Fetch → Fetch) : (s.updFetch n f).seq = s.seq := rfl
@[simp] theorem updFetch_engines (s : State) (n : LinkId) (f : Fetch → Fetch) : (s.updFetch n f).engines = s.engines := rfl
@[simp] theorem updFetch_anvilExtra (s : State) (n : LinkId) (f : Fetch → Fetch) : (s.updFetch n f).anvilExtra = s.anvilExtra := rfl
@[simp] theorem updFetch_staging (s : State) (n : LinkId) (f : Fetch → Fetch) : (s.updFetch n f).staging = s.staging := rfl
@[simp] theorem updFetch_shares (s : State) (n : LinkId) (f : Fetch → Fetch) : (s.updFetch n f).shares = s.shares := rfl
@[simp] theorem updFetch_web (s : State) (n : LinkId) (f : Fetch → Fetch) : (s.updFetch n f).web = s.web := rfl
@[simp] theorem updFetch_chans (s : State) (n : LinkId) (f : Fetch → Fetch) : (s.updFetch n f).chans = s.chans := rfl
@[simp] theorem updFetch_buckets (s : State) (n : LinkId) (f : Fetch → Fetch) : (s.updFetch n f).buckets = s.buckets := rfl
@[simp] theorem updFetch_sr (s : State) (n : LinkId) (f : Fetch → Fetch) : (s.updFetch n f).sr = s.sr := rfl
@[simp] theorem updFetch_quench (s : State) (n : LinkId) (f : Fetch → Fetch) : (s.updFetch n f).quench = s.quench := rfl
@[simp] theorem updFetch_refilled (s : State) (n : LinkId) (f : Fetch → Fetch) : (s.updFetch n f).refilled = s.refilled := rfl
@[simp] theorem updFetch_integTest (s : State) (n : LinkId) (f : Fetch → Fetch) : (s.updFetch n f).integTest = s.integTest := rfl
@[simp] theorem updFetch_clk (s : State) (n : LinkId) (f : Fetch → Fetch) : (s.updFetch n f).clk = s.clk := rfl
@[simp] theorem updFetch_boot (s : State) (n : LinkId) (f : Fetch → Fetch) : (s.updFetch n f).boot = s.boot := rfl
@[simp] theorem updFetch_power (s : State) (n : LinkId) (f : Fetch → Fetch) : (s.updFetch n f).power = s.power := rfl
@[simp] theorem updFetch_reads (s : State) (n : LinkId) (f : Fetch → Fetch) : (s.updFetch n f).reads = s.reads := rfl
@[simp] theorem updFetch_out (s : State) (n : LinkId) (f : Fetch → Fetch) : (s.updFetch n f).out = s.out := rfl

/-! `updChan` -/

@[simp] theorem updChan_part (s : State) (c : ChanId) (f : Chan → Chan) : (s.updChan c f).part = s.part := rfl
@[simp] theorem updChan_pending (s : State) (c : ChanId) (f : Chan → Chan) : (s.updChan c f).pending = s.pending := rfl
@[simp] theorem updChan_time (s : State) (c : ChanId) (f : Chan → Chan) : (s.updChan c f).time = s.time := rfl
@[simp] theorem updChan_free (s : State) (c : ChanId) (f : Chan → Chan) : (s.updChan c f).free = s.free := rfl
@[simp] theorem updChan_hosts (s : State) (c : ChanId) (f : Chan → Chan) : (s.updChan c f).hosts = s.hosts := rfl
@[simp] theorem updChan_role (s : State) (c : ChanId) (f : Chan → Chan) : (s.updChan c f).role = s.role := rfl
@[simp] theorem updChan_parts (s : State) (c : ChanId) (f : Chan → Chan) : (s.updChan c f).parts = s.parts := rfl
@[simp] theorem updChan_cmds (s : State) (c : ChanId) (f : Chan → Chan) : (s.updChan c f).cmds = s.cmds := rfl
@[simp] theorem updChan_nextId (s : State) (c : ChanId) (f : Chan → Chan) : (s.updChan c f).nextId = s.nextId := rfl
@[simp] theorem updChan_logs (s : State) (c : ChanId) (f : Chan → Chan) : (s.updChan c f).logs = s.logs := rfl
@[simp] theorem updChan_events (s : State) (c : ChanId) (f : Chan → Chan) : (s.updChan c f).events = s.events := rfl
@[simp] theorem updChan_ks (s : State) (c : ChanId) (f : Chan → Chan) : (s.updChan c f).ks = s.ks := rfl
@[simp] theorem updChan_raster (s : State) (c : ChanId) (f : Chan → Chan) : (s.updChan c f).raster = s.raster := rfl
@[simp] theorem updChan_strips (s : State) (c : ChanId) (f : Chan → Chan) : (s.updChan c f).strips = s.strips := rfl
@[simp] theorem updChan_comps (s : State) (c : ChanId) (f : Chan → Chan) : (s.updChan c f).comps = s.comps := rfl
@[simp] theorem updChan_compTurn (s : State) (c : ChanId) (f : Chan → Chan) : (s.updChan c f).compTurn = s.compTurn := rfl
@[simp] theorem updChan_writeback (s : State) (c : ChanId) (f : Chan → Chan) : (s.updChan c f).writeback = s.writeback := rfl
@[simp] theorem updChan_seq (s : State) (c : ChanId) (f : Chan → Chan) : (s.updChan c f).seq = s.seq := rfl
@[simp] theorem updChan_engines (s : State) (c : ChanId) (f : Chan → Chan) : (s.updChan c f).engines = s.engines := rfl
@[simp] theorem updChan_anvilExtra (s : State) (c : ChanId) (f : Chan → Chan) : (s.updChan c f).anvilExtra = s.anvilExtra := rfl
@[simp] theorem updChan_staging (s : State) (c : ChanId) (f : Chan → Chan) : (s.updChan c f).staging = s.staging := rfl
@[simp] theorem updChan_shares (s : State) (c : ChanId) (f : Chan → Chan) : (s.updChan c f).shares = s.shares := rfl
@[simp] theorem updChan_links (s : State) (c : ChanId) (f : Chan → Chan) : (s.updChan c f).links = s.links := rfl
@[simp] theorem updChan_web (s : State) (c : ChanId) (f : Chan → Chan) : (s.updChan c f).web = s.web := rfl
@[simp] theorem updChan_chans (s : State) (c : ChanId) (f : Chan → Chan) : (s.updChan c f).chans = vmod s.chans c f := rfl
@[simp] theorem updChan_buckets (s : State) (c : ChanId) (f : Chan → Chan) : (s.updChan c f).buckets = s.buckets := rfl
@[simp] theorem updChan_sr (s : State) (c : ChanId) (f : Chan → Chan) : (s.updChan c f).sr = s.sr := rfl
@[simp] theorem updChan_quench (s : State) (c : ChanId) (f : Chan → Chan) : (s.updChan c f).quench = s.quench := rfl
@[simp] theorem updChan_refilled (s : State) (c : ChanId) (f : Chan → Chan) : (s.updChan c f).refilled = s.refilled := rfl
@[simp] theorem updChan_integTest (s : State) (c : ChanId) (f : Chan → Chan) : (s.updChan c f).integTest = s.integTest := rfl
@[simp] theorem updChan_clk (s : State) (c : ChanId) (f : Chan → Chan) : (s.updChan c f).clk = s.clk := rfl
@[simp] theorem updChan_boot (s : State) (c : ChanId) (f : Chan → Chan) : (s.updChan c f).boot = s.boot := rfl
@[simp] theorem updChan_power (s : State) (c : ChanId) (f : Chan → Chan) : (s.updChan c f).power = s.power := rfl
@[simp] theorem updChan_reads (s : State) (c : ChanId) (f : Chan → Chan) : (s.updChan c f).reads = s.reads := rfl
@[simp] theorem updChan_out (s : State) (c : ChanId) (f : Chan → Chan) : (s.updChan c f).out = s.out := rfl

/-! `updRank` -/

@[simp] theorem updRank_part (s : State) (c : ChanId) (r : RankId) (f : Rank → Rank) : (s.updRank c r f).part = s.part := rfl
@[simp] theorem updRank_pending (s : State) (c : ChanId) (r : RankId) (f : Rank → Rank) : (s.updRank c r f).pending = s.pending := rfl
@[simp] theorem updRank_time (s : State) (c : ChanId) (r : RankId) (f : Rank → Rank) : (s.updRank c r f).time = s.time := rfl
@[simp] theorem updRank_free (s : State) (c : ChanId) (r : RankId) (f : Rank → Rank) : (s.updRank c r f).free = s.free := rfl
@[simp] theorem updRank_hosts (s : State) (c : ChanId) (r : RankId) (f : Rank → Rank) : (s.updRank c r f).hosts = s.hosts := rfl
@[simp] theorem updRank_role (s : State) (c : ChanId) (r : RankId) (f : Rank → Rank) : (s.updRank c r f).role = s.role := rfl
@[simp] theorem updRank_parts (s : State) (c : ChanId) (r : RankId) (f : Rank → Rank) : (s.updRank c r f).parts = s.parts := rfl
@[simp] theorem updRank_cmds (s : State) (c : ChanId) (r : RankId) (f : Rank → Rank) : (s.updRank c r f).cmds = s.cmds := rfl
@[simp] theorem updRank_nextId (s : State) (c : ChanId) (r : RankId) (f : Rank → Rank) : (s.updRank c r f).nextId = s.nextId := rfl
@[simp] theorem updRank_logs (s : State) (c : ChanId) (r : RankId) (f : Rank → Rank) : (s.updRank c r f).logs = s.logs := rfl
@[simp] theorem updRank_events (s : State) (c : ChanId) (r : RankId) (f : Rank → Rank) : (s.updRank c r f).events = s.events := rfl
@[simp] theorem updRank_ks (s : State) (c : ChanId) (r : RankId) (f : Rank → Rank) : (s.updRank c r f).ks = s.ks := rfl
@[simp] theorem updRank_raster (s : State) (c : ChanId) (r : RankId) (f : Rank → Rank) : (s.updRank c r f).raster = s.raster := rfl
@[simp] theorem updRank_strips (s : State) (c : ChanId) (r : RankId) (f : Rank → Rank) : (s.updRank c r f).strips = s.strips := rfl
@[simp] theorem updRank_comps (s : State) (c : ChanId) (r : RankId) (f : Rank → Rank) : (s.updRank c r f).comps = s.comps := rfl
@[simp] theorem updRank_compTurn (s : State) (c : ChanId) (r : RankId) (f : Rank → Rank) : (s.updRank c r f).compTurn = s.compTurn := rfl
@[simp] theorem updRank_writeback (s : State) (c : ChanId) (r : RankId) (f : Rank → Rank) : (s.updRank c r f).writeback = s.writeback := rfl
@[simp] theorem updRank_seq (s : State) (c : ChanId) (r : RankId) (f : Rank → Rank) : (s.updRank c r f).seq = s.seq := rfl
@[simp] theorem updRank_engines (s : State) (c : ChanId) (r : RankId) (f : Rank → Rank) : (s.updRank c r f).engines = s.engines := rfl
@[simp] theorem updRank_anvilExtra (s : State) (c : ChanId) (r : RankId) (f : Rank → Rank) : (s.updRank c r f).anvilExtra = s.anvilExtra := rfl
@[simp] theorem updRank_staging (s : State) (c : ChanId) (r : RankId) (f : Rank → Rank) : (s.updRank c r f).staging = s.staging := rfl
@[simp] theorem updRank_shares (s : State) (c : ChanId) (r : RankId) (f : Rank → Rank) : (s.updRank c r f).shares = s.shares := rfl
@[simp] theorem updRank_links (s : State) (c : ChanId) (r : RankId) (f : Rank → Rank) : (s.updRank c r f).links = s.links := rfl
@[simp] theorem updRank_web (s : State) (c : ChanId) (r : RankId) (f : Rank → Rank) : (s.updRank c r f).web = s.web := rfl
@[simp] theorem updRank_buckets (s : State) (c : ChanId) (r : RankId) (f : Rank → Rank) : (s.updRank c r f).buckets = s.buckets := rfl
@[simp] theorem updRank_sr (s : State) (c : ChanId) (r : RankId) (f : Rank → Rank) : (s.updRank c r f).sr = s.sr := rfl
@[simp] theorem updRank_quench (s : State) (c : ChanId) (r : RankId) (f : Rank → Rank) : (s.updRank c r f).quench = s.quench := rfl
@[simp] theorem updRank_refilled (s : State) (c : ChanId) (r : RankId) (f : Rank → Rank) : (s.updRank c r f).refilled = s.refilled := rfl
@[simp] theorem updRank_integTest (s : State) (c : ChanId) (r : RankId) (f : Rank → Rank) : (s.updRank c r f).integTest = s.integTest := rfl
@[simp] theorem updRank_clk (s : State) (c : ChanId) (r : RankId) (f : Rank → Rank) : (s.updRank c r f).clk = s.clk := rfl
@[simp] theorem updRank_boot (s : State) (c : ChanId) (r : RankId) (f : Rank → Rank) : (s.updRank c r f).boot = s.boot := rfl
@[simp] theorem updRank_power (s : State) (c : ChanId) (r : RankId) (f : Rank → Rank) : (s.updRank c r f).power = s.power := rfl
@[simp] theorem updRank_reads (s : State) (c : ChanId) (r : RankId) (f : Rank → Rank) : (s.updRank c r f).reads = s.reads := rfl
@[simp] theorem updRank_out (s : State) (c : ChanId) (r : RankId) (f : Rank → Rank) : (s.updRank c r f).out = s.out := rfl

/-! `updScrub` -/

@[simp] theorem updScrub_part (s : State) (c : ChanId) (f : Scrub → Scrub) : (s.updScrub c f).part = s.part := rfl
@[simp] theorem updScrub_pending (s : State) (c : ChanId) (f : Scrub → Scrub) : (s.updScrub c f).pending = s.pending := rfl
@[simp] theorem updScrub_time (s : State) (c : ChanId) (f : Scrub → Scrub) : (s.updScrub c f).time = s.time := rfl
@[simp] theorem updScrub_free (s : State) (c : ChanId) (f : Scrub → Scrub) : (s.updScrub c f).free = s.free := rfl
@[simp] theorem updScrub_hosts (s : State) (c : ChanId) (f : Scrub → Scrub) : (s.updScrub c f).hosts = s.hosts := rfl
@[simp] theorem updScrub_role (s : State) (c : ChanId) (f : Scrub → Scrub) : (s.updScrub c f).role = s.role := rfl
@[simp] theorem updScrub_parts (s : State) (c : ChanId) (f : Scrub → Scrub) : (s.updScrub c f).parts = s.parts := rfl
@[simp] theorem updScrub_cmds (s : State) (c : ChanId) (f : Scrub → Scrub) : (s.updScrub c f).cmds = s.cmds := rfl
@[simp] theorem updScrub_nextId (s : State) (c : ChanId) (f : Scrub → Scrub) : (s.updScrub c f).nextId = s.nextId := rfl
@[simp] theorem updScrub_logs (s : State) (c : ChanId) (f : Scrub → Scrub) : (s.updScrub c f).logs = s.logs := rfl
@[simp] theorem updScrub_events (s : State) (c : ChanId) (f : Scrub → Scrub) : (s.updScrub c f).events = s.events := rfl
@[simp] theorem updScrub_ks (s : State) (c : ChanId) (f : Scrub → Scrub) : (s.updScrub c f).ks = s.ks := rfl
@[simp] theorem updScrub_raster (s : State) (c : ChanId) (f : Scrub → Scrub) : (s.updScrub c f).raster = s.raster := rfl
@[simp] theorem updScrub_strips (s : State) (c : ChanId) (f : Scrub → Scrub) : (s.updScrub c f).strips = s.strips := rfl
@[simp] theorem updScrub_comps (s : State) (c : ChanId) (f : Scrub → Scrub) : (s.updScrub c f).comps = s.comps := rfl
@[simp] theorem updScrub_compTurn (s : State) (c : ChanId) (f : Scrub → Scrub) : (s.updScrub c f).compTurn = s.compTurn := rfl
@[simp] theorem updScrub_writeback (s : State) (c : ChanId) (f : Scrub → Scrub) : (s.updScrub c f).writeback = s.writeback := rfl
@[simp] theorem updScrub_seq (s : State) (c : ChanId) (f : Scrub → Scrub) : (s.updScrub c f).seq = s.seq := rfl
@[simp] theorem updScrub_engines (s : State) (c : ChanId) (f : Scrub → Scrub) : (s.updScrub c f).engines = s.engines := rfl
@[simp] theorem updScrub_anvilExtra (s : State) (c : ChanId) (f : Scrub → Scrub) : (s.updScrub c f).anvilExtra = s.anvilExtra := rfl
@[simp] theorem updScrub_staging (s : State) (c : ChanId) (f : Scrub → Scrub) : (s.updScrub c f).staging = s.staging := rfl
@[simp] theorem updScrub_shares (s : State) (c : ChanId) (f : Scrub → Scrub) : (s.updScrub c f).shares = s.shares := rfl
@[simp] theorem updScrub_links (s : State) (c : ChanId) (f : Scrub → Scrub) : (s.updScrub c f).links = s.links := rfl
@[simp] theorem updScrub_web (s : State) (c : ChanId) (f : Scrub → Scrub) : (s.updScrub c f).web = s.web := rfl
@[simp] theorem updScrub_buckets (s : State) (c : ChanId) (f : Scrub → Scrub) : (s.updScrub c f).buckets = s.buckets := rfl
@[simp] theorem updScrub_sr (s : State) (c : ChanId) (f : Scrub → Scrub) : (s.updScrub c f).sr = s.sr := rfl
@[simp] theorem updScrub_quench (s : State) (c : ChanId) (f : Scrub → Scrub) : (s.updScrub c f).quench = s.quench := rfl
@[simp] theorem updScrub_refilled (s : State) (c : ChanId) (f : Scrub → Scrub) : (s.updScrub c f).refilled = s.refilled := rfl
@[simp] theorem updScrub_integTest (s : State) (c : ChanId) (f : Scrub → Scrub) : (s.updScrub c f).integTest = s.integTest := rfl
@[simp] theorem updScrub_clk (s : State) (c : ChanId) (f : Scrub → Scrub) : (s.updScrub c f).clk = s.clk := rfl
@[simp] theorem updScrub_boot (s : State) (c : ChanId) (f : Scrub → Scrub) : (s.updScrub c f).boot = s.boot := rfl
@[simp] theorem updScrub_power (s : State) (c : ChanId) (f : Scrub → Scrub) : (s.updScrub c f).power = s.power := rfl
@[simp] theorem updScrub_reads (s : State) (c : ChanId) (f : Scrub → Scrub) : (s.updScrub c f).reads = s.reads := rfl
@[simp] theorem updScrub_out (s : State) (c : ChanId) (f : Scrub → Scrub) : (s.updScrub c f).out = s.out := rfl

/-! `updMig` -/

@[simp] theorem updMig_part (s : State) (c : ChanId) (f : Mig → Mig) : (s.updMig c f).part = s.part := rfl
@[simp] theorem updMig_pending (s : State) (c : ChanId) (f : Mig → Mig) : (s.updMig c f).pending = s.pending := rfl
@[simp] theorem updMig_time (s : State) (c : ChanId) (f : Mig → Mig) : (s.updMig c f).time = s.time := rfl
@[simp] theorem updMig_free (s : State) (c : ChanId) (f : Mig → Mig) : (s.updMig c f).free = s.free := rfl
@[simp] theorem updMig_hosts (s : State) (c : ChanId) (f : Mig → Mig) : (s.updMig c f).hosts = s.hosts := rfl
@[simp] theorem updMig_role (s : State) (c : ChanId) (f : Mig → Mig) : (s.updMig c f).role = s.role := rfl
@[simp] theorem updMig_parts (s : State) (c : ChanId) (f : Mig → Mig) : (s.updMig c f).parts = s.parts := rfl
@[simp] theorem updMig_cmds (s : State) (c : ChanId) (f : Mig → Mig) : (s.updMig c f).cmds = s.cmds := rfl
@[simp] theorem updMig_nextId (s : State) (c : ChanId) (f : Mig → Mig) : (s.updMig c f).nextId = s.nextId := rfl
@[simp] theorem updMig_logs (s : State) (c : ChanId) (f : Mig → Mig) : (s.updMig c f).logs = s.logs := rfl
@[simp] theorem updMig_events (s : State) (c : ChanId) (f : Mig → Mig) : (s.updMig c f).events = s.events := rfl
@[simp] theorem updMig_ks (s : State) (c : ChanId) (f : Mig → Mig) : (s.updMig c f).ks = s.ks := rfl
@[simp] theorem updMig_raster (s : State) (c : ChanId) (f : Mig → Mig) : (s.updMig c f).raster = s.raster := rfl
@[simp] theorem updMig_strips (s : State) (c : ChanId) (f : Mig → Mig) : (s.updMig c f).strips = s.strips := rfl
@[simp] theorem updMig_comps (s : State) (c : ChanId) (f : Mig → Mig) : (s.updMig c f).comps = s.comps := rfl
@[simp] theorem updMig_compTurn (s : State) (c : ChanId) (f : Mig → Mig) : (s.updMig c f).compTurn = s.compTurn := rfl
@[simp] theorem updMig_writeback (s : State) (c : ChanId) (f : Mig → Mig) : (s.updMig c f).writeback = s.writeback := rfl
@[simp] theorem updMig_seq (s : State) (c : ChanId) (f : Mig → Mig) : (s.updMig c f).seq = s.seq := rfl
@[simp] theorem updMig_engines (s : State) (c : ChanId) (f : Mig → Mig) : (s.updMig c f).engines = s.engines := rfl
@[simp] theorem updMig_anvilExtra (s : State) (c : ChanId) (f : Mig → Mig) : (s.updMig c f).anvilExtra = s.anvilExtra := rfl
@[simp] theorem updMig_staging (s : State) (c : ChanId) (f : Mig → Mig) : (s.updMig c f).staging = s.staging := rfl
@[simp] theorem updMig_shares (s : State) (c : ChanId) (f : Mig → Mig) : (s.updMig c f).shares = s.shares := rfl
@[simp] theorem updMig_links (s : State) (c : ChanId) (f : Mig → Mig) : (s.updMig c f).links = s.links := rfl
@[simp] theorem updMig_web (s : State) (c : ChanId) (f : Mig → Mig) : (s.updMig c f).web = s.web := rfl
@[simp] theorem updMig_buckets (s : State) (c : ChanId) (f : Mig → Mig) : (s.updMig c f).buckets = s.buckets := rfl
@[simp] theorem updMig_sr (s : State) (c : ChanId) (f : Mig → Mig) : (s.updMig c f).sr = s.sr := rfl
@[simp] theorem updMig_quench (s : State) (c : ChanId) (f : Mig → Mig) : (s.updMig c f).quench = s.quench := rfl
@[simp] theorem updMig_refilled (s : State) (c : ChanId) (f : Mig → Mig) : (s.updMig c f).refilled = s.refilled := rfl
@[simp] theorem updMig_integTest (s : State) (c : ChanId) (f : Mig → Mig) : (s.updMig c f).integTest = s.integTest := rfl
@[simp] theorem updMig_clk (s : State) (c : ChanId) (f : Mig → Mig) : (s.updMig c f).clk = s.clk := rfl
@[simp] theorem updMig_boot (s : State) (c : ChanId) (f : Mig → Mig) : (s.updMig c f).boot = s.boot := rfl
@[simp] theorem updMig_power (s : State) (c : ChanId) (f : Mig → Mig) : (s.updMig c f).power = s.power := rfl
@[simp] theorem updMig_reads (s : State) (c : ChanId) (f : Mig → Mig) : (s.updMig c f).reads = s.reads := rfl
@[simp] theorem updMig_out (s : State) (c : ChanId) (f : Mig → Mig) : (s.updMig c f).out = s.out := rfl

/-! `updEngine` -/

@[simp] theorem updEngine_part (s : State) (e : Fin 34) (f : Engine → Engine) : (s.updEngine e f).part = s.part := rfl
@[simp] theorem updEngine_pending (s : State) (e : Fin 34) (f : Engine → Engine) : (s.updEngine e f).pending = s.pending := rfl
@[simp] theorem updEngine_time (s : State) (e : Fin 34) (f : Engine → Engine) : (s.updEngine e f).time = s.time := rfl
@[simp] theorem updEngine_free (s : State) (e : Fin 34) (f : Engine → Engine) : (s.updEngine e f).free = s.free := rfl
@[simp] theorem updEngine_hosts (s : State) (e : Fin 34) (f : Engine → Engine) : (s.updEngine e f).hosts = s.hosts := rfl
@[simp] theorem updEngine_role (s : State) (e : Fin 34) (f : Engine → Engine) : (s.updEngine e f).role = s.role := rfl
@[simp] theorem updEngine_parts (s : State) (e : Fin 34) (f : Engine → Engine) : (s.updEngine e f).parts = s.parts := rfl
@[simp] theorem updEngine_cmds (s : State) (e : Fin 34) (f : Engine → Engine) : (s.updEngine e f).cmds = s.cmds := rfl
@[simp] theorem updEngine_nextId (s : State) (e : Fin 34) (f : Engine → Engine) : (s.updEngine e f).nextId = s.nextId := rfl
@[simp] theorem updEngine_logs (s : State) (e : Fin 34) (f : Engine → Engine) : (s.updEngine e f).logs = s.logs := rfl
@[simp] theorem updEngine_events (s : State) (e : Fin 34) (f : Engine → Engine) : (s.updEngine e f).events = s.events := rfl
@[simp] theorem updEngine_ks (s : State) (e : Fin 34) (f : Engine → Engine) : (s.updEngine e f).ks = s.ks := rfl
@[simp] theorem updEngine_raster (s : State) (e : Fin 34) (f : Engine → Engine) : (s.updEngine e f).raster = s.raster := rfl
@[simp] theorem updEngine_strips (s : State) (e : Fin 34) (f : Engine → Engine) : (s.updEngine e f).strips = s.strips := rfl
@[simp] theorem updEngine_comps (s : State) (e : Fin 34) (f : Engine → Engine) : (s.updEngine e f).comps = s.comps := rfl
@[simp] theorem updEngine_compTurn (s : State) (e : Fin 34) (f : Engine → Engine) : (s.updEngine e f).compTurn = s.compTurn := rfl
@[simp] theorem updEngine_writeback (s : State) (e : Fin 34) (f : Engine → Engine) : (s.updEngine e f).writeback = s.writeback := rfl
@[simp] theorem updEngine_seq (s : State) (e : Fin 34) (f : Engine → Engine) : (s.updEngine e f).seq = s.seq := rfl
@[simp] theorem updEngine_engines (s : State) (e : Fin 34) (f : Engine → Engine) : (s.updEngine e f).engines = vmod s.engines e f := rfl
@[simp] theorem updEngine_anvilExtra (s : State) (e : Fin 34) (f : Engine → Engine) : (s.updEngine e f).anvilExtra = s.anvilExtra := rfl
@[simp] theorem updEngine_staging (s : State) (e : Fin 34) (f : Engine → Engine) : (s.updEngine e f).staging = s.staging := rfl
@[simp] theorem updEngine_shares (s : State) (e : Fin 34) (f : Engine → Engine) : (s.updEngine e f).shares = s.shares := rfl
@[simp] theorem updEngine_links (s : State) (e : Fin 34) (f : Engine → Engine) : (s.updEngine e f).links = s.links := rfl
@[simp] theorem updEngine_web (s : State) (e : Fin 34) (f : Engine → Engine) : (s.updEngine e f).web = s.web := rfl
@[simp] theorem updEngine_chans (s : State) (e : Fin 34) (f : Engine → Engine) : (s.updEngine e f).chans = s.chans := rfl
@[simp] theorem updEngine_buckets (s : State) (e : Fin 34) (f : Engine → Engine) : (s.updEngine e f).buckets = s.buckets := rfl
@[simp] theorem updEngine_sr (s : State) (e : Fin 34) (f : Engine → Engine) : (s.updEngine e f).sr = s.sr := rfl
@[simp] theorem updEngine_quench (s : State) (e : Fin 34) (f : Engine → Engine) : (s.updEngine e f).quench = s.quench := rfl
@[simp] theorem updEngine_refilled (s : State) (e : Fin 34) (f : Engine → Engine) : (s.updEngine e f).refilled = s.refilled := rfl
@[simp] theorem updEngine_integTest (s : State) (e : Fin 34) (f : Engine → Engine) : (s.updEngine e f).integTest = s.integTest := rfl
@[simp] theorem updEngine_clk (s : State) (e : Fin 34) (f : Engine → Engine) : (s.updEngine e f).clk = s.clk := rfl
@[simp] theorem updEngine_boot (s : State) (e : Fin 34) (f : Engine → Engine) : (s.updEngine e f).boot = s.boot := rfl
@[simp] theorem updEngine_power (s : State) (e : Fin 34) (f : Engine → Engine) : (s.updEngine e f).power = s.power := rfl
@[simp] theorem updEngine_reads (s : State) (e : Fin 34) (f : Engine → Engine) : (s.updEngine e f).reads = s.reads := rfl
@[simp] theorem updEngine_out (s : State) (e : Fin 34) (f : Engine → Engine) : (s.updEngine e f).out = s.out := rfl

/-! `updComp` -/

@[simp] theorem updComp_part (s : State) (n : Fin 8) (f : Compressor → Compressor) : (s.updComp n f).part = s.part := rfl
@[simp] theorem updComp_pending (s : State) (n : Fin 8) (f : Compressor → Compressor) : (s.updComp n f).pending = s.pending := rfl
@[simp] theorem updComp_time (s : State) (n : Fin 8) (f : Compressor → Compressor) : (s.updComp n f).time = s.time := rfl
@[simp] theorem updComp_free (s : State) (n : Fin 8) (f : Compressor → Compressor) : (s.updComp n f).free = s.free := rfl
@[simp] theorem updComp_hosts (s : State) (n : Fin 8) (f : Compressor → Compressor) : (s.updComp n f).hosts = s.hosts := rfl
@[simp] theorem updComp_role (s : State) (n : Fin 8) (f : Compressor → Compressor) : (s.updComp n f).role = s.role := rfl
@[simp] theorem updComp_parts (s : State) (n : Fin 8) (f : Compressor → Compressor) : (s.updComp n f).parts = s.parts := rfl
@[simp] theorem updComp_cmds (s : State) (n : Fin 8) (f : Compressor → Compressor) : (s.updComp n f).cmds = s.cmds := rfl
@[simp] theorem updComp_nextId (s : State) (n : Fin 8) (f : Compressor → Compressor) : (s.updComp n f).nextId = s.nextId := rfl
@[simp] theorem updComp_logs (s : State) (n : Fin 8) (f : Compressor → Compressor) : (s.updComp n f).logs = s.logs := rfl
@[simp] theorem updComp_events (s : State) (n : Fin 8) (f : Compressor → Compressor) : (s.updComp n f).events = s.events := rfl
@[simp] theorem updComp_ks (s : State) (n : Fin 8) (f : Compressor → Compressor) : (s.updComp n f).ks = s.ks := rfl
@[simp] theorem updComp_raster (s : State) (n : Fin 8) (f : Compressor → Compressor) : (s.updComp n f).raster = s.raster := rfl
@[simp] theorem updComp_strips (s : State) (n : Fin 8) (f : Compressor → Compressor) : (s.updComp n f).strips = s.strips := rfl
@[simp] theorem updComp_comps (s : State) (n : Fin 8) (f : Compressor → Compressor) : (s.updComp n f).comps = vmod s.comps n f := rfl
@[simp] theorem updComp_compTurn (s : State) (n : Fin 8) (f : Compressor → Compressor) : (s.updComp n f).compTurn = s.compTurn := rfl
@[simp] theorem updComp_writeback (s : State) (n : Fin 8) (f : Compressor → Compressor) : (s.updComp n f).writeback = s.writeback := rfl
@[simp] theorem updComp_seq (s : State) (n : Fin 8) (f : Compressor → Compressor) : (s.updComp n f).seq = s.seq := rfl
@[simp] theorem updComp_engines (s : State) (n : Fin 8) (f : Compressor → Compressor) : (s.updComp n f).engines = s.engines := rfl
@[simp] theorem updComp_anvilExtra (s : State) (n : Fin 8) (f : Compressor → Compressor) : (s.updComp n f).anvilExtra = s.anvilExtra := rfl
@[simp] theorem updComp_staging (s : State) (n : Fin 8) (f : Compressor → Compressor) : (s.updComp n f).staging = s.staging := rfl
@[simp] theorem updComp_shares (s : State) (n : Fin 8) (f : Compressor → Compressor) : (s.updComp n f).shares = s.shares := rfl
@[simp] theorem updComp_links (s : State) (n : Fin 8) (f : Compressor → Compressor) : (s.updComp n f).links = s.links := rfl
@[simp] theorem updComp_web (s : State) (n : Fin 8) (f : Compressor → Compressor) : (s.updComp n f).web = s.web := rfl
@[simp] theorem updComp_chans (s : State) (n : Fin 8) (f : Compressor → Compressor) : (s.updComp n f).chans = s.chans := rfl
@[simp] theorem updComp_buckets (s : State) (n : Fin 8) (f : Compressor → Compressor) : (s.updComp n f).buckets = s.buckets := rfl
@[simp] theorem updComp_sr (s : State) (n : Fin 8) (f : Compressor → Compressor) : (s.updComp n f).sr = s.sr := rfl
@[simp] theorem updComp_quench (s : State) (n : Fin 8) (f : Compressor → Compressor) : (s.updComp n f).quench = s.quench := rfl
@[simp] theorem updComp_refilled (s : State) (n : Fin 8) (f : Compressor → Compressor) : (s.updComp n f).refilled = s.refilled := rfl
@[simp] theorem updComp_integTest (s : State) (n : Fin 8) (f : Compressor → Compressor) : (s.updComp n f).integTest = s.integTest := rfl
@[simp] theorem updComp_clk (s : State) (n : Fin 8) (f : Compressor → Compressor) : (s.updComp n f).clk = s.clk := rfl
@[simp] theorem updComp_boot (s : State) (n : Fin 8) (f : Compressor → Compressor) : (s.updComp n f).boot = s.boot := rfl
@[simp] theorem updComp_power (s : State) (n : Fin 8) (f : Compressor → Compressor) : (s.updComp n f).power = s.power := rfl
@[simp] theorem updComp_reads (s : State) (n : Fin 8) (f : Compressor → Compressor) : (s.updComp n f).reads = s.reads := rfl
@[simp] theorem updComp_out (s : State) (n : Fin 8) (f : Compressor → Compressor) : (s.updComp n f).out = s.out := rfl

/-! `updLoop` -/

@[simp] theorem updLoop_part (s : State) (l : LoopId) (f : Loop → Loop) : (s.updLoop l f).part = s.part := rfl
@[simp] theorem updLoop_pending (s : State) (l : LoopId) (f : Loop → Loop) : (s.updLoop l f).pending = s.pending := rfl
@[simp] theorem updLoop_time (s : State) (l : LoopId) (f : Loop → Loop) : (s.updLoop l f).time = s.time := rfl
@[simp] theorem updLoop_free (s : State) (l : LoopId) (f : Loop → Loop) : (s.updLoop l f).free = s.free := rfl
@[simp] theorem updLoop_hosts (s : State) (l : LoopId) (f : Loop → Loop) : (s.updLoop l f).hosts = s.hosts := rfl
@[simp] theorem updLoop_role (s : State) (l : LoopId) (f : Loop → Loop) : (s.updLoop l f).role = s.role := rfl
@[simp] theorem updLoop_parts (s : State) (l : LoopId) (f : Loop → Loop) : (s.updLoop l f).parts = s.parts := rfl
@[simp] theorem updLoop_cmds (s : State) (l : LoopId) (f : Loop → Loop) : (s.updLoop l f).cmds = s.cmds := rfl
@[simp] theorem updLoop_nextId (s : State) (l : LoopId) (f : Loop → Loop) : (s.updLoop l f).nextId = s.nextId := rfl
@[simp] theorem updLoop_logs (s : State) (l : LoopId) (f : Loop → Loop) : (s.updLoop l f).logs = s.logs := rfl
@[simp] theorem updLoop_events (s : State) (l : LoopId) (f : Loop → Loop) : (s.updLoop l f).events = s.events := rfl
@[simp] theorem updLoop_ks (s : State) (l : LoopId) (f : Loop → Loop) : (s.updLoop l f).ks = s.ks := rfl
@[simp] theorem updLoop_raster (s : State) (l : LoopId) (f : Loop → Loop) : (s.updLoop l f).raster = s.raster := rfl
@[simp] theorem updLoop_strips (s : State) (l : LoopId) (f : Loop → Loop) : (s.updLoop l f).strips = s.strips := rfl
@[simp] theorem updLoop_comps (s : State) (l : LoopId) (f : Loop → Loop) : (s.updLoop l f).comps = s.comps := rfl
@[simp] theorem updLoop_compTurn (s : State) (l : LoopId) (f : Loop → Loop) : (s.updLoop l f).compTurn = s.compTurn := rfl
@[simp] theorem updLoop_writeback (s : State) (l : LoopId) (f : Loop → Loop) : (s.updLoop l f).writeback = s.writeback := rfl
@[simp] theorem updLoop_seq (s : State) (l : LoopId) (f : Loop → Loop) : (s.updLoop l f).seq = s.seq := rfl
@[simp] theorem updLoop_engines (s : State) (l : LoopId) (f : Loop → Loop) : (s.updLoop l f).engines = s.engines := rfl
@[simp] theorem updLoop_anvilExtra (s : State) (l : LoopId) (f : Loop → Loop) : (s.updLoop l f).anvilExtra = s.anvilExtra := rfl
@[simp] theorem updLoop_staging (s : State) (l : LoopId) (f : Loop → Loop) : (s.updLoop l f).staging = s.staging := rfl
@[simp] theorem updLoop_shares (s : State) (l : LoopId) (f : Loop → Loop) : (s.updLoop l f).shares = s.shares := rfl
@[simp] theorem updLoop_links (s : State) (l : LoopId) (f : Loop → Loop) : (s.updLoop l f).links = s.links := rfl
@[simp] theorem updLoop_web (s : State) (l : LoopId) (f : Loop → Loop) : (s.updLoop l f).web = s.web := rfl
@[simp] theorem updLoop_chans (s : State) (l : LoopId) (f : Loop → Loop) : (s.updLoop l f).chans = s.chans := rfl
@[simp] theorem updLoop_buckets (s : State) (l : LoopId) (f : Loop → Loop) : (s.updLoop l f).buckets = s.buckets := rfl
@[simp] theorem updLoop_sr (s : State) (l : LoopId) (f : Loop → Loop) : (s.updLoop l f).sr = s.sr := rfl
@[simp] theorem updLoop_quench (s : State) (l : LoopId) (f : Loop → Loop) : (s.updLoop l f).quench = s.quench := rfl
@[simp] theorem updLoop_refilled (s : State) (l : LoopId) (f : Loop → Loop) : (s.updLoop l f).refilled = s.refilled := rfl
@[simp] theorem updLoop_integTest (s : State) (l : LoopId) (f : Loop → Loop) : (s.updLoop l f).integTest = s.integTest := rfl
@[simp] theorem updLoop_boot (s : State) (l : LoopId) (f : Loop → Loop) : (s.updLoop l f).boot = s.boot := rfl
@[simp] theorem updLoop_power (s : State) (l : LoopId) (f : Loop → Loop) : (s.updLoop l f).power = s.power := rfl
@[simp] theorem updLoop_reads (s : State) (l : LoopId) (f : Loop → Loop) : (s.updLoop l f).reads = s.reads := rfl
@[simp] theorem updLoop_out (s : State) (l : LoopId) (f : Loop → Loop) : (s.updLoop l f).out = s.out := rfl

/-! `updClk` -/

@[simp] theorem updClk_part (s : State) (f : Clk → Clk) : (s.updClk f).part = s.part := rfl
@[simp] theorem updClk_pending (s : State) (f : Clk → Clk) : (s.updClk f).pending = s.pending := rfl
@[simp] theorem updClk_time (s : State) (f : Clk → Clk) : (s.updClk f).time = s.time := rfl
@[simp] theorem updClk_free (s : State) (f : Clk → Clk) : (s.updClk f).free = s.free := rfl
@[simp] theorem updClk_hosts (s : State) (f : Clk → Clk) : (s.updClk f).hosts = s.hosts := rfl
@[simp] theorem updClk_role (s : State) (f : Clk → Clk) : (s.updClk f).role = s.role := rfl
@[simp] theorem updClk_parts (s : State) (f : Clk → Clk) : (s.updClk f).parts = s.parts := rfl
@[simp] theorem updClk_cmds (s : State) (f : Clk → Clk) : (s.updClk f).cmds = s.cmds := rfl
@[simp] theorem updClk_nextId (s : State) (f : Clk → Clk) : (s.updClk f).nextId = s.nextId := rfl
@[simp] theorem updClk_logs (s : State) (f : Clk → Clk) : (s.updClk f).logs = s.logs := rfl
@[simp] theorem updClk_events (s : State) (f : Clk → Clk) : (s.updClk f).events = s.events := rfl
@[simp] theorem updClk_ks (s : State) (f : Clk → Clk) : (s.updClk f).ks = s.ks := rfl
@[simp] theorem updClk_raster (s : State) (f : Clk → Clk) : (s.updClk f).raster = s.raster := rfl
@[simp] theorem updClk_strips (s : State) (f : Clk → Clk) : (s.updClk f).strips = s.strips := rfl
@[simp] theorem updClk_comps (s : State) (f : Clk → Clk) : (s.updClk f).comps = s.comps := rfl
@[simp] theorem updClk_compTurn (s : State) (f : Clk → Clk) : (s.updClk f).compTurn = s.compTurn := rfl
@[simp] theorem updClk_writeback (s : State) (f : Clk → Clk) : (s.updClk f).writeback = s.writeback := rfl
@[simp] theorem updClk_seq (s : State) (f : Clk → Clk) : (s.updClk f).seq = s.seq := rfl
@[simp] theorem updClk_engines (s : State) (f : Clk → Clk) : (s.updClk f).engines = s.engines := rfl
@[simp] theorem updClk_anvilExtra (s : State) (f : Clk → Clk) : (s.updClk f).anvilExtra = s.anvilExtra := rfl
@[simp] theorem updClk_staging (s : State) (f : Clk → Clk) : (s.updClk f).staging = s.staging := rfl
@[simp] theorem updClk_shares (s : State) (f : Clk → Clk) : (s.updClk f).shares = s.shares := rfl
@[simp] theorem updClk_links (s : State) (f : Clk → Clk) : (s.updClk f).links = s.links := rfl
@[simp] theorem updClk_web (s : State) (f : Clk → Clk) : (s.updClk f).web = s.web := rfl
@[simp] theorem updClk_chans (s : State) (f : Clk → Clk) : (s.updClk f).chans = s.chans := rfl
@[simp] theorem updClk_buckets (s : State) (f : Clk → Clk) : (s.updClk f).buckets = s.buckets := rfl
@[simp] theorem updClk_sr (s : State) (f : Clk → Clk) : (s.updClk f).sr = s.sr := rfl
@[simp] theorem updClk_quench (s : State) (f : Clk → Clk) : (s.updClk f).quench = s.quench := rfl
@[simp] theorem updClk_refilled (s : State) (f : Clk → Clk) : (s.updClk f).refilled = s.refilled := rfl
@[simp] theorem updClk_integTest (s : State) (f : Clk → Clk) : (s.updClk f).integTest = s.integTest := rfl
@[simp] theorem updClk_clk (s : State) (f : Clk → Clk) : (s.updClk f).clk = f s.clk := rfl
@[simp] theorem updClk_boot (s : State) (f : Clk → Clk) : (s.updClk f).boot = s.boot := rfl
@[simp] theorem updClk_power (s : State) (f : Clk → Clk) : (s.updClk f).power = s.power := rfl
@[simp] theorem updClk_reads (s : State) (f : Clk → Clk) : (s.updClk f).reads = s.reads := rfl
@[simp] theorem updClk_out (s : State) (f : Clk → Clk) : (s.updClk f).out = s.out := rfl

/-! `updSeq` -/

@[simp] theorem updSeq_part (s : State) (f : Seq → Seq) : (s.updSeq f).part = s.part := rfl
@[simp] theorem updSeq_pending (s : State) (f : Seq → Seq) : (s.updSeq f).pending = s.pending := rfl
@[simp] theorem updSeq_time (s : State) (f : Seq → Seq) : (s.updSeq f).time = s.time := rfl
@[simp] theorem updSeq_free (s : State) (f : Seq → Seq) : (s.updSeq f).free = s.free := rfl
@[simp] theorem updSeq_hosts (s : State) (f : Seq → Seq) : (s.updSeq f).hosts = s.hosts := rfl
@[simp] theorem updSeq_role (s : State) (f : Seq → Seq) : (s.updSeq f).role = s.role := rfl
@[simp] theorem updSeq_parts (s : State) (f : Seq → Seq) : (s.updSeq f).parts = s.parts := rfl
@[simp] theorem updSeq_cmds (s : State) (f : Seq → Seq) : (s.updSeq f).cmds = s.cmds := rfl
@[simp] theorem updSeq_nextId (s : State) (f : Seq → Seq) : (s.updSeq f).nextId = s.nextId := rfl
@[simp] theorem updSeq_logs (s : State) (f : Seq → Seq) : (s.updSeq f).logs = s.logs := rfl
@[simp] theorem updSeq_events (s : State) (f : Seq → Seq) : (s.updSeq f).events = s.events := rfl
@[simp] theorem updSeq_ks (s : State) (f : Seq → Seq) : (s.updSeq f).ks = s.ks := rfl
@[simp] theorem updSeq_raster (s : State) (f : Seq → Seq) : (s.updSeq f).raster = s.raster := rfl
@[simp] theorem updSeq_strips (s : State) (f : Seq → Seq) : (s.updSeq f).strips = s.strips := rfl
@[simp] theorem updSeq_comps (s : State) (f : Seq → Seq) : (s.updSeq f).comps = s.comps := rfl
@[simp] theorem updSeq_compTurn (s : State) (f : Seq → Seq) : (s.updSeq f).compTurn = s.compTurn := rfl
@[simp] theorem updSeq_writeback (s : State) (f : Seq → Seq) : (s.updSeq f).writeback = s.writeback := rfl
@[simp] theorem updSeq_seq (s : State) (f : Seq → Seq) : (s.updSeq f).seq = f s.seq := rfl
@[simp] theorem updSeq_engines (s : State) (f : Seq → Seq) : (s.updSeq f).engines = s.engines := rfl
@[simp] theorem updSeq_anvilExtra (s : State) (f : Seq → Seq) : (s.updSeq f).anvilExtra = s.anvilExtra := rfl
@[simp] theorem updSeq_staging (s : State) (f : Seq → Seq) : (s.updSeq f).staging = s.staging := rfl
@[simp] theorem updSeq_shares (s : State) (f : Seq → Seq) : (s.updSeq f).shares = s.shares := rfl
@[simp] theorem updSeq_links (s : State) (f : Seq → Seq) : (s.updSeq f).links = s.links := rfl
@[simp] theorem updSeq_web (s : State) (f : Seq → Seq) : (s.updSeq f).web = s.web := rfl
@[simp] theorem updSeq_chans (s : State) (f : Seq → Seq) : (s.updSeq f).chans = s.chans := rfl
@[simp] theorem updSeq_buckets (s : State) (f : Seq → Seq) : (s.updSeq f).buckets = s.buckets := rfl
@[simp] theorem updSeq_sr (s : State) (f : Seq → Seq) : (s.updSeq f).sr = s.sr := rfl
@[simp] theorem updSeq_quench (s : State) (f : Seq → Seq) : (s.updSeq f).quench = s.quench := rfl
@[simp] theorem updSeq_refilled (s : State) (f : Seq → Seq) : (s.updSeq f).refilled = s.refilled := rfl
@[simp] theorem updSeq_integTest (s : State) (f : Seq → Seq) : (s.updSeq f).integTest = s.integTest := rfl
@[simp] theorem updSeq_clk (s : State) (f : Seq → Seq) : (s.updSeq f).clk = s.clk := rfl
@[simp] theorem updSeq_boot (s : State) (f : Seq → Seq) : (s.updSeq f).boot = s.boot := rfl
@[simp] theorem updSeq_power (s : State) (f : Seq → Seq) : (s.updSeq f).power = s.power := rfl
@[simp] theorem updSeq_reads (s : State) (f : Seq → Seq) : (s.updSeq f).reads = s.reads := rfl
@[simp] theorem updSeq_out (s : State) (f : Seq → Seq) : (s.updSeq f).out = s.out := rfl

/-! `updWeb` -/

@[simp] theorem updWeb_part (s : State) (f : Web → Web) : (s.updWeb f).part = s.part := rfl
@[simp] theorem updWeb_pending (s : State) (f : Web → Web) : (s.updWeb f).pending = s.pending := rfl
@[simp] theorem updWeb_time (s : State) (f : Web → Web) : (s.updWeb f).time = s.time := rfl
@[simp] theorem updWeb_free (s : State) (f : Web → Web) : (s.updWeb f).free = s.free := rfl
@[simp] theorem updWeb_hosts (s : State) (f : Web → Web) : (s.updWeb f).hosts = s.hosts := rfl
@[simp] theorem updWeb_role (s : State) (f : Web → Web) : (s.updWeb f).role = s.role := rfl
@[simp] theorem updWeb_parts (s : State) (f : Web → Web) : (s.updWeb f).parts = s.parts := rfl
@[simp] theorem updWeb_cmds (s : State) (f : Web → Web) : (s.updWeb f).cmds = s.cmds := rfl
@[simp] theorem updWeb_nextId (s : State) (f : Web → Web) : (s.updWeb f).nextId = s.nextId := rfl
@[simp] theorem updWeb_logs (s : State) (f : Web → Web) : (s.updWeb f).logs = s.logs := rfl
@[simp] theorem updWeb_events (s : State) (f : Web → Web) : (s.updWeb f).events = s.events := rfl
@[simp] theorem updWeb_ks (s : State) (f : Web → Web) : (s.updWeb f).ks = s.ks := rfl
@[simp] theorem updWeb_raster (s : State) (f : Web → Web) : (s.updWeb f).raster = s.raster := rfl
@[simp] theorem updWeb_strips (s : State) (f : Web → Web) : (s.updWeb f).strips = s.strips := rfl
@[simp] theorem updWeb_comps (s : State) (f : Web → Web) : (s.updWeb f).comps = s.comps := rfl
@[simp] theorem updWeb_compTurn (s : State) (f : Web → Web) : (s.updWeb f).compTurn = s.compTurn := rfl
@[simp] theorem updWeb_writeback (s : State) (f : Web → Web) : (s.updWeb f).writeback = s.writeback := rfl
@[simp] theorem updWeb_seq (s : State) (f : Web → Web) : (s.updWeb f).seq = s.seq := rfl
@[simp] theorem updWeb_engines (s : State) (f : Web → Web) : (s.updWeb f).engines = s.engines := rfl
@[simp] theorem updWeb_anvilExtra (s : State) (f : Web → Web) : (s.updWeb f).anvilExtra = s.anvilExtra := rfl
@[simp] theorem updWeb_staging (s : State) (f : Web → Web) : (s.updWeb f).staging = s.staging := rfl
@[simp] theorem updWeb_shares (s : State) (f : Web → Web) : (s.updWeb f).shares = s.shares := rfl
@[simp] theorem updWeb_links (s : State) (f : Web → Web) : (s.updWeb f).links = s.links := rfl
@[simp] theorem updWeb_web (s : State) (f : Web → Web) : (s.updWeb f).web = f s.web := rfl
@[simp] theorem updWeb_chans (s : State) (f : Web → Web) : (s.updWeb f).chans = s.chans := rfl
@[simp] theorem updWeb_buckets (s : State) (f : Web → Web) : (s.updWeb f).buckets = s.buckets := rfl
@[simp] theorem updWeb_sr (s : State) (f : Web → Web) : (s.updWeb f).sr = s.sr := rfl
@[simp] theorem updWeb_quench (s : State) (f : Web → Web) : (s.updWeb f).quench = s.quench := rfl
@[simp] theorem updWeb_refilled (s : State) (f : Web → Web) : (s.updWeb f).refilled = s.refilled := rfl
@[simp] theorem updWeb_integTest (s : State) (f : Web → Web) : (s.updWeb f).integTest = s.integTest := rfl
@[simp] theorem updWeb_clk (s : State) (f : Web → Web) : (s.updWeb f).clk = s.clk := rfl
@[simp] theorem updWeb_boot (s : State) (f : Web → Web) : (s.updWeb f).boot = s.boot := rfl
@[simp] theorem updWeb_power (s : State) (f : Web → Web) : (s.updWeb f).power = s.power := rfl
@[simp] theorem updWeb_reads (s : State) (f : Web → Web) : (s.updWeb f).reads = s.reads := rfl
@[simp] theorem updWeb_out (s : State) (f : Web → Web) : (s.updWeb f).out = s.out := rfl

/-! `updRaster` -/

@[simp] theorem updRaster_part (s : State) (f : Raster → Raster) : (s.updRaster f).part = s.part := rfl
@[simp] theorem updRaster_pending (s : State) (f : Raster → Raster) : (s.updRaster f).pending = s.pending := rfl
@[simp] theorem updRaster_time (s : State) (f : Raster → Raster) : (s.updRaster f).time = s.time := rfl
@[simp] theorem updRaster_free (s : State) (f : Raster → Raster) : (s.updRaster f).free = s.free := rfl
@[simp] theorem updRaster_hosts (s : State) (f : Raster → Raster) : (s.updRaster f).hosts = s.hosts := rfl
@[simp] theorem updRaster_role (s : State) (f : Raster → Raster) : (s.updRaster f).role = s.role := rfl
@[simp] theorem updRaster_parts (s : State) (f : Raster → Raster) : (s.updRaster f).parts = s.parts := rfl
@[simp] theorem updRaster_cmds (s : State) (f : Raster → Raster) : (s.updRaster f).cmds = s.cmds := rfl
@[simp] theorem updRaster_nextId (s : State) (f : Raster → Raster) : (s.updRaster f).nextId = s.nextId := rfl
@[simp] theorem updRaster_logs (s : State) (f : Raster → Raster) : (s.updRaster f).logs = s.logs := rfl
@[simp] theorem updRaster_events (s : State) (f : Raster → Raster) : (s.updRaster f).events = s.events := rfl
@[simp] theorem updRaster_ks (s : State) (f : Raster → Raster) : (s.updRaster f).ks = s.ks := rfl
@[simp] theorem updRaster_raster (s : State) (f : Raster → Raster) : (s.updRaster f).raster = f s.raster := rfl
@[simp] theorem updRaster_strips (s : State) (f : Raster → Raster) : (s.updRaster f).strips = s.strips := rfl
@[simp] theorem updRaster_comps (s : State) (f : Raster → Raster) : (s.updRaster f).comps = s.comps := rfl
@[simp] theorem updRaster_compTurn (s : State) (f : Raster → Raster) : (s.updRaster f).compTurn = s.compTurn := rfl
@[simp] theorem updRaster_writeback (s : State) (f : Raster → Raster) : (s.updRaster f).writeback = s.writeback := rfl
@[simp] theorem updRaster_seq (s : State) (f : Raster → Raster) : (s.updRaster f).seq = s.seq := rfl
@[simp] theorem updRaster_engines (s : State) (f : Raster → Raster) : (s.updRaster f).engines = s.engines := rfl
@[simp] theorem updRaster_anvilExtra (s : State) (f : Raster → Raster) : (s.updRaster f).anvilExtra = s.anvilExtra := rfl
@[simp] theorem updRaster_staging (s : State) (f : Raster → Raster) : (s.updRaster f).staging = s.staging := rfl
@[simp] theorem updRaster_shares (s : State) (f : Raster → Raster) : (s.updRaster f).shares = s.shares := rfl
@[simp] theorem updRaster_links (s : State) (f : Raster → Raster) : (s.updRaster f).links = s.links := rfl
@[simp] theorem updRaster_web (s : State) (f : Raster → Raster) : (s.updRaster f).web = s.web := rfl
@[simp] theorem updRaster_chans (s : State) (f : Raster → Raster) : (s.updRaster f).chans = s.chans := rfl
@[simp] theorem updRaster_buckets (s : State) (f : Raster → Raster) : (s.updRaster f).buckets = s.buckets := rfl
@[simp] theorem updRaster_sr (s : State) (f : Raster → Raster) : (s.updRaster f).sr = s.sr := rfl
@[simp] theorem updRaster_quench (s : State) (f : Raster → Raster) : (s.updRaster f).quench = s.quench := rfl
@[simp] theorem updRaster_refilled (s : State) (f : Raster → Raster) : (s.updRaster f).refilled = s.refilled := rfl
@[simp] theorem updRaster_integTest (s : State) (f : Raster → Raster) : (s.updRaster f).integTest = s.integTest := rfl
@[simp] theorem updRaster_clk (s : State) (f : Raster → Raster) : (s.updRaster f).clk = s.clk := rfl
@[simp] theorem updRaster_boot (s : State) (f : Raster → Raster) : (s.updRaster f).boot = s.boot := rfl
@[simp] theorem updRaster_power (s : State) (f : Raster → Raster) : (s.updRaster f).power = s.power := rfl
@[simp] theorem updRaster_reads (s : State) (f : Raster → Raster) : (s.updRaster f).reads = s.reads := rfl
@[simp] theorem updRaster_out (s : State) (f : Raster → Raster) : (s.updRaster f).out = s.out := rfl

/-! `updBoot` -/

@[simp] theorem updBoot_part (s : State) (f : Boot → Boot) : (s.updBoot f).part = s.part := rfl
@[simp] theorem updBoot_pending (s : State) (f : Boot → Boot) : (s.updBoot f).pending = s.pending := rfl
@[simp] theorem updBoot_time (s : State) (f : Boot → Boot) : (s.updBoot f).time = s.time := rfl
@[simp] theorem updBoot_free (s : State) (f : Boot → Boot) : (s.updBoot f).free = s.free := rfl
@[simp] theorem updBoot_hosts (s : State) (f : Boot → Boot) : (s.updBoot f).hosts = s.hosts := rfl
@[simp] theorem updBoot_role (s : State) (f : Boot → Boot) : (s.updBoot f).role = s.role := rfl
@[simp] theorem updBoot_parts (s : State) (f : Boot → Boot) : (s.updBoot f).parts = s.parts := rfl
@[simp] theorem updBoot_cmds (s : State) (f : Boot → Boot) : (s.updBoot f).cmds = s.cmds := rfl
@[simp] theorem updBoot_nextId (s : State) (f : Boot → Boot) : (s.updBoot f).nextId = s.nextId := rfl
@[simp] theorem updBoot_logs (s : State) (f : Boot → Boot) : (s.updBoot f).logs = s.logs := rfl
@[simp] theorem updBoot_events (s : State) (f : Boot → Boot) : (s.updBoot f).events = s.events := rfl
@[simp] theorem updBoot_ks (s : State) (f : Boot → Boot) : (s.updBoot f).ks = s.ks := rfl
@[simp] theorem updBoot_raster (s : State) (f : Boot → Boot) : (s.updBoot f).raster = s.raster := rfl
@[simp] theorem updBoot_strips (s : State) (f : Boot → Boot) : (s.updBoot f).strips = s.strips := rfl
@[simp] theorem updBoot_comps (s : State) (f : Boot → Boot) : (s.updBoot f).comps = s.comps := rfl
@[simp] theorem updBoot_compTurn (s : State) (f : Boot → Boot) : (s.updBoot f).compTurn = s.compTurn := rfl
@[simp] theorem updBoot_writeback (s : State) (f : Boot → Boot) : (s.updBoot f).writeback = s.writeback := rfl
@[simp] theorem updBoot_seq (s : State) (f : Boot → Boot) : (s.updBoot f).seq = s.seq := rfl
@[simp] theorem updBoot_engines (s : State) (f : Boot → Boot) : (s.updBoot f).engines = s.engines := rfl
@[simp] theorem updBoot_anvilExtra (s : State) (f : Boot → Boot) : (s.updBoot f).anvilExtra = s.anvilExtra := rfl
@[simp] theorem updBoot_staging (s : State) (f : Boot → Boot) : (s.updBoot f).staging = s.staging := rfl
@[simp] theorem updBoot_shares (s : State) (f : Boot → Boot) : (s.updBoot f).shares = s.shares := rfl
@[simp] theorem updBoot_links (s : State) (f : Boot → Boot) : (s.updBoot f).links = s.links := rfl
@[simp] theorem updBoot_web (s : State) (f : Boot → Boot) : (s.updBoot f).web = s.web := rfl
@[simp] theorem updBoot_chans (s : State) (f : Boot → Boot) : (s.updBoot f).chans = s.chans := rfl
@[simp] theorem updBoot_buckets (s : State) (f : Boot → Boot) : (s.updBoot f).buckets = s.buckets := rfl
@[simp] theorem updBoot_sr (s : State) (f : Boot → Boot) : (s.updBoot f).sr = s.sr := rfl
@[simp] theorem updBoot_quench (s : State) (f : Boot → Boot) : (s.updBoot f).quench = s.quench := rfl
@[simp] theorem updBoot_refilled (s : State) (f : Boot → Boot) : (s.updBoot f).refilled = s.refilled := rfl
@[simp] theorem updBoot_integTest (s : State) (f : Boot → Boot) : (s.updBoot f).integTest = s.integTest := rfl
@[simp] theorem updBoot_clk (s : State) (f : Boot → Boot) : (s.updBoot f).clk = s.clk := rfl
@[simp] theorem updBoot_boot (s : State) (f : Boot → Boot) : (s.updBoot f).boot = f s.boot := rfl
@[simp] theorem updBoot_power (s : State) (f : Boot → Boot) : (s.updBoot f).power = s.power := rfl
@[simp] theorem updBoot_reads (s : State) (f : Boot → Boot) : (s.updBoot f).reads = s.reads := rfl
@[simp] theorem updBoot_out (s : State) (f : Boot → Boot) : (s.updBoot f).out = s.out := rfl

/-! `updPower` -/

@[simp] theorem updPower_part (s : State) (f : Power → Power) : (s.updPower f).part = s.part := rfl
@[simp] theorem updPower_pending (s : State) (f : Power → Power) : (s.updPower f).pending = s.pending := rfl
@[simp] theorem updPower_time (s : State) (f : Power → Power) : (s.updPower f).time = s.time := rfl
@[simp] theorem updPower_free (s : State) (f : Power → Power) : (s.updPower f).free = s.free := rfl
@[simp] theorem updPower_hosts (s : State) (f : Power → Power) : (s.updPower f).hosts = s.hosts := rfl
@[simp] theorem updPower_role (s : State) (f : Power → Power) : (s.updPower f).role = s.role := rfl
@[simp] theorem updPower_parts (s : State) (f : Power → Power) : (s.updPower f).parts = s.parts := rfl
@[simp] theorem updPower_cmds (s : State) (f : Power → Power) : (s.updPower f).cmds = s.cmds := rfl
@[simp] theorem updPower_nextId (s : State) (f : Power → Power) : (s.updPower f).nextId = s.nextId := rfl
@[simp] theorem updPower_logs (s : State) (f : Power → Power) : (s.updPower f).logs = s.logs := rfl
@[simp] theorem updPower_events (s : State) (f : Power → Power) : (s.updPower f).events = s.events := rfl
@[simp] theorem updPower_ks (s : State) (f : Power → Power) : (s.updPower f).ks = s.ks := rfl
@[simp] theorem updPower_raster (s : State) (f : Power → Power) : (s.updPower f).raster = s.raster := rfl
@[simp] theorem updPower_strips (s : State) (f : Power → Power) : (s.updPower f).strips = s.strips := rfl
@[simp] theorem updPower_comps (s : State) (f : Power → Power) : (s.updPower f).comps = s.comps := rfl
@[simp] theorem updPower_compTurn (s : State) (f : Power → Power) : (s.updPower f).compTurn = s.compTurn := rfl
@[simp] theorem updPower_writeback (s : State) (f : Power → Power) : (s.updPower f).writeback = s.writeback := rfl
@[simp] theorem updPower_seq (s : State) (f : Power → Power) : (s.updPower f).seq = s.seq := rfl
@[simp] theorem updPower_engines (s : State) (f : Power → Power) : (s.updPower f).engines = s.engines := rfl
@[simp] theorem updPower_anvilExtra (s : State) (f : Power → Power) : (s.updPower f).anvilExtra = s.anvilExtra := rfl
@[simp] theorem updPower_staging (s : State) (f : Power → Power) : (s.updPower f).staging = s.staging := rfl
@[simp] theorem updPower_shares (s : State) (f : Power → Power) : (s.updPower f).shares = s.shares := rfl
@[simp] theorem updPower_links (s : State) (f : Power → Power) : (s.updPower f).links = s.links := rfl
@[simp] theorem updPower_web (s : State) (f : Power → Power) : (s.updPower f).web = s.web := rfl
@[simp] theorem updPower_chans (s : State) (f : Power → Power) : (s.updPower f).chans = s.chans := rfl
@[simp] theorem updPower_buckets (s : State) (f : Power → Power) : (s.updPower f).buckets = s.buckets := rfl
@[simp] theorem updPower_sr (s : State) (f : Power → Power) : (s.updPower f).sr = s.sr := rfl
@[simp] theorem updPower_quench (s : State) (f : Power → Power) : (s.updPower f).quench = s.quench := rfl
@[simp] theorem updPower_refilled (s : State) (f : Power → Power) : (s.updPower f).refilled = s.refilled := rfl
@[simp] theorem updPower_integTest (s : State) (f : Power → Power) : (s.updPower f).integTest = s.integTest := rfl
@[simp] theorem updPower_clk (s : State) (f : Power → Power) : (s.updPower f).clk = s.clk := rfl
@[simp] theorem updPower_boot (s : State) (f : Power → Power) : (s.updPower f).boot = s.boot := rfl
@[simp] theorem updPower_power (s : State) (f : Power → Power) : (s.updPower f).power = f s.power := rfl
@[simp] theorem updPower_reads (s : State) (f : Power → Power) : (s.updPower f).reads = s.reads := rfl
@[simp] theorem updPower_out (s : State) (f : Power → Power) : (s.updPower f).out = s.out := rfl

/-! `emit` -/

@[simp] theorem emit_part (s : State) (o : Out) : (s.emit o).part = s.part := rfl
@[simp] theorem emit_pending (s : State) (o : Out) : (s.emit o).pending = s.pending := rfl
@[simp] theorem emit_time (s : State) (o : Out) : (s.emit o).time = s.time := rfl
@[simp] theorem emit_free (s : State) (o : Out) : (s.emit o).free = s.free := rfl
@[simp] theorem emit_hosts (s : State) (o : Out) : (s.emit o).hosts = s.hosts := rfl
@[simp] theorem emit_role (s : State) (o : Out) : (s.emit o).role = s.role := rfl
@[simp] theorem emit_parts (s : State) (o : Out) : (s.emit o).parts = s.parts := rfl
@[simp] theorem emit_cmds (s : State) (o : Out) : (s.emit o).cmds = s.cmds := rfl
@[simp] theorem emit_nextId (s : State) (o : Out) : (s.emit o).nextId = s.nextId := rfl
@[simp] theorem emit_logs (s : State) (o : Out) : (s.emit o).logs = s.logs := rfl
@[simp] theorem emit_events (s : State) (o : Out) : (s.emit o).events = s.events := rfl
@[simp] theorem emit_ks (s : State) (o : Out) : (s.emit o).ks = s.ks := rfl
@[simp] theorem emit_raster (s : State) (o : Out) : (s.emit o).raster = s.raster := rfl
@[simp] theorem emit_strips (s : State) (o : Out) : (s.emit o).strips = s.strips := rfl
@[simp] theorem emit_comps (s : State) (o : Out) : (s.emit o).comps = s.comps := rfl
@[simp] theorem emit_compTurn (s : State) (o : Out) : (s.emit o).compTurn = s.compTurn := rfl
@[simp] theorem emit_writeback (s : State) (o : Out) : (s.emit o).writeback = s.writeback := rfl
@[simp] theorem emit_seq (s : State) (o : Out) : (s.emit o).seq = s.seq := rfl
@[simp] theorem emit_engines (s : State) (o : Out) : (s.emit o).engines = s.engines := rfl
@[simp] theorem emit_anvilExtra (s : State) (o : Out) : (s.emit o).anvilExtra = s.anvilExtra := rfl
@[simp] theorem emit_staging (s : State) (o : Out) : (s.emit o).staging = s.staging := rfl
@[simp] theorem emit_shares (s : State) (o : Out) : (s.emit o).shares = s.shares := rfl
@[simp] theorem emit_links (s : State) (o : Out) : (s.emit o).links = s.links := rfl
@[simp] theorem emit_web (s : State) (o : Out) : (s.emit o).web = s.web := rfl
@[simp] theorem emit_chans (s : State) (o : Out) : (s.emit o).chans = s.chans := rfl
@[simp] theorem emit_buckets (s : State) (o : Out) : (s.emit o).buckets = s.buckets := rfl
@[simp] theorem emit_sr (s : State) (o : Out) : (s.emit o).sr = s.sr := rfl
@[simp] theorem emit_quench (s : State) (o : Out) : (s.emit o).quench = s.quench := rfl
@[simp] theorem emit_refilled (s : State) (o : Out) : (s.emit o).refilled = s.refilled := rfl
@[simp] theorem emit_integTest (s : State) (o : Out) : (s.emit o).integTest = s.integTest := rfl
@[simp] theorem emit_clk (s : State) (o : Out) : (s.emit o).clk = s.clk := rfl
@[simp] theorem emit_boot (s : State) (o : Out) : (s.emit o).boot = s.boot := rfl
@[simp] theorem emit_power (s : State) (o : Out) : (s.emit o).power = s.power := rfl
@[simp] theorem emit_reads (s : State) (o : Out) : (s.emit o).reads = s.reads := rfl
@[simp] theorem emit_out (s : State) (o : Out) : (s.emit o).out = o :: s.out := rfl

/-! `useFree` -/

@[simp] theorem useFree_part (s : State) : (s.useFree).part = s.part := rfl
@[simp] theorem useFree_pending (s : State) : (s.useFree).pending = s.pending := rfl
@[simp] theorem useFree_time (s : State) : (s.useFree).time = s.time := rfl
@[simp] theorem useFree_free (s : State) : (s.useFree).free = s.free + 1 := rfl
@[simp] theorem useFree_hosts (s : State) : (s.useFree).hosts = s.hosts := rfl
@[simp] theorem useFree_role (s : State) : (s.useFree).role = s.role := rfl
@[simp] theorem useFree_parts (s : State) : (s.useFree).parts = s.parts := rfl
@[simp] theorem useFree_cmds (s : State) : (s.useFree).cmds = s.cmds := rfl
@[simp] theorem useFree_nextId (s : State) : (s.useFree).nextId = s.nextId := rfl
@[simp] theorem useFree_logs (s : State) : (s.useFree).logs = s.logs := rfl
@[simp] theorem useFree_events (s : State) : (s.useFree).events = s.events := rfl
@[simp] theorem useFree_ks (s : State) : (s.useFree).ks = s.ks := rfl
@[simp] theorem useFree_raster (s : State) : (s.useFree).raster = s.raster := rfl
@[simp] theorem useFree_strips (s : State) : (s.useFree).strips = s.strips := rfl
@[simp] theorem useFree_comps (s : State) : (s.useFree).comps = s.comps := rfl
@[simp] theorem useFree_compTurn (s : State) : (s.useFree).compTurn = s.compTurn := rfl
@[simp] theorem useFree_writeback (s : State) : (s.useFree).writeback = s.writeback := rfl
@[simp] theorem useFree_seq (s : State) : (s.useFree).seq = s.seq := rfl
@[simp] theorem useFree_engines (s : State) : (s.useFree).engines = s.engines := rfl
@[simp] theorem useFree_anvilExtra (s : State) : (s.useFree).anvilExtra = s.anvilExtra := rfl
@[simp] theorem useFree_staging (s : State) : (s.useFree).staging = s.staging := rfl
@[simp] theorem useFree_shares (s : State) : (s.useFree).shares = s.shares := rfl
@[simp] theorem useFree_links (s : State) : (s.useFree).links = s.links := rfl
@[simp] theorem useFree_web (s : State) : (s.useFree).web = s.web := rfl
@[simp] theorem useFree_chans (s : State) : (s.useFree).chans = s.chans := rfl
@[simp] theorem useFree_buckets (s : State) : (s.useFree).buckets = s.buckets := rfl
@[simp] theorem useFree_sr (s : State) : (s.useFree).sr = s.sr := rfl
@[simp] theorem useFree_quench (s : State) : (s.useFree).quench = s.quench := rfl
@[simp] theorem useFree_refilled (s : State) : (s.useFree).refilled = s.refilled := rfl
@[simp] theorem useFree_integTest (s : State) : (s.useFree).integTest = s.integTest := rfl
@[simp] theorem useFree_clk (s : State) : (s.useFree).clk = s.clk := rfl
@[simp] theorem useFree_boot (s : State) : (s.useFree).boot = s.boot := rfl
@[simp] theorem useFree_power (s : State) : (s.useFree).power = s.power := rfl
@[simp] theorem useFree_reads (s : State) : (s.useFree).reads = s.reads := rfl
@[simp] theorem useFree_out (s : State) : (s.useFree).out = s.out := rfl

/-! `updCmd` -/

@[simp] theorem updCmd_part (s : State) (id : Nat) (f : Cmd → Cmd) : (s.updCmd id f).part = s.part := rfl
@[simp] theorem updCmd_pending (s : State) (id : Nat) (f : Cmd → Cmd) : (s.updCmd id f).pending = s.pending := rfl
@[simp] theorem updCmd_time (s : State) (id : Nat) (f : Cmd → Cmd) : (s.updCmd id f).time = s.time := rfl
@[simp] theorem updCmd_free (s : State) (id : Nat) (f : Cmd → Cmd) : (s.updCmd id f).free = s.free := rfl
@[simp] theorem updCmd_hosts (s : State) (id : Nat) (f : Cmd → Cmd) : (s.updCmd id f).hosts = s.hosts := rfl
@[simp] theorem updCmd_role (s : State) (id : Nat) (f : Cmd → Cmd) : (s.updCmd id f).role = s.role := rfl
@[simp] theorem updCmd_parts (s : State) (id : Nat) (f : Cmd → Cmd) : (s.updCmd id f).parts = s.parts := rfl
@[simp] theorem updCmd_nextId (s : State) (id : Nat) (f : Cmd → Cmd) : (s.updCmd id f).nextId = s.nextId := rfl
@[simp] theorem updCmd_logs (s : State) (id : Nat) (f : Cmd → Cmd) : (s.updCmd id f).logs = s.logs := rfl
@[simp] theorem updCmd_events (s : State) (id : Nat) (f : Cmd → Cmd) : (s.updCmd id f).events = s.events := rfl
@[simp] theorem updCmd_ks (s : State) (id : Nat) (f : Cmd → Cmd) : (s.updCmd id f).ks = s.ks := rfl
@[simp] theorem updCmd_raster (s : State) (id : Nat) (f : Cmd → Cmd) : (s.updCmd id f).raster = s.raster := rfl
@[simp] theorem updCmd_strips (s : State) (id : Nat) (f : Cmd → Cmd) : (s.updCmd id f).strips = s.strips := rfl
@[simp] theorem updCmd_comps (s : State) (id : Nat) (f : Cmd → Cmd) : (s.updCmd id f).comps = s.comps := rfl
@[simp] theorem updCmd_compTurn (s : State) (id : Nat) (f : Cmd → Cmd) : (s.updCmd id f).compTurn = s.compTurn := rfl
@[simp] theorem updCmd_writeback (s : State) (id : Nat) (f : Cmd → Cmd) : (s.updCmd id f).writeback = s.writeback := rfl
@[simp] theorem updCmd_seq (s : State) (id : Nat) (f : Cmd → Cmd) : (s.updCmd id f).seq = s.seq := rfl
@[simp] theorem updCmd_engines (s : State) (id : Nat) (f : Cmd → Cmd) : (s.updCmd id f).engines = s.engines := rfl
@[simp] theorem updCmd_anvilExtra (s : State) (id : Nat) (f : Cmd → Cmd) : (s.updCmd id f).anvilExtra = s.anvilExtra := rfl
@[simp] theorem updCmd_staging (s : State) (id : Nat) (f : Cmd → Cmd) : (s.updCmd id f).staging = s.staging := rfl
@[simp] theorem updCmd_shares (s : State) (id : Nat) (f : Cmd → Cmd) : (s.updCmd id f).shares = s.shares := rfl
@[simp] theorem updCmd_links (s : State) (id : Nat) (f : Cmd → Cmd) : (s.updCmd id f).links = s.links := rfl
@[simp] theorem updCmd_web (s : State) (id : Nat) (f : Cmd → Cmd) : (s.updCmd id f).web = s.web := rfl
@[simp] theorem updCmd_chans (s : State) (id : Nat) (f : Cmd → Cmd) : (s.updCmd id f).chans = s.chans := rfl
@[simp] theorem updCmd_buckets (s : State) (id : Nat) (f : Cmd → Cmd) : (s.updCmd id f).buckets = s.buckets := rfl
@[simp] theorem updCmd_sr (s : State) (id : Nat) (f : Cmd → Cmd) : (s.updCmd id f).sr = s.sr := rfl
@[simp] theorem updCmd_quench (s : State) (id : Nat) (f : Cmd → Cmd) : (s.updCmd id f).quench = s.quench := rfl
@[simp] theorem updCmd_refilled (s : State) (id : Nat) (f : Cmd → Cmd) : (s.updCmd id f).refilled = s.refilled := rfl
@[simp] theorem updCmd_integTest (s : State) (id : Nat) (f : Cmd → Cmd) : (s.updCmd id f).integTest = s.integTest := rfl
@[simp] theorem updCmd_clk (s : State) (id : Nat) (f : Cmd → Cmd) : (s.updCmd id f).clk = s.clk := rfl
@[simp] theorem updCmd_boot (s : State) (id : Nat) (f : Cmd → Cmd) : (s.updCmd id f).boot = s.boot := rfl
@[simp] theorem updCmd_power (s : State) (id : Nat) (f : Cmd → Cmd) : (s.updCmd id f).power = s.power := rfl
@[simp] theorem updCmd_reads (s : State) (id : Nat) (f : Cmd → Cmd) : (s.updCmd id f).reads = s.reads := rfl
@[simp] theorem updCmd_out (s : State) (id : Nat) (f : Cmd → Cmd) : (s.updCmd id f).out = s.out := rfl

/-! `dropCmd` -/

@[simp] theorem dropCmd_part (s : State) (id : Nat) : (s.dropCmd id).part = s.part := rfl
@[simp] theorem dropCmd_pending (s : State) (id : Nat) : (s.dropCmd id).pending = s.pending := rfl
@[simp] theorem dropCmd_time (s : State) (id : Nat) : (s.dropCmd id).time = s.time := rfl
@[simp] theorem dropCmd_free (s : State) (id : Nat) : (s.dropCmd id).free = s.free := rfl
@[simp] theorem dropCmd_hosts (s : State) (id : Nat) : (s.dropCmd id).hosts = s.hosts := rfl
@[simp] theorem dropCmd_role (s : State) (id : Nat) : (s.dropCmd id).role = s.role := rfl
@[simp] theorem dropCmd_parts (s : State) (id : Nat) : (s.dropCmd id).parts = s.parts := rfl
@[simp] theorem dropCmd_cmds (s : State) (id : Nat) : (s.dropCmd id).cmds = s.cmds.filter fun c => c.id ≠ id := rfl
@[simp] theorem dropCmd_nextId (s : State) (id : Nat) : (s.dropCmd id).nextId = s.nextId := rfl
@[simp] theorem dropCmd_logs (s : State) (id : Nat) : (s.dropCmd id).logs = s.logs := rfl
@[simp] theorem dropCmd_events (s : State) (id : Nat) : (s.dropCmd id).events = s.events := rfl
@[simp] theorem dropCmd_ks (s : State) (id : Nat) : (s.dropCmd id).ks = s.ks := rfl
@[simp] theorem dropCmd_raster (s : State) (id : Nat) : (s.dropCmd id).raster = s.raster := rfl
@[simp] theorem dropCmd_strips (s : State) (id : Nat) : (s.dropCmd id).strips = s.strips := rfl
@[simp] theorem dropCmd_comps (s : State) (id : Nat) : (s.dropCmd id).comps = s.comps := rfl
@[simp] theorem dropCmd_compTurn (s : State) (id : Nat) : (s.dropCmd id).compTurn = s.compTurn := rfl
@[simp] theorem dropCmd_writeback (s : State) (id : Nat) : (s.dropCmd id).writeback = s.writeback := rfl
@[simp] theorem dropCmd_seq (s : State) (id : Nat) : (s.dropCmd id).seq = s.seq := rfl
@[simp] theorem dropCmd_engines (s : State) (id : Nat) : (s.dropCmd id).engines = s.engines := rfl
@[simp] theorem dropCmd_anvilExtra (s : State) (id : Nat) : (s.dropCmd id).anvilExtra = s.anvilExtra := rfl
@[simp] theorem dropCmd_staging (s : State) (id : Nat) : (s.dropCmd id).staging = s.staging := rfl
@[simp] theorem dropCmd_shares (s : State) (id : Nat) : (s.dropCmd id).shares = s.shares := rfl
@[simp] theorem dropCmd_links (s : State) (id : Nat) : (s.dropCmd id).links = s.links := rfl
@[simp] theorem dropCmd_web (s : State) (id : Nat) : (s.dropCmd id).web = s.web := rfl
@[simp] theorem dropCmd_chans (s : State) (id : Nat) : (s.dropCmd id).chans = s.chans := rfl
@[simp] theorem dropCmd_buckets (s : State) (id : Nat) : (s.dropCmd id).buckets = s.buckets := rfl
@[simp] theorem dropCmd_sr (s : State) (id : Nat) : (s.dropCmd id).sr = s.sr := rfl
@[simp] theorem dropCmd_quench (s : State) (id : Nat) : (s.dropCmd id).quench = s.quench := rfl
@[simp] theorem dropCmd_refilled (s : State) (id : Nat) : (s.dropCmd id).refilled = s.refilled := rfl
@[simp] theorem dropCmd_integTest (s : State) (id : Nat) : (s.dropCmd id).integTest = s.integTest := rfl
@[simp] theorem dropCmd_clk (s : State) (id : Nat) : (s.dropCmd id).clk = s.clk := rfl
@[simp] theorem dropCmd_boot (s : State) (id : Nat) : (s.dropCmd id).boot = s.boot := rfl
@[simp] theorem dropCmd_power (s : State) (id : Nat) : (s.dropCmd id).power = s.power := rfl
@[simp] theorem dropCmd_reads (s : State) (id : Nat) : (s.dropCmd id).reads = s.reads := rfl
@[simp] theorem dropCmd_out (s : State) (id : Nat) : (s.dropCmd id).out = s.out := rfl

/-! `hold` -/

@[simp] theorem hold_part (s : State) (n : Fin 96) : (s.hold n).part = s.part := rfl
@[simp] theorem hold_pending (s : State) (n : Fin 96) : (s.hold n).pending = s.pending := rfl
@[simp] theorem hold_time (s : State) (n : Fin 96) : (s.hold n).time = s.time := rfl
@[simp] theorem hold_free (s : State) (n : Fin 96) : (s.hold n).free = s.free := rfl
@[simp] theorem hold_hosts (s : State) (n : Fin 96) : (s.hold n).hosts = s.hosts := rfl
@[simp] theorem hold_role (s : State) (n : Fin 96) : (s.hold n).role = s.role := rfl
@[simp] theorem hold_parts (s : State) (n : Fin 96) : (s.hold n).parts = s.parts := rfl
@[simp] theorem hold_cmds (s : State) (n : Fin 96) : (s.hold n).cmds = s.cmds := rfl
@[simp] theorem hold_nextId (s : State) (n : Fin 96) : (s.hold n).nextId = s.nextId := rfl
@[simp] theorem hold_logs (s : State) (n : Fin 96) : (s.hold n).logs = s.logs := rfl
@[simp] theorem hold_ks (s : State) (n : Fin 96) : (s.hold n).ks = s.ks := rfl
@[simp] theorem hold_raster (s : State) (n : Fin 96) : (s.hold n).raster = s.raster := rfl
@[simp] theorem hold_strips (s : State) (n : Fin 96) : (s.hold n).strips = s.strips := rfl
@[simp] theorem hold_comps (s : State) (n : Fin 96) : (s.hold n).comps = s.comps := rfl
@[simp] theorem hold_compTurn (s : State) (n : Fin 96) : (s.hold n).compTurn = s.compTurn := rfl
@[simp] theorem hold_writeback (s : State) (n : Fin 96) : (s.hold n).writeback = s.writeback := rfl
@[simp] theorem hold_seq (s : State) (n : Fin 96) : (s.hold n).seq = s.seq := rfl
@[simp] theorem hold_engines (s : State) (n : Fin 96) : (s.hold n).engines = s.engines := rfl
@[simp] theorem hold_anvilExtra (s : State) (n : Fin 96) : (s.hold n).anvilExtra = s.anvilExtra := rfl
@[simp] theorem hold_staging (s : State) (n : Fin 96) : (s.hold n).staging = s.staging := rfl
@[simp] theorem hold_shares (s : State) (n : Fin 96) : (s.hold n).shares = s.shares := rfl
@[simp] theorem hold_links (s : State) (n : Fin 96) : (s.hold n).links = s.links := rfl
@[simp] theorem hold_web (s : State) (n : Fin 96) : (s.hold n).web = s.web := rfl
@[simp] theorem hold_chans (s : State) (n : Fin 96) : (s.hold n).chans = s.chans := rfl
@[simp] theorem hold_buckets (s : State) (n : Fin 96) : (s.hold n).buckets = s.buckets := rfl
@[simp] theorem hold_sr (s : State) (n : Fin 96) : (s.hold n).sr = s.sr := rfl
@[simp] theorem hold_quench (s : State) (n : Fin 96) : (s.hold n).quench = s.quench := rfl
@[simp] theorem hold_refilled (s : State) (n : Fin 96) : (s.hold n).refilled = s.refilled := rfl
@[simp] theorem hold_integTest (s : State) (n : Fin 96) : (s.hold n).integTest = s.integTest := rfl
@[simp] theorem hold_clk (s : State) (n : Fin 96) : (s.hold n).clk = s.clk := rfl
@[simp] theorem hold_boot (s : State) (n : Fin 96) : (s.hold n).boot = s.boot := rfl
@[simp] theorem hold_power (s : State) (n : Fin 96) : (s.hold n).power = s.power := rfl
@[simp] theorem hold_reads (s : State) (n : Fin 96) : (s.hold n).reads = s.reads := rfl
@[simp] theorem hold_out (s : State) (n : Fin 96) : (s.hold n).out = s.out := rfl

/-! `latchPins` -/

@[simp] theorem latchPins_part (s : State) (n : Fin 96) : (s.latchPins n).part = s.part := rfl
@[simp] theorem latchPins_pending (s : State) (n : Fin 96) : (s.latchPins n).pending = s.pending := rfl
@[simp] theorem latchPins_time (s : State) (n : Fin 96) : (s.latchPins n).time = s.time := rfl
@[simp] theorem latchPins_free (s : State) (n : Fin 96) : (s.latchPins n).free = s.free := rfl
@[simp] theorem latchPins_hosts (s : State) (n : Fin 96) : (s.latchPins n).hosts = s.hosts := rfl
@[simp] theorem latchPins_role (s : State) (n : Fin 96) : (s.latchPins n).role = s.role := rfl
@[simp] theorem latchPins_parts (s : State) (n : Fin 96) : (s.latchPins n).parts = s.parts := rfl
@[simp] theorem latchPins_cmds (s : State) (n : Fin 96) : (s.latchPins n).cmds = s.cmds := rfl
@[simp] theorem latchPins_nextId (s : State) (n : Fin 96) : (s.latchPins n).nextId = s.nextId := rfl
@[simp] theorem latchPins_logs (s : State) (n : Fin 96) : (s.latchPins n).logs = s.logs := rfl
@[simp] theorem latchPins_ks (s : State) (n : Fin 96) : (s.latchPins n).ks = s.ks := rfl
@[simp] theorem latchPins_raster (s : State) (n : Fin 96) : (s.latchPins n).raster = s.raster := rfl
@[simp] theorem latchPins_strips (s : State) (n : Fin 96) : (s.latchPins n).strips = s.strips := rfl
@[simp] theorem latchPins_comps (s : State) (n : Fin 96) : (s.latchPins n).comps = s.comps := rfl
@[simp] theorem latchPins_compTurn (s : State) (n : Fin 96) : (s.latchPins n).compTurn = s.compTurn := rfl
@[simp] theorem latchPins_writeback (s : State) (n : Fin 96) : (s.latchPins n).writeback = s.writeback := rfl
@[simp] theorem latchPins_seq (s : State) (n : Fin 96) : (s.latchPins n).seq = s.seq := rfl
@[simp] theorem latchPins_engines (s : State) (n : Fin 96) : (s.latchPins n).engines = s.engines := rfl
@[simp] theorem latchPins_anvilExtra (s : State) (n : Fin 96) : (s.latchPins n).anvilExtra = s.anvilExtra := rfl
@[simp] theorem latchPins_staging (s : State) (n : Fin 96) : (s.latchPins n).staging = s.staging := rfl
@[simp] theorem latchPins_shares (s : State) (n : Fin 96) : (s.latchPins n).shares = s.shares := rfl
@[simp] theorem latchPins_links (s : State) (n : Fin 96) : (s.latchPins n).links = s.links := rfl
@[simp] theorem latchPins_web (s : State) (n : Fin 96) : (s.latchPins n).web = s.web := rfl
@[simp] theorem latchPins_chans (s : State) (n : Fin 96) : (s.latchPins n).chans = s.chans := rfl
@[simp] theorem latchPins_buckets (s : State) (n : Fin 96) : (s.latchPins n).buckets = s.buckets := rfl
@[simp] theorem latchPins_sr (s : State) (n : Fin 96) : (s.latchPins n).sr = s.sr := rfl
@[simp] theorem latchPins_quench (s : State) (n : Fin 96) : (s.latchPins n).quench = s.quench := rfl
@[simp] theorem latchPins_refilled (s : State) (n : Fin 96) : (s.latchPins n).refilled = s.refilled := rfl
@[simp] theorem latchPins_integTest (s : State) (n : Fin 96) : (s.latchPins n).integTest = s.integTest := rfl
@[simp] theorem latchPins_clk (s : State) (n : Fin 96) : (s.latchPins n).clk = s.clk := rfl
@[simp] theorem latchPins_boot (s : State) (n : Fin 96) : (s.latchPins n).boot = s.boot := rfl
@[simp] theorem latchPins_power (s : State) (n : Fin 96) : (s.latchPins n).power = s.power := rfl
@[simp] theorem latchPins_reads (s : State) (n : Fin 96) : (s.latchPins n).reads = s.reads := rfl
@[simp] theorem latchPins_out (s : State) (n : Fin 96) : (s.latchPins n).out = s.out := rfl

/-! `logErr` -/

@[simp] theorem logErr_part (s : State) (y k : Nat) (fs : List Nat) : (s.logErr y k fs).part = s.part := rfl
@[simp] theorem logErr_pending (s : State) (y k : Nat) (fs : List Nat) : (s.logErr y k fs).pending = s.pending := rfl
@[simp] theorem logErr_time (s : State) (y k : Nat) (fs : List Nat) : (s.logErr y k fs).time = s.time := rfl
@[simp] theorem logErr_free (s : State) (y k : Nat) (fs : List Nat) : (s.logErr y k fs).free = s.free := rfl
@[simp] theorem logErr_hosts (s : State) (y k : Nat) (fs : List Nat) : (s.logErr y k fs).hosts = s.hosts := rfl
@[simp] theorem logErr_role (s : State) (y k : Nat) (fs : List Nat) : (s.logErr y k fs).role = s.role := rfl
@[simp] theorem logErr_parts (s : State) (y k : Nat) (fs : List Nat) : (s.logErr y k fs).parts = s.parts := rfl
@[simp] theorem logErr_cmds (s : State) (y k : Nat) (fs : List Nat) : (s.logErr y k fs).cmds = s.cmds := rfl
@[simp] theorem logErr_nextId (s : State) (y k : Nat) (fs : List Nat) : (s.logErr y k fs).nextId = s.nextId := rfl
@[simp] theorem logErr_events (s : State) (y k : Nat) (fs : List Nat) : (s.logErr y k fs).events = s.events := rfl
@[simp] theorem logErr_ks (s : State) (y k : Nat) (fs : List Nat) : (s.logErr y k fs).ks = s.ks := rfl
@[simp] theorem logErr_raster (s : State) (y k : Nat) (fs : List Nat) : (s.logErr y k fs).raster = s.raster := rfl
@[simp] theorem logErr_strips (s : State) (y k : Nat) (fs : List Nat) : (s.logErr y k fs).strips = s.strips := rfl
@[simp] theorem logErr_comps (s : State) (y k : Nat) (fs : List Nat) : (s.logErr y k fs).comps = s.comps := rfl
@[simp] theorem logErr_compTurn (s : State) (y k : Nat) (fs : List Nat) : (s.logErr y k fs).compTurn = s.compTurn := rfl
@[simp] theorem logErr_writeback (s : State) (y k : Nat) (fs : List Nat) : (s.logErr y k fs).writeback = s.writeback := rfl
@[simp] theorem logErr_seq (s : State) (y k : Nat) (fs : List Nat) : (s.logErr y k fs).seq = s.seq := rfl
@[simp] theorem logErr_engines (s : State) (y k : Nat) (fs : List Nat) : (s.logErr y k fs).engines = s.engines := rfl
@[simp] theorem logErr_anvilExtra (s : State) (y k : Nat) (fs : List Nat) : (s.logErr y k fs).anvilExtra = s.anvilExtra := rfl
@[simp] theorem logErr_staging (s : State) (y k : Nat) (fs : List Nat) : (s.logErr y k fs).staging = s.staging := rfl
@[simp] theorem logErr_shares (s : State) (y k : Nat) (fs : List Nat) : (s.logErr y k fs).shares = s.shares := rfl
@[simp] theorem logErr_links (s : State) (y k : Nat) (fs : List Nat) : (s.logErr y k fs).links = s.links := rfl
@[simp] theorem logErr_web (s : State) (y k : Nat) (fs : List Nat) : (s.logErr y k fs).web = s.web := rfl
@[simp] theorem logErr_chans (s : State) (y k : Nat) (fs : List Nat) : (s.logErr y k fs).chans = s.chans := rfl
@[simp] theorem logErr_buckets (s : State) (y k : Nat) (fs : List Nat) : (s.logErr y k fs).buckets = s.buckets := rfl
@[simp] theorem logErr_sr (s : State) (y k : Nat) (fs : List Nat) : (s.logErr y k fs).sr = s.sr := rfl
@[simp] theorem logErr_quench (s : State) (y k : Nat) (fs : List Nat) : (s.logErr y k fs).quench = s.quench := rfl
@[simp] theorem logErr_refilled (s : State) (y k : Nat) (fs : List Nat) : (s.logErr y k fs).refilled = s.refilled := rfl
@[simp] theorem logErr_integTest (s : State) (y k : Nat) (fs : List Nat) : (s.logErr y k fs).integTest = s.integTest := rfl
@[simp] theorem logErr_clk (s : State) (y k : Nat) (fs : List Nat) : (s.logErr y k fs).clk = s.clk := rfl
@[simp] theorem logErr_boot (s : State) (y k : Nat) (fs : List Nat) : (s.logErr y k fs).boot = s.boot := rfl
@[simp] theorem logErr_power (s : State) (y k : Nat) (fs : List Nat) : (s.logErr y k fs).power = s.power := rfl
@[simp] theorem logErr_reads (s : State) (y k : Nat) (fs : List Nat) : (s.logErr y k fs).reads = s.reads := rfl
@[simp] theorem logErr_out (s : State) (y k : Nat) (fs : List Nat) : (s.logErr y k fs).out = s.out := rfl

/-! `logErrMs` -/

@[simp] theorem logErrMs_part (s : State) (y k : Nat) (fs : List Nat) : (s.logErrMs y k fs).part = s.part := rfl
@[simp] theorem logErrMs_pending (s : State) (y k : Nat) (fs : List Nat) : (s.logErrMs y k fs).pending = s.pending := rfl
@[simp] theorem logErrMs_time (s : State) (y k : Nat) (fs : List Nat) : (s.logErrMs y k fs).time = s.time := rfl
@[simp] theorem logErrMs_free (s : State) (y k : Nat) (fs : List Nat) : (s.logErrMs y k fs).free = s.free := rfl
@[simp] theorem logErrMs_hosts (s : State) (y k : Nat) (fs : List Nat) : (s.logErrMs y k fs).hosts = s.hosts := rfl
@[simp] theorem logErrMs_role (s : State) (y k : Nat) (fs : List Nat) : (s.logErrMs y k fs).role = s.role := rfl
@[simp] theorem logErrMs_parts (s : State) (y k : Nat) (fs : List Nat) : (s.logErrMs y k fs).parts = s.parts := rfl
@[simp] theorem logErrMs_cmds (s : State) (y k : Nat) (fs : List Nat) : (s.logErrMs y k fs).cmds = s.cmds := rfl
@[simp] theorem logErrMs_nextId (s : State) (y k : Nat) (fs : List Nat) : (s.logErrMs y k fs).nextId = s.nextId := rfl
@[simp] theorem logErrMs_events (s : State) (y k : Nat) (fs : List Nat) : (s.logErrMs y k fs).events = s.events := rfl
@[simp] theorem logErrMs_ks (s : State) (y k : Nat) (fs : List Nat) : (s.logErrMs y k fs).ks = s.ks := rfl
@[simp] theorem logErrMs_raster (s : State) (y k : Nat) (fs : List Nat) : (s.logErrMs y k fs).raster = s.raster := rfl
@[simp] theorem logErrMs_strips (s : State) (y k : Nat) (fs : List Nat) : (s.logErrMs y k fs).strips = s.strips := rfl
@[simp] theorem logErrMs_comps (s : State) (y k : Nat) (fs : List Nat) : (s.logErrMs y k fs).comps = s.comps := rfl
@[simp] theorem logErrMs_compTurn (s : State) (y k : Nat) (fs : List Nat) : (s.logErrMs y k fs).compTurn = s.compTurn := rfl
@[simp] theorem logErrMs_writeback (s : State) (y k : Nat) (fs : List Nat) : (s.logErrMs y k fs).writeback = s.writeback := rfl
@[simp] theorem logErrMs_seq (s : State) (y k : Nat) (fs : List Nat) : (s.logErrMs y k fs).seq = s.seq := rfl
@[simp] theorem logErrMs_engines (s : State) (y k : Nat) (fs : List Nat) : (s.logErrMs y k fs).engines = s.engines := rfl
@[simp] theorem logErrMs_anvilExtra (s : State) (y k : Nat) (fs : List Nat) : (s.logErrMs y k fs).anvilExtra = s.anvilExtra := rfl
@[simp] theorem logErrMs_staging (s : State) (y k : Nat) (fs : List Nat) : (s.logErrMs y k fs).staging = s.staging := rfl
@[simp] theorem logErrMs_shares (s : State) (y k : Nat) (fs : List Nat) : (s.logErrMs y k fs).shares = s.shares := rfl
@[simp] theorem logErrMs_links (s : State) (y k : Nat) (fs : List Nat) : (s.logErrMs y k fs).links = s.links := rfl
@[simp] theorem logErrMs_web (s : State) (y k : Nat) (fs : List Nat) : (s.logErrMs y k fs).web = s.web := rfl
@[simp] theorem logErrMs_chans (s : State) (y k : Nat) (fs : List Nat) : (s.logErrMs y k fs).chans = s.chans := rfl
@[simp] theorem logErrMs_buckets (s : State) (y k : Nat) (fs : List Nat) : (s.logErrMs y k fs).buckets = s.buckets := rfl
@[simp] theorem logErrMs_sr (s : State) (y k : Nat) (fs : List Nat) : (s.logErrMs y k fs).sr = s.sr := rfl
@[simp] theorem logErrMs_quench (s : State) (y k : Nat) (fs : List Nat) : (s.logErrMs y k fs).quench = s.quench := rfl
@[simp] theorem logErrMs_refilled (s : State) (y k : Nat) (fs : List Nat) : (s.logErrMs y k fs).refilled = s.refilled := rfl
@[simp] theorem logErrMs_integTest (s : State) (y k : Nat) (fs : List Nat) : (s.logErrMs y k fs).integTest = s.integTest := rfl
@[simp] theorem logErrMs_clk (s : State) (y k : Nat) (fs : List Nat) : (s.logErrMs y k fs).clk = s.clk := rfl
@[simp] theorem logErrMs_boot (s : State) (y k : Nat) (fs : List Nat) : (s.logErrMs y k fs).boot = s.boot := rfl
@[simp] theorem logErrMs_power (s : State) (y k : Nat) (fs : List Nat) : (s.logErrMs y k fs).power = s.power := rfl
@[simp] theorem logErrMs_reads (s : State) (y k : Nat) (fs : List Nat) : (s.logErrMs y k fs).reads = s.reads := rfl
@[simp] theorem logErrMs_out (s : State) (y k : Nat) (fs : List Nat) : (s.logErrMs y k fs).out = s.out := rfl

/-! `logLinkRun` -/

@[simp] theorem logLinkRun_part (s : State) (y : Nat) (fs : List Nat) : (s.logLinkRun y fs).part = s.part := rfl
@[simp] theorem logLinkRun_pending (s : State) (y : Nat) (fs : List Nat) : (s.logLinkRun y fs).pending = s.pending := rfl
@[simp] theorem logLinkRun_time (s : State) (y : Nat) (fs : List Nat) : (s.logLinkRun y fs).time = s.time := rfl
@[simp] theorem logLinkRun_free (s : State) (y : Nat) (fs : List Nat) : (s.logLinkRun y fs).free = s.free := rfl
@[simp] theorem logLinkRun_hosts (s : State) (y : Nat) (fs : List Nat) : (s.logLinkRun y fs).hosts = s.hosts := rfl
@[simp] theorem logLinkRun_role (s : State) (y : Nat) (fs : List Nat) : (s.logLinkRun y fs).role = s.role := rfl
@[simp] theorem logLinkRun_parts (s : State) (y : Nat) (fs : List Nat) : (s.logLinkRun y fs).parts = s.parts := rfl
@[simp] theorem logLinkRun_cmds (s : State) (y : Nat) (fs : List Nat) : (s.logLinkRun y fs).cmds = s.cmds := rfl
@[simp] theorem logLinkRun_nextId (s : State) (y : Nat) (fs : List Nat) : (s.logLinkRun y fs).nextId = s.nextId := rfl
@[simp] theorem logLinkRun_events (s : State) (y : Nat) (fs : List Nat) : (s.logLinkRun y fs).events = s.events := rfl
@[simp] theorem logLinkRun_ks (s : State) (y : Nat) (fs : List Nat) : (s.logLinkRun y fs).ks = s.ks := rfl
@[simp] theorem logLinkRun_raster (s : State) (y : Nat) (fs : List Nat) : (s.logLinkRun y fs).raster = s.raster := rfl
@[simp] theorem logLinkRun_strips (s : State) (y : Nat) (fs : List Nat) : (s.logLinkRun y fs).strips = s.strips := rfl
@[simp] theorem logLinkRun_comps (s : State) (y : Nat) (fs : List Nat) : (s.logLinkRun y fs).comps = s.comps := rfl
@[simp] theorem logLinkRun_compTurn (s : State) (y : Nat) (fs : List Nat) : (s.logLinkRun y fs).compTurn = s.compTurn := rfl
@[simp] theorem logLinkRun_writeback (s : State) (y : Nat) (fs : List Nat) : (s.logLinkRun y fs).writeback = s.writeback := rfl
@[simp] theorem logLinkRun_seq (s : State) (y : Nat) (fs : List Nat) : (s.logLinkRun y fs).seq = s.seq := rfl
@[simp] theorem logLinkRun_engines (s : State) (y : Nat) (fs : List Nat) : (s.logLinkRun y fs).engines = s.engines := rfl
@[simp] theorem logLinkRun_anvilExtra (s : State) (y : Nat) (fs : List Nat) : (s.logLinkRun y fs).anvilExtra = s.anvilExtra := rfl
@[simp] theorem logLinkRun_staging (s : State) (y : Nat) (fs : List Nat) : (s.logLinkRun y fs).staging = s.staging := rfl
@[simp] theorem logLinkRun_shares (s : State) (y : Nat) (fs : List Nat) : (s.logLinkRun y fs).shares = s.shares := rfl
@[simp] theorem logLinkRun_links (s : State) (y : Nat) (fs : List Nat) : (s.logLinkRun y fs).links = s.links := rfl
@[simp] theorem logLinkRun_web (s : State) (y : Nat) (fs : List Nat) : (s.logLinkRun y fs).web = s.web := rfl
@[simp] theorem logLinkRun_chans (s : State) (y : Nat) (fs : List Nat) : (s.logLinkRun y fs).chans = s.chans := rfl
@[simp] theorem logLinkRun_buckets (s : State) (y : Nat) (fs : List Nat) : (s.logLinkRun y fs).buckets = s.buckets := rfl
@[simp] theorem logLinkRun_sr (s : State) (y : Nat) (fs : List Nat) : (s.logLinkRun y fs).sr = s.sr := rfl
@[simp] theorem logLinkRun_quench (s : State) (y : Nat) (fs : List Nat) : (s.logLinkRun y fs).quench = s.quench := rfl
@[simp] theorem logLinkRun_refilled (s : State) (y : Nat) (fs : List Nat) : (s.logLinkRun y fs).refilled = s.refilled := rfl
@[simp] theorem logLinkRun_integTest (s : State) (y : Nat) (fs : List Nat) : (s.logLinkRun y fs).integTest = s.integTest := rfl
@[simp] theorem logLinkRun_clk (s : State) (y : Nat) (fs : List Nat) : (s.logLinkRun y fs).clk = s.clk := rfl
@[simp] theorem logLinkRun_boot (s : State) (y : Nat) (fs : List Nat) : (s.logLinkRun y fs).boot = s.boot := rfl
@[simp] theorem logLinkRun_power (s : State) (y : Nat) (fs : List Nat) : (s.logLinkRun y fs).power = s.power := rfl
@[simp] theorem logLinkRun_reads (s : State) (y : Nat) (fs : List Nat) : (s.logLinkRun y fs).reads = s.reads := rfl
@[simp] theorem logLinkRun_out (s : State) (y : Nat) (fs : List Nat) : (s.logLinkRun y fs).out = s.out := rfl

/-! `logCourse` -/

@[simp] theorem logCourse_part (s : State) (y c u r b l i v d : Nat) : (s.logCourse y c u r b l i v d).part = s.part := rfl
@[simp] theorem logCourse_pending (s : State) (y c u r b l i v d : Nat) : (s.logCourse y c u r b l i v d).pending = s.pending := rfl
@[simp] theorem logCourse_time (s : State) (y c u r b l i v d : Nat) : (s.logCourse y c u r b l i v d).time = s.time := rfl
@[simp] theorem logCourse_free (s : State) (y c u r b l i v d : Nat) : (s.logCourse y c u r b l i v d).free = s.free := rfl
@[simp] theorem logCourse_hosts (s : State) (y c u r b l i v d : Nat) : (s.logCourse y c u r b l i v d).hosts = s.hosts := rfl
@[simp] theorem logCourse_role (s : State) (y c u r b l i v d : Nat) : (s.logCourse y c u r b l i v d).role = s.role := rfl
@[simp] theorem logCourse_parts (s : State) (y c u r b l i v d : Nat) : (s.logCourse y c u r b l i v d).parts = s.parts := rfl
@[simp] theorem logCourse_cmds (s : State) (y c u r b l i v d : Nat) : (s.logCourse y c u r b l i v d).cmds = s.cmds := rfl
@[simp] theorem logCourse_nextId (s : State) (y c u r b l i v d : Nat) : (s.logCourse y c u r b l i v d).nextId = s.nextId := rfl
@[simp] theorem logCourse_events (s : State) (y c u r b l i v d : Nat) : (s.logCourse y c u r b l i v d).events = s.events := rfl
@[simp] theorem logCourse_ks (s : State) (y c u r b l i v d : Nat) : (s.logCourse y c u r b l i v d).ks = s.ks := rfl
@[simp] theorem logCourse_raster (s : State) (y c u r b l i v d : Nat) : (s.logCourse y c u r b l i v d).raster = s.raster := rfl
@[simp] theorem logCourse_strips (s : State) (y c u r b l i v d : Nat) : (s.logCourse y c u r b l i v d).strips = s.strips := rfl
@[simp] theorem logCourse_comps (s : State) (y c u r b l i v d : Nat) : (s.logCourse y c u r b l i v d).comps = s.comps := rfl
@[simp] theorem logCourse_compTurn (s : State) (y c u r b l i v d : Nat) : (s.logCourse y c u r b l i v d).compTurn = s.compTurn := rfl
@[simp] theorem logCourse_writeback (s : State) (y c u r b l i v d : Nat) : (s.logCourse y c u r b l i v d).writeback = s.writeback := rfl
@[simp] theorem logCourse_seq (s : State) (y c u r b l i v d : Nat) : (s.logCourse y c u r b l i v d).seq = s.seq := rfl
@[simp] theorem logCourse_engines (s : State) (y c u r b l i v d : Nat) : (s.logCourse y c u r b l i v d).engines = s.engines := rfl
@[simp] theorem logCourse_anvilExtra (s : State) (y c u r b l i v d : Nat) : (s.logCourse y c u r b l i v d).anvilExtra = s.anvilExtra := rfl
@[simp] theorem logCourse_staging (s : State) (y c u r b l i v d : Nat) : (s.logCourse y c u r b l i v d).staging = s.staging := rfl
@[simp] theorem logCourse_shares (s : State) (y c u r b l i v d : Nat) : (s.logCourse y c u r b l i v d).shares = s.shares := rfl
@[simp] theorem logCourse_links (s : State) (y c u r b l i v d : Nat) : (s.logCourse y c u r b l i v d).links = s.links := rfl
@[simp] theorem logCourse_web (s : State) (y c u r b l i v d : Nat) : (s.logCourse y c u r b l i v d).web = s.web := rfl
@[simp] theorem logCourse_chans (s : State) (y c u r b l i v d : Nat) : (s.logCourse y c u r b l i v d).chans = s.chans := rfl
@[simp] theorem logCourse_buckets (s : State) (y c u r b l i v d : Nat) : (s.logCourse y c u r b l i v d).buckets = s.buckets := rfl
@[simp] theorem logCourse_sr (s : State) (y c u r b l i v d : Nat) : (s.logCourse y c u r b l i v d).sr = s.sr := rfl
@[simp] theorem logCourse_quench (s : State) (y c u r b l i v d : Nat) : (s.logCourse y c u r b l i v d).quench = s.quench := rfl
@[simp] theorem logCourse_refilled (s : State) (y c u r b l i v d : Nat) : (s.logCourse y c u r b l i v d).refilled = s.refilled := rfl
@[simp] theorem logCourse_integTest (s : State) (y c u r b l i v d : Nat) : (s.logCourse y c u r b l i v d).integTest = s.integTest := rfl
@[simp] theorem logCourse_clk (s : State) (y c u r b l i v d : Nat) : (s.logCourse y c u r b l i v d).clk = s.clk := rfl
@[simp] theorem logCourse_boot (s : State) (y c u r b l i v d : Nat) : (s.logCourse y c u r b l i v d).boot = s.boot := rfl
@[simp] theorem logCourse_power (s : State) (y c u r b l i v d : Nat) : (s.logCourse y c u r b l i v d).power = s.power := rfl
@[simp] theorem logCourse_reads (s : State) (y c u r b l i v d : Nat) : (s.logCourse y c u r b l i v d).reads = s.reads := rfl
@[simp] theorem logCourse_out (s : State) (y c u r b l i v d : Nat) : (s.logCourse y c u r b l i v d).out = s.out := rfl

end State

end Sys2Proof.Machine
end

