-- ==== Sys2Proof/Laws/Raising.lean ====
section
/-! SUPPORT. All that raising an event source can do: status bits and vectors of hosts, the event registers, and messages put
out. -/

namespace Sys2Proof.Machine

namespace State

/-- What raising sources can do to a state: each host keeps its record but for its status and its vectors. -/
def Raised (s t : State) : Prop :=
  ∃ hs ev o, t = { s with hosts := hs, events := ev, out := o ++ s.out } ∧
    ∀ h : HostId, ∃ b v, hs[h.val] = { s.hosts[h.val] with status := b, vecs := v }

theorem Raised.refl (s : State) : Raised s s :=
  ⟨s.hosts, s.events, [], rfl, fun h => ⟨s.hosts[h.val].status, s.hosts[h.val].vecs, rfl⟩⟩

theorem Raised.trans {s t u : State} (a : Raised s t) (b : Raised t u) : Raised s u := by
  obtain ⟨hs, ev, o, rfl, ha⟩ := a
  obtain ⟨hs', ev', o', rfl, hb⟩ := b
  refine ⟨hs', ev', o' ++ o, by simp, fun h => ?_⟩
  obtain ⟨x, y, hx⟩ := ha h
  obtain ⟨x', y', hx'⟩ := hb h
  exact ⟨x', y', by rw [hx']; simp [hx]⟩

/-- A host's status and vectors change. -/
theorem raised_updHost (s : State) (h : HostId) (f : HostRec → HostRec)
    (hf : ∀ r, ∃ b v, f r = { r with status := b, vecs := v }) : Raised s (s.updHost h f) := by
  refine ⟨vmod s.hosts h f, s.events, [], rfl, fun k => ?_⟩
  by_cases e : h = k
  · subst e
    obtain ⟨b, v, hb⟩ := hf s.hosts[h.val]
    exact ⟨b, v, by rw [vmod_same, hb]⟩
  · exact ⟨_, _, vmod_other s.hosts h k f e⟩

theorem raised_updVec (s : State) (h : HostId) (v : Fin 32) (f : Vec → Vec) : Raised s (s.updVec h v f) :=
  raised_updHost s h _ fun r => ⟨r.status, vmod r.vecs v f, rfl⟩

theorem raised_emit (s : State) (o : Out) : Raised s (s.emit o) :=
  ⟨s.hosts, s.events, [o], rfl, fun h => ⟨s.hosts[h.val].status, s.hosts[h.val].vecs, rfl⟩⟩

theorem raised_events (s : State) (e : Events) : Raised s { s with events := e } :=
  ⟨s.hosts, e, [], rfl, fun h => ⟨s.hosts[h.val].status, s.hosts[h.val].vecs, rfl⟩⟩

theorem raised_sendMsg (s : State) (h : HostId) (v : Fin 32) : Raised s (s.sendMsg h v) := by
  unfold sendMsg
  split
  · exact raised_updVec ..
  · split
    · exact raised_emit ..
    · exact Raised.refl s

theorem raised_countRaise (s : State) (h : HostId) (v : Fin 32) : Raised s (s.countRaise h v) := by
  unfold countRaise
  simp only
  split
  · exact raised_sendMsg ..
  · split
    · exact (raised_sendMsg ..).trans (raised_updVec ..)
    · split
      · exact (raised_sendMsg ..).trans (raised_updVec ..)
      · exact raised_updVec ..

theorem raised_deliver (s : State) (n : Fin 96) (h : HostId) (v : Fin 32) : Raised s (s.deliver n h v) := by
  have a := raised_updHost s h (fun r => { r with status := r.status ||| BitVec.twoPow 96 n.val })
    fun r => ⟨_, r.vecs, rfl⟩
  unfold deliver
  simp only
  split
  · exact a
  · exact a.trans (raised_countRaise ..)

theorem raised_hold (s : State) (n : Fin 96) : Raised s (s.hold n) := raised_events ..

theorem raised_latchPins (s : State) (n : Fin 96) : Raised s (s.latchPins n) := raised_events ..

theorem raised_raise (s : State) (n : Fin 96) : Raised s (s.raise n) := by
  have route (t : State) (dest : Option HostId) (e : Bool) (v : Fin 32) : Raised t (match dest with
      | some x => t.deliver n x v
      | none => if e then t.hold n else t) := by
    cases dest with
    | some x => exact raised_deliver ..
    | none => cases e <;> first | exact Raised.refl t | exact raised_hold ..
  have fault (t u : State) (dest holder : Option HostId) (c : Bool) (v : Fin 32) (h : Raised t u) :
      Raised t (if c then match holder with
        | some st => if dest = some st then u else u.deliver n st v
        | none => u.hold n else u) := by
    cases c with
    | false => exact h
    | true =>
      cases holder with
      | none => exact h.trans (raised_hold ..)
      | some st =>
        by_cases e : dest = some st
        · simpa [e] using h
        · simpa [e] using h.trans (raised_deliver ..)
  unfold raise
  split
  · exact Raised.refl s
  · refine (raised_latchPins s n).trans ?_
    generalize s.latchPins n = t
    simp only
    split
    · exact raised_deliver ..
    · exact fault _ _ _ _ _ _ (route ..)

theorem raised_deliverHeld (s : State) (h : HostId) : Raised s (s.deliverHeld h) := by
  have key (l : List (Fin 96)) (t : State) : Raised t (l.foldl
      (fun acc n => if s.events.held.getLsbD n.val then acc.deliver n h acc.events.routes[n].vector else acc) t) := by
    induction l generalizing t with
    | nil => exact Raised.refl t
    | cons n l ih =>
      refine Raised.trans ?_ (ih _)
      show Raised t (if s.events.held.getLsbD n.val then t.deliver n h t.events.routes[n].vector else t)
      split
      · exact raised_deliver ..
      · exact Raised.refl t
  exact (key _ s).trans (raised_events ..)

/-- Raising leaves a host's state. -/
theorem Raised.st {s t : State} (a : Raised s t) (h : HostId) : (t.hosts[h.val]).st = (s.hosts[h.val]).st := by
  obtain ⟨hs, ev, o, rfl, ha⟩ := a
  obtain ⟨b, v, hb⟩ := ha h
  simp [hb]

/-- Raising leaves a host's queues. -/
theorem Raised.queues {s t : State} (a : Raised s t) (h : HostId) : (t.hosts[h.val]).queues = (s.hosts[h.val]).queues := by
  obtain ⟨hs, ev, o, rfl, ha⟩ := a
  obtain ⟨b, v, hb⟩ := ha h
  simp [hb]

/-- Raising only adds outputs. -/
theorem Raised.out {s t : State} (a : Raised s t) : ∃ o, t.out = o ++ s.out := by
  obtain ⟨hs, ev, o, rfl, -⟩ := a
  exact ⟨o, rfl⟩

end State

end Sys2Proof.Machine
end

