-- ==== Sys2Proof/Laws/Submitting.lean ====
section
/-! SUPPORT. What a completion can do, and what a packet does that runs at once. -/

namespace Sys2Proof.Machine

namespace State

/-! ### Completing -/

/-- What completing commands can do to a state: hosts keep their records but for queues, status and vectors; commands leave
flight. -/
def Finished (s t : State) : Prop :=
  ∃ hs ev o cs, t = { s with hosts := hs, events := ev, out := o ++ s.out, cmds := cs } ∧
    (∀ h : HostId, ∃ q b v, hs[h.val] = { s.hosts[h.val] with queues := q, status := b, vecs := v }) ∧ cs.Sublist s.cmds

theorem Finished.refl (s : State) : Finished s s :=
  ⟨s.hosts, s.events, [], s.cmds, rfl,
    fun h => ⟨s.hosts[h.val].queues, s.hosts[h.val].status, s.hosts[h.val].vecs, rfl⟩, List.Sublist.refl _⟩

theorem Finished.trans {s t u : State} (a : Finished s t) (b : Finished t u) : Finished s u := by
  obtain ⟨hs, ev, o, cs, rfl, ha, hc⟩ := a
  obtain ⟨hs', ev', o', cs', rfl, hb, hd⟩ := b
  refine ⟨hs', ev', o' ++ o, cs', by simp, fun h => ?_, hd.trans hc⟩
  obtain ⟨q, x, y, hx⟩ := ha h
  obtain ⟨q', x', y', hx'⟩ := hb h
  exact ⟨q', x', y', by rw [hx']; simp [hx]⟩

theorem Raised.finished {s t : State} (a : Raised s t) : Finished s t := by
  obtain ⟨hs, ev, o, rfl, ha⟩ := a
  refine ⟨hs, ev, o, s.cmds, rfl, fun h => ?_, List.Sublist.refl _⟩
  obtain ⟨b, v, hb⟩ := ha h
  exact ⟨s.hosts[h.val].queues, b, v, hb⟩

theorem finished_updQueue (s : State) (h : HostId) (q : QueueId) (f : Queue → Queue) : Finished s (s.updQueue h q f) := by
  refine ⟨_, s.events, [], s.cmds, rfl, fun k => ?_, List.Sublist.refl _⟩
  by_cases e : h = k
  · subst e
    exact ⟨vmod s.hosts[h.val].queues q f, s.hosts[h.val].status, s.hosts[h.val].vecs, vmod_same ..⟩
  · exact ⟨s.hosts[k.val].queues, s.hosts[k.val].status, s.hosts[k.val].vecs, vmod_other _ _ _ _ e⟩

theorem finished_settleDisable (s : State) (h : HostId) (q : QueueId) : Finished s (s.settleDisable h q) := by
  unfold settleDisable
  split
  · exact finished_updQueue ..
  · exact Finished.refl s

theorem finished_dropCmd (s : State) (id : Nat) : Finished s (s.dropCmd id) :=
  ⟨s.hosts, s.events, [], _, rfl,
    fun h => ⟨s.hosts[h.val].queues, s.hosts[h.val].status, s.hosts[h.val].vecs, rfl⟩, List.filter_sublist⟩

theorem finished_finish (s : State) (id : Nat) (a : Answer) : Finished s (s.finish id a) := by
  unfold finish
  split
  · exact Finished.refl s
  · simp only
    split
    · exact ((((raised_emit _ _).finished.trans (finished_updQueue _ _ _ _)).trans (finished_dropCmd _ _)).trans
        (finished_settleDisable _ _ _)).trans (raised_raise _ _).finished
    · exact (((raised_emit _ _).finished.trans (finished_updQueue _ _ _ _)).trans (finished_dropCmd _ _)).trans
        (finished_settleDisable _ _ _)

/-- Completing leaves a host's state. -/
theorem Finished.st {s t : State} (a : Finished s t) (h : HostId) : (t.hosts[h.val]).st = (s.hosts[h.val]).st := by
  obtain ⟨hs, ev, o, cs, rfl, ha, -⟩ := a
  obtain ⟨q, b, v, hb⟩ := ha h
  simp [hb]

/-- Completing only adds outputs. -/
theorem Finished.out {s t : State} (a : Finished s t) : ∃ o, t.out = o ++ s.out := by
  obtain ⟨hs, ev, o, cs, rfl, -⟩ := a
  exact ⟨o, rfl⟩

/-- A command in flight that completes: its entry is put out on top of what was put out before, and it leaves flight. -/
theorem finish_found {s : State} {id : Nat} {c : Cmd} (a : Answer) (hc : s.findCmd id = some c) :
    ∃ o, (s.finish id a).out = o ++ [.completion c.iss.host c.iss.queue (s.queue c.iss.host c.iss.queue).cqTail
        (completionEntry c.iss.tag a (s.queue c.iss.host c.iss.queue).phase c.iss.queue
          (s.queue c.iss.host c.iss.queue).sqHead)] ++ s.out ∧
      (s.finish id a).cmds = s.cmds.filter fun c => c.id ≠ id := by
  have settle (u : State) (h : HostId) (q : QueueId) :
      (u.settleDisable h q).out = u.out ∧ (u.settleDisable h q).cmds = u.cmds := by
    unfold settleDisable
    split <;> exact ⟨rfl, rfl⟩
  unfold finish
  rw [hc]
  simp only
  split
  · obtain ⟨hs, ev, o, e, -⟩ := raised_raise _ _
    rw [e]
    exact ⟨o, by simp [settle], by simp [settle]⟩
  · exact ⟨[], by simp [settle], by simp [settle]⟩

/-! ### Submitting -/

theorem taken_cmds (s : State) (op : Byte) (i : Issue) : (s.taken op i).cmds = s.cmds ++ [s.mkCmd op i] := by
  unfold taken
  split
  · unfold beat
    split
    · rfl
    · obtain ⟨hs, ev, o, e, -⟩ := raised_raise _ _
      unfold raiseHost
      rw [e]
      rfl
    · rfl
  · rfl

theorem taken_nextId (s : State) (op : Byte) (i : Issue) : (s.taken op i).nextId = s.nextId + 1 := by
  unfold taken
  split
  · unfold beat
    split
    · rfl
    · obtain ⟨hs, ev, o, e, -⟩ := raised_raise _ _
      unfold raiseHost
      rw [e]
      rfl
    · rfl
  · rfl

/-- No earlier command has the number of the next. -/
theorem fresh_map {l : List Cmd} {n : Nat} (h : ∀ c ∈ l, c.id < n) (f : Cmd → Cmd) :
    l.map (fun c => if c.id = n then f c else c) = l := by
  conv_rhs => rw [← List.map_id l]
  refine List.map_congr_left fun c hc => ?_
  have := h c hc
  have e : c.id ≠ n := by omega
  simp [e]

theorem fresh_find {l : List Cmd} {n : Nat} (h : ∀ c ∈ l, c.id < n) {x : Cmd} (hx : x.id = n) :
    (l ++ [x]).find? (fun c => decide (c.id = n)) = some x := by
  have : l.find? (fun c => decide (c.id = n)) = none := by
    simp only [List.find?_eq_none, decide_eq_true_eq]
    intro c hc e
    have := h c hc
    omega
  simp [this, hx]

/-- A packet that runs at once has its own meaning run on the state in which it is in flight. -/
theorem submit_runs {s : State} {op : Byte} {i : Issue} (body : Cmd → State → State) (h : s.runs op i = true) :
    s.submit op body i = body (s.issued op i) (s.begun op i) := by
  simp only [runs, Bool.and_eq_true, Option.isNone_iff_eq_none, List.all_eq_true, decide_eq_true_eq,
    Bool.not_eq_true'] at h
  obtain ⟨⟨⟨⟨⟨⟨⟨hf, hcrc⟩, hid⟩, hturn⟩, hchk⟩, hstrip⟩, hw⟩, hm⟩ := h
  have e1 : (if op = 0x07 then (s.fetched op i).beat i.host else s.fetched op i) = s.taken op i := rfl
  have hheld : ({ (s.taken op i).updCmd (s.mkCmd op i).id
      (fun x => { x with prog := .held, started := (s.taken op i).nextId }) with nextId := (s.taken op i).nextId + 1 } : State) =
      s.under op i .held := by
    simp only [updCmd, under, taken_cmds, taken_nextId, List.map_append, mkCmd]
    rw [fresh_map hid]
    simp [issued]
  have hfind : (s.under op i .held).findCmd (s.mkCmd op i).id = some (s.issued op i) := by
    exact fresh_find hid rfl
  have hrun : (s.under op i .held).updCmd (s.mkCmd op i).id (fun x => { x with prog := .event }) = s.begun op i := by
    have hidn : (s.mkCmd op i).id = s.nextId := rfl
    rw [hidn]
    simp only [updCmd, under, begun, List.map_append]
    rw [fresh_map hid]
    simp [issued]
  have hdram : ((s.under op i .held).needsDram (s.issued op i) && !(s.under op i .held).dramServes (s.issued op i)) = false := by
    simp only [mustWait, Bool.or_eq_false_iff] at hm
    exact hm.2
  unfold submit
  simp only [hf, if_true, hcrc, e1, hturn]
  unfold start
  simp only [hchk, hstrip]
  rw [hheld]
  unfold resume
  rw [hfind]
  have hid' : (s.issued op i).id = (s.mkCmd op i).id := rfl
  simp only [hw, hdram, hm, Bool.false_eq_true, if_false]
  rw [hid'] at *
  rw [hrun]

/-- The command that a packet has become is in flight while its meaning runs. -/
theorem begun_find {s : State} {op : Byte} {i : Issue} (h : s.runs op i = true) :
    (s.begun op i).findCmd s.nextId = some { s.issued op i with prog := .event } := by
  simp only [runs, Bool.and_eq_true, Option.isNone_iff_eq_none, List.all_eq_true, decide_eq_true_eq,
    Bool.not_eq_true'] at h
  exact fresh_find h.1.1.1.1.1.2 rfl

end State

end Sys2Proof.Machine
end

