-- ==== Sys2Proof/Laws/Answers.lean ====
section
/-! SUPPORT. When a packet's command has completed with an answer, and what that leaves alone. -/

namespace Sys2Proof.Machine

namespace State

/-! ### Frames -/

theorem SessionOnly.refl (s : State) : SessionOnly s s := ⟨rfl, fun _ => rfl, [], rfl⟩

theorem SessionOnly.trans {s t u : State} (a : SessionOnly s t) (b : SessionOnly t u) : SessionOnly s u := by
  obtain ⟨ha, hka, oa, hoa⟩ := a
  obtain ⟨hb, hkb, ob, hob⟩ := b
  refine ⟨?_, fun k => ?_, ob ++ oa, by simp [hob, hoa]⟩
  · rw [hb, ha]
  · rw [hkb k, hka k]

theorem Finished.sessionOnly {s t : State} (a : Finished s t) : SessionOnly s t := by
  obtain ⟨hs, ev, o, cs, rfl, ha, -⟩ := a
  refine ⟨rfl, fun k => ?_, o, rfl⟩
  obtain ⟨q, b, v, hb⟩ := ha k
  simp only [Fin.getElem_fin, hb]

theorem Raised.sessionOnly {s t : State} (a : Raised s t) : SessionOnly s t := a.finished.sessionOnly

theorem Raised.raisedOnly {s t : State} (a : Raised s t) : RaisedOnly s t := by
  obtain ⟨hs, ev, o, rfl, ha⟩ := a
  refine ⟨rfl, fun k => ?_, o, rfl⟩
  obtain ⟨b, v, hb⟩ := ha k
  simp only [Fin.getElem_fin, hb]

theorem raisedOnly_raise (s : State) (n : Fin 96) : RaisedOnly s (s.raise n) := (raised_raise s n).raisedOnly

/-- A change of other parts of the state keeps a frame. -/
theorem SessionOnly.map {s t : State} (a : SessionOnly s t) (f : State → State)
    (hf : ∀ x hs ev cs n o, f { x with hosts := hs, events := ev, cmds := cs, nextId := n, out := o } =
      { f x with hosts := hs, events := ev, cmds := cs, nextId := n, out := o })
    (hh : (f s).hosts = s.hosts) (ho : (f s).out = s.out) : SessionOnly (f s) (f t) := by
  obtain ⟨ha, hk, o, hoa⟩ := a
  have e : f t = { f s with hosts := t.hosts, events := t.events, cmds := t.cmds, nextId := t.nextId, out := t.out } := by
    rw [← hf, ← ha]
  rw [e]
  exact ⟨rfl, fun k => by rw [hh]; exact hk k, o, by rw [ho]; exact hoa⟩

/-- A change of one host's record that leaves its queues, status and vectors alone keeps a frame. -/
theorem SessionOnly.updHost {s t : State} (a : SessionOnly s t) (h : HostId) (f : HostRec → HostRec)
    (hf : ∀ r q n b v, f { r with queues := q, turn := n, status := b, vecs := v } =
      { f r with queues := q, turn := n, status := b, vecs := v }) : SessionOnly (s.updHost h f) (t.updHost h f) := by
  obtain ⟨ha, hk, o, ho⟩ := a
  refine ⟨?_, fun k => ?_, o, ho⟩
  · conv_lhs => rw [ha]
    rfl
  · by_cases e : h = k
    · subst e
      have e1 : (s.updHost h f).hosts[h] = f s.hosts[h] := vmod_same ..
      have e2 : (t.updHost h f).hosts[h] = f t.hosts[h] := vmod_same ..
      have e3 := hf s.hosts[h] t.hosts[h].queues t.hosts[h].turn t.hosts[h].status t.hosts[h].vecs
      rw [e1, e2]
      have e4 : f t.hosts[h] = { f s.hosts[h] with
          queues := t.hosts[h].queues, turn := t.hosts[h].turn, status := t.hosts[h].status, vecs := t.hosts[h].vecs } := by
        rw [← e3, ← hk h]
      rw [e4]
    · have e1 : (s.updHost h f).hosts[k] = s.hosts[k] := vmod_other _ _ _ _ e
      have e2 : (t.updHost h f).hosts[k] = t.hosts[k] := vmod_other _ _ _ _ e
      rw [e1, e2]
      exact hk k

/-- Fetching a packet and starting its command touches the session alone. -/
theorem sessionOnly_begun (s : State) {op : Byte} (i : Issue) (h : op ≠ 0x07) : SessionOnly s (s.begun op i) := by
  have e : s.begun op i = { s with
      hosts := vmod s.hosts i.host fun r => { r with
        turn := i.queue + 1
        queues := vmod r.queues i.queue fun k => { k with sqHead := (k.sqHead + 1) % k.size } }
      cmds := s.cmds ++ [{ s.issued op i with prog := .event }], nextId := s.nextId + 2 } := by
    unfold begun under taken
    rw [if_neg h]
    rfl
  rw [e]
  refine ⟨rfl, fun k => ?_, [], rfl⟩
  by_cases hk : i.host = k
  · subst hk
    simp
  · simp [vmod_other _ _ _ _ hk]

/-! ### Answers -/

theorem Answered.mono {s t u : State} {i : Issue} {a : Answer} (h : Answered s t i a) (ho : ∃ o, u.out = o ++ t.out)
    (hc : ∀ c ∈ u.cmds, c ∈ t.cmds)
    (hq : (u.queue i.host i.queue).sqHead = (t.queue i.host i.queue).sqHead ∧
      (u.queue i.host i.queue).cqTail = (t.queue i.host i.queue).cqTail ∧
      (u.queue i.host i.queue).phase = (t.queue i.host i.queue).phase) : Answered s u i a := by
  obtain ⟨⟨xs, hx, hm⟩, hd, h1, h2, h3⟩ := h
  obtain ⟨o, ho⟩ := ho
  exact ⟨⟨o ++ xs, by rw [ho, hx, List.append_assoc], List.mem_append_right _ hm⟩, fun c h => hd c (hc c h),
    hq.1.trans h1, hq.2.1.trans h2, hq.2.2.trans h3⟩

/-- What happens after a completion and raises sources alone keeps the answer. -/
theorem Answered.raised {s t u : State} {i : Issue} {a : Answer} (h : Answered s t i a) (r : Raised t u)
    : Answered s u i a := by
  have hq : u.queue i.host i.queue = t.queue i.host i.queue := by
    obtain ⟨hs, ev, o, rfl, hh⟩ := r
    obtain ⟨b, v, hb⟩ := hh i.host
    simp [queue, hb]
  refine h.mono r.out (fun c hc => ?_) (by rw [hq]; exact ⟨rfl, rfl, rfl⟩)
  obtain ⟨hs, ev, o, rfl, hh⟩ := r
  exact hc

/-- The queue of a packet whose command is in flight. -/
theorem begun_queue (s : State) (op : Byte) (i : Issue) :
    (s.begun op i).queue i.host i.queue =
      { s.queue i.host i.queue with sqHead := ((s.queue i.host i.queue).sqHead + 1) % (s.queue i.host i.queue).size } := by
  have e : (s.begun op i).hosts = (s.taken op i).hosts := rfl
  have f : (s.fetched op i).queue i.host i.queue =
      { s.queue i.host i.queue with sqHead := ((s.queue i.host i.queue).sqHead + 1) % (s.queue i.host i.queue).size } := by
    simp [fetched, queue, updHost]
  unfold queue at *
  rw [e]
  unfold taken
  split
  · rw [← f]
    unfold beat
    split
    · simp [updHost]
    · obtain ⟨hs, ev, o, hr, hh⟩ := raised_raise
        ((s.fetched op i).updHost i.host fun r => { r with lastHb := (s.fetched op i).time, st := .attached })
        ⟨76 + i.host.val, by omega⟩
      obtain ⟨b, v, hb⟩ := hh i.host
      unfold raiseHost
      rw [hr]
      simp only [Fin.getElem_fin, hb]
      simp [updHost]
    · rfl
  · exact f

theorem begun_out (s : State) (op : Byte) (i : Issue) : ∃ o, (s.begun op i).out = o ++ s.out := by
  have e : (s.begun op i).out = (s.taken op i).out := rfl
  have f : (s.fetched op i).out = s.out := rfl
  rw [e]
  unfold taken
  split
  · unfold beat
    split
    · exact ⟨[], rfl⟩
    · obtain ⟨o, ho⟩ := (raised_raise
        ((s.fetched op i).updHost i.host fun r => { r with lastHb := (s.fetched op i).time, st := .attached })
        ⟨76 + i.host.val, by omega⟩).out
      exact ⟨o, ho⟩
    · exact ⟨[], rfl⟩
  · exact ⟨[], rfl⟩

/-- Completing moves the heads and tails of its own queue alone. -/
theorem finish_queue {u : State} {id : Nat} {c : Cmd} (a : Answer) (hc : u.findCmd id = some c) :
    ((u.finish id a).queue c.iss.host c.iss.queue).sqHead = (u.queue c.iss.host c.iss.queue).sqHead ∧
      ((u.finish id a).queue c.iss.host c.iss.queue).cqTail = (u.queue c.iss.host c.iss.queue).advance.cqTail ∧
      ((u.finish id a).queue c.iss.host c.iss.queue).phase = (u.queue c.iss.host c.iss.queue).advance.phase := by
  have key (v : State) (hv : v.queue c.iss.host c.iss.queue = (u.queue c.iss.host c.iss.queue).advance) :
      let w := v.settleDisable c.iss.host c.iss.queue
      (w.queue c.iss.host c.iss.queue).sqHead = (u.queue c.iss.host c.iss.queue).sqHead ∧
      (w.queue c.iss.host c.iss.queue).cqTail = (u.queue c.iss.host c.iss.queue).advance.cqTail ∧
      (w.queue c.iss.host c.iss.queue).phase = (u.queue c.iss.host c.iss.queue).advance.phase := by
    have h0 : ((u.queue c.iss.host c.iss.queue).advance).sqHead = (u.queue c.iss.host c.iss.queue).sqHead := by
      unfold Queue.advance
      split <;> rfl
    have h1 : (v.settleDisable c.iss.host c.iss.queue).queue c.iss.host c.iss.queue =
        { v.queue c.iss.host c.iss.queue with
          enable := ((v.settleDisable c.iss.host c.iss.queue).queue c.iss.host c.iss.queue).enable
          disabling := ((v.settleDisable c.iss.host c.iss.queue).queue c.iss.host c.iss.queue).disabling } := by
      unfold settleDisable
      split
      · simp [queue, updQueue, updHost]
      · rfl
    simp only
    rw [h1, hv]
    exact ⟨h0, rfl, rfl⟩
  unfold finish
  rw [hc]
  simp only
  have base := key
    (((u.emit (.completion c.iss.host c.iss.queue (u.queue c.iss.host c.iss.queue).cqTail (completionEntry c.iss.tag a
      (u.queue c.iss.host c.iss.queue).phase c.iss.queue (u.queue c.iss.host c.iss.queue).sqHead))).updQueue c.iss.host
        c.iss.queue Queue.advance).dropCmd id) (by simp [queue, updQueue, updHost])
  split
  · have hr (v : State) (n : Fin 96) : (v.raise n).queue c.iss.host c.iss.queue = v.queue c.iss.host c.iss.queue := by
      obtain ⟨hs, ev, o, e, hh⟩ := raised_raise v n
      obtain ⟨b, x, hb⟩ := hh c.iss.host
      rw [e]
      simp [queue, hb]
    rw [hr]
    exact base
  · exact base

/-- A command in flight that completes answers the packet that it was. -/
theorem answered_of {s u : State} {i : Issue} {c : Cmd} (a : Answer) (hf : u.findCmd s.nextId = some c) (hi : c.iss = i)
    (hq : u.queue i.host i.queue =
      { s.queue i.host i.queue with sqHead := ((s.queue i.host i.queue).sqHead + 1) % (s.queue i.host i.queue).size })
    (ho : ∃ o, u.out = o ++ s.out) : Answered s (u.finish s.nextId a) i a := by
  obtain ⟨o, h1, h2⟩ := finish_found a hf
  obtain ⟨h3, h4, h5⟩ := finish_queue a hf
  obtain ⟨o', ho'⟩ := ho
  simp only [hi] at h1 h3 h4 h5
  refine ⟨⟨o ++ [s.entryOf i a] ++ o', ?_, by simp⟩, fun c hc' => ?_, ?_, ?_, ?_⟩
  · rw [h1, ho', hq]
    simp [entryOf]
  · rw [h2] at hc'
    simpa using (List.mem_filter.1 hc').2
  · rw [h3, hq]
  · rw [h4, hq]
    simp only [Queue.advance]
    split <;> rfl
  · rw [h5, hq]
    simp only [Queue.advance]
    split <;> rfl

/-- A command that has run and completes: its packet is answered. -/
theorem answered_finish {s : State} {op : Byte} {i : Issue} (h : s.runs op i = true) (u : State) (a : Answer)
    (hc : u.cmds = (s.begun op i).cmds) (hq : u.queue i.host i.queue = (s.begun op i).queue i.host i.queue)
    (ho : ∃ o, u.out = o ++ s.out) : Answered s (u.finish s.nextId a) i a := by
  have hf : u.findCmd s.nextId = some { s.issued op i with prog := .event } := by
    have := begun_find h
    unfold findCmd at *
    rwa [hc]
  exact answered_of a hf rfl (hq.trans (begun_queue s op i)) ho

/-- A packet that has been fetched and whose command has not started is in flight. -/
theorem taken_find {s : State} (h : s.FreshNumbers) (op : Byte) (i : Issue) :
    (s.taken op i).findCmd s.nextId = some (s.mkCmd op i) := by
  unfold findCmd
  rw [taken_cmds]
  exact fresh_find h.1 rfl

/-- A packet that is refused as soon as it has been fetched is answered. -/
theorem answered_taken {s : State} (h : s.FreshNumbers) (op : Byte) (i : Issue) (a : Answer) :
    Answered s ((s.taken op i).finish s.nextId a) i a :=
  answered_of a (taken_find h op i) rfl (begun_queue s op i) (begun_out s op i)

/-- Fetching a packet touches the session alone. -/
theorem sessionOnly_taken (s : State) {op : Byte} (i : Issue) (h : op ≠ 0x07) : SessionOnly s (s.taken op i) := by
  obtain ⟨ha, hk, ho⟩ := sessionOnly_begun s i h
  have e : s.taken op i = { s.begun op i with cmds := (s.taken op i).cmds, nextId := (s.taken op i).nextId } := rfl
  rw [e, ha]
  exact ⟨rfl, hk, ho⟩

end State

end Sys2Proof.Machine
end

