-- ==== Sys2Proof/Laws/Memory.lean ====
section
/-! SUPPORT. The store of codewords: every operation keeps its canonical form, a cell reads what was last written there, and
a write leaves the cells outside it alone. -/

namespace Sys2Proof.Machine

theorem Memory.wf_cons {k : Nat} {b : Byte} {m : List Host.Cell} :
    Memory.wf ((k, b) :: m) ↔ (∀ x ∈ m, k < x.1) ∧ b ≠ 0 ∧ Memory.wf m := by
  simp only [Memory.wf, List.pairwise_cons, List.mem_cons, forall_eq_or_imp]
  tauto

/-- The cells of a memory after a write are cells of it or the one written. -/
theorem Memory.mem_write {m : List Host.Cell} {a : Nat} {v : Byte} {x : Host.Cell} (h : x ∈ Memory.write m a v) :
    x ∈ m ∨ x.1 = a := by
  induction m with
  | nil =>
    simp only [Memory.write] at h
    split at h <;> simp_all
  | cons c m ih =>
    obtain ⟨k, b⟩ := c
    simp only [Memory.write] at h
    split at h
    · split at h
      · exact .inl h
      · obtain rfl | h := List.mem_cons.1 h
        · exact .inr rfl
        · exact .inl h
    · split at h
      · rename_i e
        split at h
        · exact .inl (List.mem_cons_of_mem _ h)
        · obtain rfl | h := List.mem_cons.1 h
          · exact .inr e.symm
          · exact .inl (List.mem_cons_of_mem _ h)
      · obtain rfl | h := List.mem_cons.1 h
        · exact .inl (List.mem_cons_self ..)
        · exact (ih h).imp_left (List.mem_cons_of_mem _)

theorem Memory.wf_write {m : List Host.Cell} (h : Memory.wf m) (a : Nat) (v : Byte) : Memory.wf (Memory.write m a v) := by
  induction m with
  | nil =>
    simp only [Memory.write]
    split
    · exact h
    · exact Memory.wf_cons.2 ⟨by simp, ‹_›, h⟩
  | cons c m ih =>
    obtain ⟨k, b⟩ := c
    obtain ⟨hk, hb, hm⟩ := Memory.wf_cons.1 h
    simp only [Memory.write]
    split
    · split
      · exact h
      · refine Memory.wf_cons.2 ⟨fun x hx => ?_, ‹_›, h⟩
        obtain rfl | hx := List.mem_cons.1 hx
        · assumption
        · have := hk x hx
          omega
    · split
      · split
        · exact hm
        · exact Memory.wf_cons.2 ⟨hk, ‹_›, hm⟩
      · refine Memory.wf_cons.2 ⟨fun x hx => ?_, hb, ih hm⟩
        obtain hx | hx := Memory.mem_write hx
        · exact hk x hx
        · omega

/-- A cell reads what was written there, and the others are left alone. -/
theorem Memory.read_write {m : List Host.Cell} (h : Memory.wf m) (a : Nat) (v : Byte) (x : Nat) :
    Memory.read (Memory.write m a v) x = if x = a then v else Memory.read m x := by
  have absent {m : List Host.Cell} {n : Nat} (h : ∀ x ∈ m, n < x.1) {y : Nat} (hy : y ≤ n) : Memory.read m y = 0 := by
    induction m with
    | nil => rfl
    | cons c m ih =>
      have := h c (List.mem_cons_self ..)
      simp only [Memory.read]
      rw [if_neg (by omega)]
      exact ih fun x hx => h x (List.mem_cons_of_mem _ hx)
  induction m with
  | nil =>
    simp only [Memory.write]
    by_cases hv : v = 0
    · rw [if_pos hv, hv]
      simp [Memory.read]
    · rw [if_neg hv]
      simp [Memory.read, eq_comm]
  | cons c m ih =>
    obtain ⟨k, b⟩ := c
    obtain ⟨hk, hb, hm⟩ := Memory.wf_cons.1 h
    simp only [Memory.write]
    by_cases h1 : a < k
    · rw [if_pos h1]
      by_cases hv : v = 0
      · rw [if_pos hv]
        by_cases hx : x = a
        · subst hx
          simp only [if_true, Memory.read]
          rw [if_neg (by omega), hv]
          exact absent hk (by omega)
        · simp [hx]
      · rw [if_neg hv]
        by_cases hx : x = a
        · subst hx
          simp [Memory.read]
        · simp [Memory.read, hx, Ne.symm hx]
    · rw [if_neg h1]
      by_cases h2 : a = k
      · subst h2
        simp only [if_true]
        by_cases hv : v = 0
        · rw [if_pos hv]
          by_cases hx : x = a
          · subst hx
            simp only [if_true]
            rw [hv]
            exact absent hk (le_refl _)
          · simp [Memory.read, hx, Ne.symm hx]
        · rw [if_neg hv]
          by_cases hx : x = a
          · subst hx
            simp [Memory.read]
          · simp [Memory.read, hx, Ne.symm hx]
      · rw [if_neg h2]
        simp only [Memory.read, ih hm]
        by_cases hx : k = x
        · simp [hx, show x ≠ a by omega]
        · simp [hx]

theorem Memory.wf_writeN {m : List Host.Cell} (h : Memory.wf m) (a : Nat) (bs : List Byte) :
    Memory.wf (Memory.writeN m a bs) := by
  induction bs generalizing m a with
  | nil => exact h
  | cons b bs ih => exact ih (Memory.wf_write h a b) (a + 1)

/-- Bytes outside those written read as before. -/
theorem Memory.read_writeN {m : List Host.Cell} (h : Memory.wf m) (a : Nat) (bs : List Byte) {x : Nat}
    (hx : x < a ∨ a + bs.length ≤ x) : Memory.read (Memory.writeN m a bs) x = Memory.read m x := by
  induction bs generalizing m a with
  | nil => rfl
  | cons b bs ih =>
    simp only [List.length_cons] at hx
    rw [Memory.writeN, ih (Memory.wf_write h a b) (a + 1) (by omega), Memory.read_write h, if_neg (by omega)]

/-- Bytes written read back. -/
theorem Memory.read_writeN_at {m : List Host.Cell} (h : Memory.wf m) (a : Nat) (bs : List Byte) {k : Nat}
    (hk : k < bs.length) : Memory.read (Memory.writeN m a bs) (a + k) = bs[k] := by
  induction bs generalizing m a k with
  | nil => exact absurd hk (by simp)
  | cons b bs ih =>
    cases k with
    | zero => simp [Memory.writeN, Memory.read_writeN (Memory.wf_write h a b) (a + 1) bs (x := a) (by omega), Memory.read_write h]
    | succ k =>
      simp only [List.length_cons] at hk
      have := ih (Memory.wf_write h a b) (a + 1) (k := k) (by omega)
      rw [Memory.writeN, show a + (k + 1) = a + 1 + k by omega, this]
      rfl

theorem wf_writeWord {m : List Host.Cell} (h : Memory.wf m) (w : Nat) (c : BitVec 80) : Memory.wf (writeWord m w c) :=
  Memory.wf_writeN h ..

theorem wf_writeBurst {m : List Host.Cell} (h : Memory.wf m) (a : Nat) (ws : List (BitVec 80)) :
    Memory.wf (writeBurst m a ws) := by
  unfold writeBurst
  generalize ws.zipIdx = l
  induction l generalizing m with
  | nil => exact h
  | cons x l ih => exact ih (wf_writeWord h _ _)

namespace State

theorem wf_storeBurst {s : State} (h : Memory.wf s.raster.dram) (a : Nat) (ws : List (BitVec 80)) :
    Memory.wf (s.storeBurst a ws).raster.dram := by
  unfold storeBurst
  simp only
  repeat' split
  all_goals exact wf_writeBurst h _ _

theorem wf_storeData {s : State} (h : Memory.wf s.raster.dram) (a : Nat) (b : BitVec 512) (poison : Nat → Bool) :
    Memory.wf (s.storeData a b poison).raster.dram := wf_storeBurst h ..

end State

end Sys2Proof.Machine
end

