-- ==== Sys2Proof/Laws/Bytes.lean ====
section
/-! SUPPORT. Little-endian bytes and the numbers they stand for, fields of a packet's image, and bytes of the store that are
read where they were written. -/

namespace Sys2Proof

/-! ### Bytes and numbers -/

theorem leNat_append (a b : List Byte) : leNat (a ++ b) = leNat a + 256 ^ a.length * leNat b := by
  induction a with
  | nil => simp [leNat]
  | cons x a ih => simp [leNat, ih, pow_succ]; ring

theorem leNat_lt (a : List Byte) : leNat a < 256 ^ a.length := by
  induction a with
  | nil => simp [leNat]
  | cons x a ih =>
    simp only [leNat, List.length_cons, pow_succ]
    have := x.isLt
    omega

/-- The number of some bytes in the middle of a list, taken from the number of the whole. -/
theorem leNat_middle (pre b post : List Byte) :
    leNat (pre ++ b ++ post) / 256 ^ pre.length % 256 ^ b.length = leNat b := by
  have p : 0 < 256 ^ pre.length := Nat.pow_pos (by norm_num)
  rw [List.append_assoc, leNat_append, Nat.add_mul_div_left _ _ p, Nat.div_eq_of_lt (leNat_lt pre), Nat.zero_add,
    leNat_append, Nat.add_mul_mod_self_left, Nat.mod_eq_of_lt (leNat_lt b)]

theorem leNat_dwordBytes (d : Dword) : leNat (dwordBytes d) = d.toNat := by
  simp [dwordBytes, leNat, BitVec.extractLsb'_toNat, Nat.shiftRight_eq_div_pow]
  have := d.isLt
  omega

theorem leNat_leBytes (n v : Nat) : leNat (leBytes n v) = v % 256 ^ n := by
  induction n generalizing v with
  | zero => simp [leBytes, leNat, Nat.mod_one]
  | succ n ih =>
    simp only [leBytes, leNat, ih, BitVec.toNat_ofNat]
    rw [show 256 ^ (n + 1) = 256 * 256 ^ n by rw [Nat.pow_succ, Nat.mul_comm], Nat.mod_mul]

@[simp] theorem leBytes_length (n v : Nat) : (leBytes n v).length = n := by
  induction n generalizing v <;> simp [leBytes, *]

/-- A field of the image of a list of bytes is the number of the bytes in its place. -/
theorem extract_leNat (l pre b post : List Byte) (n w lo : Nat) (hl : l = pre ++ b ++ post) (hlo : lo = 8 * pre.length)
    (hw : w = 8 * b.length) (hn : lo + w ≤ n) :
    (BitVec.ofNat n (leNat l)).extractLsb' lo w = BitVec.ofNat w (leNat b) := by
  apply BitVec.eq_of_toNat_eq
  subst hl hlo hw
  have f := leNat_middle pre b post
  simp only [BitVec.extractLsb'_toNat, BitVec.toNat_ofNat, Nat.shiftRight_eq_div_pow]
  have e : (256 : Nat) = 2 ^ 8 := by norm_num
  have hb : leNat b < 2 ^ (8 * b.length) := by
    have := leNat_lt b
    rwa [e, ← pow_mul] at this
  rw [Nat.mod_eq_of_lt hb]
  rw [e, ← pow_mul, ← pow_mul] at f
  rw [← f]
  obtain ⟨k, rfl⟩ := Nat.exists_eq_add_of_le hn
  rw [show 8 * pre.length + 8 * b.length + k = 8 * pre.length + (8 * b.length + k) by ring, pow_add,
    Nat.mod_mul_right_div_self, pow_add, Nat.mod_mul_right_mod]

/-! ### Bytes of the store -/

namespace Machine

theorem Memory.readN_congr {m m' : List Host.Cell} {a n : Nat}
    (h : ∀ x, a ≤ x → x < a + n → Memory.read m x = Memory.read m' x) : Memory.readN m a n = Memory.readN m' a n := by
  induction n generalizing a with
  | zero => rfl
  | succ n ih =>
    simp only [Memory.readN]
    rw [h a (le_refl _) (by omega), ih fun x h1 h2 => h x (by omega) (by omega)]

theorem Memory.readN_writeN {m : List Host.Cell} (h : Memory.wf m) (a : Nat) (bs : List Byte) :
    Memory.readN (Memory.writeN m a bs) a bs.length = bs := by
  have from_ (n k : Nat) (hk : k + n = bs.length) : Memory.readN (Memory.writeN m a bs) (a + k) n = bs.drop k := by
    induction n generalizing k with
    | zero => simp [Memory.readN]; omega
    | succ n ih =>
      simp only [Memory.readN]
      rw [show a + k + 1 = a + (k + 1) by omega, ih (k + 1) (by omega), Memory.read_writeN_at h a bs (k := k) (by omega)]
      exact (List.drop_eq_getElem_cons (by omega)).symm
  simpa using from_ bs.length 0 (by omega)

/-! ### A packet that is fetched -/

namespace State

theorem fetched_queue (s : State) (op : Byte) (i : Issue) : (s.fetched op i).queue i.host i.queue =
    { s.queue i.host i.queue with
      sqHead := ((s.queue i.host i.queue).sqHead + 1) % (s.queue i.host i.queue).size } := by
  simp [fetched, queue, updHost]

/-- Fetching a packet touches the session alone. -/
theorem sessionOnly_fetched (s : State) (op : Byte) (i : Issue) : SessionOnly s (s.fetched op i) := by
  refine ⟨rfl, fun k => ?_, [], rfl⟩
  by_cases hk : i.host = k
  · subst hk
    simp [fetched, updHost]
  · simp [fetched, updHost, vmod_other _ _ _ _ hk]

end State

end Machine

end Sys2Proof
end

