-- ==== Sys2Proof/WellFormed.lean ====
section
/-! DEFINITION. Well-formed commands of a part: the port, link, channel, engine, domain and source that a command names are
the part's (R3, R4), and the readings that an event carries lie in the ranges that the manual gives them. -/

namespace Sys2Proof

namespace Instr

/-- The part has the port (R3). -/
def hasPort (p : Part) (h : HostId) : Bool := decide (h.val < p.ports)

/-- The part has the link (R3). -/
def hasLink (p : Part) (n : LinkId) : Bool := decide (n.val < p.links)

/-- The part has the channel (R3). -/
def hasChannel (p : Part) (c : ChanId) : Bool := decide (c.val < p.channels)

/-- The part has the compressor engine (R3). -/
def hasCompressor (p : Part) (n : Fin 8) : Bool := decide (n.val < p.compressors)

/-- The part has the power domain: MEMB and LINKH are absent from the ZR1618 (R4). -/
def hasDomain (p : Part) (d : DomainId) : Bool :=
  match p with
  | .zr3218 => true
  | .zr1618 => d != 4 && d != 7

/-- The source has a route on the part (R3, R4). -/
def hasSource (p : Part) (n : Fin 96) : Bool := !p.neverAsserts n.val

/-- The offset is that of a dword (R21). -/
def aligned (offset : Nat) : Bool := offset % 4 == 0

/-- A compressor's stream holds its bits (R109). -/
def streamOk (stream : List Byte) (bits : Nat) : Bool := decide (bits ≤ 8 * stream.length)

/-- A transfer has at most eight bursts (R311). -/
def stagingOk : Option Nat → Bool
  | none => true
  | some k => decide (k < 8)

/-- The eye of a temper step is at most one UI of 64 parts (R294). -/
def readingOk (r : TemperResult) : Bool := decide (r.sub0.eye ≤ 64) && decide (r.sub1.eye ≤ 64)

/-- A word that fails inside a frame is at one of its payload symbols: at most 1,024 dot words of 18 bits (R100, R250). -/
def slotReadOk : SlotRead → Bool
  | .good => true
  | .badBefore _ => true
  | .badDuring _ symbol => decide (symbol < 2304)

/-- A training fails on some of ten devices (R288). -/
def trainingOk : TrainResult → Bool
  | .pass _ => true
  | .fail _ mask => decide (mask.toNat < 2 ^ 10)

/-- The population that a signed image describes is one of R87. -/
def imageOk (i : ImageInfo) : Bool :=
  !i.signed || (decide (i.ranksA ≤ 4) && decide (i.ranksB ≤ 4) && (i.density == 16 || i.density == 32))

/-- What a start finds is in range, and a rank that failed to train is on a channel of the part (R289, R399). -/
def bootOk (p : Part) (b : BootInput) : Bool :=
  imageOk b.slotA && imageOk b.slotB && b.trainFails.all fun f => hasChannel p f.chan && trainingOk (.fail f.cause f.mask)

/-- A command is well formed on a part. -/
def wf (p : Part) : Instr → Bool
  | .nop c => hasPort p c.host
  | .identify c => hasPort p c.host
  | .getLog c => hasPort p c.host
  | .setFeature c => hasPort p c.host
  | .getFeature c => hasPort p c.host
  | .attach c => hasPort p c.host
  | .detach c => hasPort p c.host
  | .heartbeat c => hasPort p c.host
  | .claimSteward c => hasPort p c.host
  | .releaseSteward c => hasPort p c.host
  | .fenceHost c => hasPort p c.host
  | .allocAshlars c => hasPort p c.host
  | .freeAshlars c => hasPort p c.host
  | .writeRaw c => hasPort p c.host
  | .writeCompress c => hasPort p c.host
  | .read c => hasPort p c.host
  | .zero c => hasPort p c.host
  | .sealStrip c => hasPort p c.host
  | .getStripInfo c => hasPort p c.host
  | .defineRawStrip c => hasPort p c.host
  | .freeStrip c => hasPort p c.host
  | .loadCourse c => hasPort p c.host
  | .keystone c => hasPort p c.host
  | .pageQueue c => hasPort p c.host
  | .pageCancel c => hasPort p c.host
  | .setLookahead c => hasPort p c.host
  | .run c => hasPort p c.host
  | .haltDrain c => hasPort p c.host
  | .linkConfig c => hasPort p c.host
  | .linkTrain c => hasPort p c.host
  | .webConfig c => hasPort p c.host
  | .firePhase c => hasPort p c.host
  | .waveBank c => hasPort p c.host
  | .linkMsg c => hasPort p c.host
  | .rankRetire c => hasPort p c.host
  | .rankReinstate c => hasPort p c.host
  | .scrubConfig c => hasPort p c.host
  | .migrateStatus c => hasPort p c.host
  | .retrain c => hasPort p c.host
  | .powerPolicy c => hasPort p c.host
  | .rawWrite c => hasPort p c.host
  | .rawRead c => hasPort p c.host
  | .eccInject c => hasPort p c.host
  | .quenchDump c => hasPort p c.host
  | .quenchRelease c => hasPort p c.host
  | .selfTest c => hasPort p c.host
  | .fwStage c => hasPort p c.host
  | .fwCommit c => hasPort p c.host
  | .resetDevice c => hasPort p c.host
  | .packetFetch h _ _ => hasPort p h
  | .sqTail h _ _ => hasPort p h
  | .cqHead h _ _ => hasPort p h
  | .queueEnable h _ _ => hasPort p h
  | .queueDisable h _ _ => hasPort p h
  | .fenceAck h _ => hasPort p h
  | .heartbeatRegisterWrite h _ => hasPort p h
  | .keystoneRegisterWrite h _ => hasPort p h
  | .apply h _ => hasPort p h
  | .mailboxRing h _ => hasPort p h
  | .eventRouteWrite h source _ => hasPort p h && hasSource p source
  | .eventMaskWrite h _ _ => hasPort p h
  | .clear h _ => hasPort p h
  | .goMem h _ => hasPort p h
  | .goCore h _ => hasPort p h
  | .registerPairRead h offset _ => hasPort p h && aligned offset.toNat
  | .registerWrite h offset wide value => hasPort p h && aligned offset.toNat && (wide || decide (value.toNat < 2 ^ 32))
  | .barAccess h _ offset size => hasPort p h && !(aligned offset.toNat && (size == 4 || size == 8))
  | .unsupportedRequest h _ _ => hasPort p h
  | .portReset h _ => hasPort p h
  | .portLinkUp h => hasPort p h
  | .hostDataBad h _ => hasPort p h
  | .completionTimeout h _ => hasPort p h
  | .hbTimeout h => hasPort p h
  | .heartbeatExpiry h => hasPort p h
  | .transferComplete c staging => hasChannel p c && stagingOk staging
  | .fillComplete _ => true
  | .compressorDispatch n stream bits => hasCompressor p n && streamOk stream bits
  | .writeCompressDone n => hasCompressor p n
  | .compressorFault n cause _ => hasCompressor p n && cause != 0
  | .courseBoundary _ => true
  | .fetchEntry c _ => hasChannel p c
  | .refsb c _ => hasChannel p c
  | .mitig c _ => hasChannel p c
  | .zqcal c _ => hasChannel p c
  | .temperPause c _ r => hasChannel p c && readingOk r
  | .stallLimit c _ => hasChannel p c
  | .refreshCreditTimer c _ _ _ => hasChannel p c
  | .forcedRefresh c _ _ _ => hasChannel p c
  | .forcedRfm c _ _ _ => hasChannel p c
  | .rowClose c _ _ _ _ => hasChannel p c
  | .powerDownEntry c _ => hasChannel p c
  | .selfRefreshEntry => true
  | .selfRefreshExit => true
  | .writeCrcAlert c _ _ => hasChannel p c
  | .stormRetrainDone c _ => hasChannel p c
  | .arbiterDecision c => hasChannel p c
  | .preemption c _ => hasChannel p c
  | .tokenRefill => true
  | .scrubPassStart c => hasChannel p c
  | .scrubTransfer c => hasChannel p c
  | .scrubPassComplete c => hasChannel p c
  | .healthIntervalEnd c _ _ => hasChannel p c
  | .migrationTransfer c => hasChannel p c
  | .migrationCutover c => hasChannel p c
  | .decodeLineComplete n _ => hasLink p n
  | .loopUpdate => true
  | .encoderCount _ _ => true
  | .webLockChange => true
  | .encoderLost _ => true
  | .encoderRebase => true
  | .coastLimit => true
  | .indexSlip => true
  | .markSeen _ _ => true
  | .pageBoundary _ => true
  | .fireMarker n => hasLink p n
  | .fireInstant n => hasLink p n
  | .lineFrame n ue => hasLink p n && slotReadOk ue
  | .noData n => hasLink p n
  | .echoTracking n => hasLink p n
  | .echoReply n _ _ => hasLink p n
  | .statusFrame n _ => hasLink p n
  | .messageFrame n f => hasLink p n && decide (1 ≤ f.payload.length) && decide (f.payload.length ≤ 240)
  | .ackFrame n _ => hasLink p n
  | .identFrame n _ => hasLink p n
  | .testFrame n _ => hasLink p n
  | .trainingStepTimeout n => hasLink p n
  | .messageGapTimeout n => hasLink p n
  | .ackTimeout n => hasLink p n
  | .lossOfSignal n _ => hasLink p n
  | .codeErrors n _ => hasLink p n
  | .statusTimeout n => hasLink p n
  | .refLost _ => true
  | .refPresent _ => true
  | .lockWindow _ _ _ => true
  | .coastTrust _ => true
  | .monitorCalibration => true
  | .freqChangeTimeout _ => true
  | .loopLockTimeout _ => true
  | .domainSwitch d => hasDomain p d
  | .powerOnReset _ _ => true
  | .sysRstN _ => true
  | .trstN => true
  | .deviceReset => true
  | .bootStart b => bootOk p b
  | .bootWatchdog => true
  | .trap => true
  | .failCountClear => true
  | .supplyWarning _ => true
  | .supplyStop _ _ => true
  | .supplyRecovered _ => true
  | .dieWarning _ => true
  | .thermalStop _ => true
  | .holdoffExpiry h _ => hasPort p h
  | .pulseEnd _ => true
  | .arm _ => true
  | .mgmtReset => true
  | .mgmtForceBanked => true
  | .mgmtClearForce => true
  | .mgmtHostOn => true
  | .mgmtHostOff => true
  | .mgmtShutdown => true
  | .commaAlignment n _ => hasLink p n
  | .measureEcho n => hasLink p n
  | .invalidReturnFrame n => hasLink p n
  | .rankTrainingDone c _ result => hasChannel p c && trainingOk result
  | .selfRefreshEntered c => hasChannel p c
  | .dieWarningRearm _ => true
  | .indexFailsafe => true
  | .hostReadCompletion h _ _ => hasPort p h

end Instr

end Sys2Proof
end

