-- ==== Sys2Proof/Tests/Slice0.lean ====
section
/-! SUPPORT. Tests of single steps on a small state, and for each statement with hypotheses a state and operands that meet
them. Expected values are worked out by hand from the rules that the comments cite. -/

namespace Sys2Proof.Tests

open Sys2Proof.Machine

set_option maxRecDepth 100000

/-! ### Well-formed commands: for each check, a command that it refuses -/

theorem test_wf_port : Instr.wf .zr1618 (.nop { host := 2 }) = false ∧ Instr.wf .zr3218 (.nop { host := 2 }) = true := by decide
theorem test_wf_link : Instr.wf .zr1618 (.fireMarker 16) = false ∧ Instr.wf .zr3218 (.fireMarker 16) = true := by decide
theorem test_wf_channel : Instr.wf .zr1618 (.scrubTransfer 1) = false ∧ Instr.wf .zr3218 (.scrubTransfer 1) = true := by decide
theorem test_wf_compressor : Instr.wf .zr1618 (.compressorDispatch 4 [] 0) = false ∧ Instr.wf .zr3218 (.compressorDispatch 4 [] 0) = true := by
  decide
theorem test_wf_cause : Instr.wf .zr3218 (.compressorFault 0 0 0) = false := by decide
theorem test_wf_domain : Instr.wf .zr1618 (.domainSwitch 4) = false ∧ Instr.wf .zr3218 (.domainSwitch 4) = true := by decide
theorem test_wf_source : Instr.wf .zr1618 (.eventRouteWrite 0 57 0) = false ∧
    Instr.wf .zr3218 (.eventRouteWrite 0 57 0) = true := by decide
theorem test_wf_offset : Instr.wf .zr3218 (.registerWrite 0 0x102 false 0) = false := by decide
theorem test_wf_width : Instr.wf .zr3218 (.registerWrite 0 0x104 false 0x100000000) = false := by decide
theorem test_wf_stream : Instr.wf .zr3218 (.compressorDispatch 0 [0] 9) = false ∧
    Instr.wf .zr3218 (.compressorDispatch 0 [0] 8) = true := by decide
theorem test_wf_staging : Instr.wf .zr3218 (.transferComplete 0 (some 8)) = false ∧
    Instr.wf .zr3218 (.transferComplete 0 (some 7)) = true := by decide
theorem test_wf_reading : Instr.wf .zr3218 (.temperPause 0 0 { sub0 := { eye := 65 } }) = false := by decide
theorem test_wf_slot_read : Instr.wf .zr3218 (.lineFrame 0 (.badDuring 0 2304)) = false := by decide
theorem test_wf_training : Instr.wf .zr3218 (.rankTrainingDone 0 0 (.fail .noResponse 0x400)) = false := by decide
theorem test_wf_boot : Instr.wf .zr3218 (.bootStart { slotA := { signed := true, ranksA := 5 } }) = false := by decide
theorem test_wf_access : Instr.wf .zr3218 (.barAccess 0 false 0x104 4) = false ∧
    Instr.wf .zr3218 (.barAccess 0 false 0x102 4) = true := by decide

/-! ### A small state in service -/

/-- A strip of one raw line in ashlar 0. -/
def rawStrip : Strip := { idx := 0, gen := 1, raw := true, lines := 1, words := 1, sealed := true, stride := 64 }

/-- A compressed strip without lines. -/
def openStrip : Strip := { idx := 1, gen := 1, words := 1 }

/-- A channel in service with two ranks, in slot 93 of a course of 600 slots that are all window slots. -/
def chan : Chan :=
  { st := .service, mts := 4800, from_ := 999900000
    banks := #v[{ entries := [entryWord 5 0 600 0 0 0 0 0 false], slots := 600 }, {}]
    ranks := #v[{ st := .inService, raaimt := 32, raammt := 96 }, { st := .spare, powerDown := true }, {}, {}] }

/-- A host with one command in a queue of four. -/
def host : HostRec :=
  { st := .attached, lastHb := 900000000
    queues := #v[{ enable := true, size := 4, sqTail := 1 }, { vector := 1 }, { vector := 2 }, { vector := 3 }] }

/-- A device that runs: hosts 0 and 1 attached, host 0 steward and owner of partition 0, which holds ashlars 0 and 1, of which
ashlar 0 is written. -/
def up : State :=
  let r := State.reset
  { r with
    time := 1000000000
    hosts := #v[host, host, { host with st := .linked }, { host with st := .linked }], role := { holder := some 0 }
    parts := vset r.parts 0 { owner := some 0 }
    ks := { r.ks with force := { r.ks.force with link := vset r.ks.force.link 0 { enable := true } } }
    raster := { alloc := [(0, 0), (1, 0)], written := [0]
                phys := #v[#v[some 0, none, none, none], #v[some 0, none, none, none]] }
    strips := [rawStrip, openStrip], seq := { begun := 999900000 }
    links := vset r.links 0 { st := .up, rate := 0, board := { buffers := 2, maxWords := 1024 } }
    chans := #v[chan, chan]
    quench := { dumps := [{ index := 0, scope := 0, cause := 1, mask := 1, header := 0, serial := 0 }] }
    clk := { refOk := true, loops := #v[{ st := .locked }, { st := .locked }, { st := .locked }] }
    boot := { stage := 7, runningFrom := some 0 }
    power := { on := 0xFF } }

/-- A packet of partition 0 with its parameter dwords. -/
def pkt (p0 p1 p2 p3 p4 p5 : Dword) : Issue := { tag := 0x1234, p := ⟨p0, p1, p2, p3, p4, p5, 0, 0, 0, 0, 0, 0⟩ }

/-! ### Packets that run: the hypotheses of the statements about commands -/

/-- A packet for another host or with other flags. -/
def by_ (h : HostId) (i : Issue) : Issue := { i with host := h }

theorem test_step_front : ({ up with pending := [.trap] } : State).pending = .trap :: [] := by decide
theorem test_tick_idle : up.pending = [] ∧ up.reads = [] ∧ up.coreRuns = true ∧ up.nextStart.isNone = true ∧
    up.nextResume.isNone = true := by decide
theorem test_tick_reads : ({ up with reads := [(0, 0x104, false)] } : State).reads ≠ [] := by decide

/-- The state with a command in flight that waits to start. -/
def waits (p : Prog) (op : Byte) (i : Issue) : State := { up with cmds := [{ id := 0, op := op, iss := i, prog := p }], nextId := 1 }

theorem test_tick_start : (waits .waiting 0x00 (pkt 0 0 0 0 0 0)).nextStart.isSome = true := by decide
theorem test_tick_resume : (waits .held 0x14 (pkt 0 0 0 0 64 0)).nextStart.isNone = true ∧
    (waits .held 0x14 (pkt 0 0 0 0 64 0)).nextResume.isSome = true := by decide
theorem test_reset_sound : Memory.wf State.reset.raster.dram := by decide
theorem test_fresh : ∀ c ∈ (waits .held 0x14 (pkt 0 0 0 0 64 0)).cmds, c.id < 1 := by decide
theorem test_word_wf : Memory.wf (writeWord [] 3 0x123) := by decide
theorem test_unserved : State.reset.canFetch 0 0 = false := by decide
theorem test_crc_bad : up.canFetch 0 0 = true ∧ ({ pkt 0 0 0 0 0 0 with flags := 4 } : Issue).crcPresent = true ∧
    crc32c (packetBytes 0x00 { pkt 0 0 0 0 0 0 with flags := 4 }) ≠ 0 := by decide

/-- A host that requires CRCs. -/
def strict : State := up.updHost 0 fun r => { r with requireCrc := true }

theorem test_crc_required : strict.canFetch 0 0 = true ∧ (pkt 0 0 0 0 0 0).crcPresent = false ∧
    strict.hosts[(0 : Fin 4)].requireCrc = true := by decide
theorem test_check_fails : up.canFetch 0 0 = true ∧ (crcError up 0x03 (pkt 9 0 0 0 0 0)).isNone = true ∧
    (up.taken 0x03 (pkt 9 0 0 0 0 0)).orderReady (up.mkCmd 0x03 (pkt 9 0 0 0 0 0)) = true ∧
    (up.taken 0x03 (pkt 9 0 0 0 0 0)).checkCmd (up.mkCmd 0x03 (pkt 9 0 0 0 0 0)) =
      some { status := .invalidField, detail := 0x8008 } := by decide

/-- A device in banked mode. -/
def banked : State := up.updBoot fun b => { b with stage := 15 }

theorem test_check_order : opInfo 0xFF = none ∧ banked.banked = true ∧ (opInfo 0x00).map (·.banked) = some false ∧
    (opInfo 0x72).map (·.banked) = some true := by decide
theorem test_check_banked : banked.checkCmd (banked.mkCmd 0x00 (pkt 0 0 0 0 0 0)) = some { status := .banked } := by decide
theorem test_check_linked : up.checkCmd (up.mkCmd 0x07 (by_ 2 (pkt 0 0 0 0 0 0))) = some { status := .notAttached } := by decide
theorem test_check_steward : up.checkCmd (up.mkCmd 0x25 (by_ 1 (pkt 0 0 0 0 0 0))) = some { status := .notSteward } := by decide
theorem test_check_right : up.checkCmd (up.mkCmd 0x10 (by_ 1 (pkt 1 1 0 0 0 0))) = some { status := .partitionViolation } := by
  decide

/-- A host that recovers from its fence. -/
def recovering : State := up.updHost 1 fun r => { r with st := .recovering }

theorem test_check_recovering : recovering.checkCmd (recovering.mkCmd 0x07 (by_ 1 (pkt 0 0 0 0 0 0))) = some { status := .fenced } := by
  decide

/-- HOST without FORGE: raster memory is not powered. -/
def dim : State := up.updPower fun p => { p with on := 0xDF }

theorem test_check_power : dim.checkCmd (dim.mkCmd 0x14 (pkt 0 0 0 0 64 0)) =
    some { status := .resourceConflict, detail := 0x10 } := by decide
theorem test_finish : (waits .held 0x14 (pkt 0 0 0 0 64 0)).findCmd 0 =
    some { id := 0, op := 0x14, iss := pkt 0 0 0 0 64 0, prog := .held } := by decide
theorem test_queue_wraps : ({ size := 4, cqTail := 3 } : Queue).advance = { size := 4, cqTail := 0, phase := false } := by decide

theorem test_runs_session : up.runs 0x00 (pkt 0 0 0 0 0 0) = true ∧ up.runs 0x01 (pkt 0 0x1000 0 0 0 0) = true ∧
    up.runs 0x02 (pkt 0 0 0x1000 0 64 0) = true ∧ up.runs 0x02 (pkt 0x100 0 0x1000 0 64 0) = true ∧
    up.runs 0x03 (pkt 7 1 0 0 0 0) = true ∧ up.runs 0x04 (pkt 4 0 0 0 0 0) = true ∧
    up.runs 0x06 (pkt 0 0 0 0 0 0) = true ∧ up.runs 0x07 (pkt 0 0 0 0 0 0) = true ∧ up.runs 0x09 (pkt 0 0 0 0 0 0) = true := by
  decide
theorem test_strip_info : up.runs 0x17 (pkt 0x2000 0 0 0 0 0) = true ∧
    up.findStrip ((up.issued 0x17 (pkt 0x2000 0 0 0 0 0)).p 0) = some rawStrip := by decide
theorem test_migrate_status : up.runs 0x43 (pkt 0 0 0 0 0 0) = true ∧ up.runs 0x43 (pkt 1 0 0 0 0 0) = true := by decide
theorem test_dump : up.runs 0x53 (pkt 0 0 0 0 64 0) = true ∧ (up.quench.dumps.find? fun d => d.index = 0).isSome = true := by
  decide

/-- Partition 1 owned by host 1, who is late. -/
def owned (st : HostState) : State :=
  { up with parts := vset up.parts 1 { owner := some 1 } }.updHost 1 fun r => { r with st := st, lastHb := 0 }

theorem test_feature_owner_live : (owned .attached).runs 0x03 (pkt 0x10002 0 0 0 0 0) = true ∧
    (owned .attached).parts[(1 : Fin 16)].owner = some 1 ∧ (owned .attached).attached 1 = true ∧
    (owned .attached).isSteward 1 = false := by decide
theorem test_feature_owner : up.runs 0x03 (pkt 0x10002 0xFF 0 0 0 0) = true ∧ up.parts[(1 : Fin 16)].owner = none := by decide
theorem test_feature_deadline : up.runs 0x03 (pkt 4 200 0 0 0 0) = true ∧
    up.time - up.hosts[(0 : Fin 4)].lastHb < 200 * Config.msTau := by decide
theorem test_attach_again : up.runs 0x05 (pkt 0 0 0 0 0 0) = true ∧ up.attached 0 = true := by decide
theorem test_attach_free : up.runs 0x05 (by_ 2 (pkt 0 0 0 0 0 0)) = true ∧ up.attached 2 = false ∧
    (up.choosePartition 2).isSome = true := by decide

/-- Every partition owned by a host that is attached. -/
def full : State := { up with parts := Vector.replicate 16 { owner := some 0 } }

theorem test_attach_none : full.runs 0x05 (by_ 2 (pkt 0 0 0 0 0 0)) = true ∧ full.attached 2 = false ∧
    full.choosePartition 2 = none := by decide
theorem test_claim_again : up.runs 0x08 (pkt 0 0 0 0 0 0) = true ∧ up.isSteward 0 = true := by decide

/-- A role with its holder and those who may hold it. -/
def held_ (h : Option HostId) (e : BitVec 4) (st : HostState) : State :=
  ({ up with role := { holder := h, eligible := e } } : State).updHost 0 fun r => { r with st := st }

theorem test_claim_ineligible : (held_ none 1 .attached).runs 0x08 (by_ 1 (pkt 0 0 0 0 0 0)) = true ∧
    (held_ none 1 .attached).role.eligible.getLsbD 1 = false := by decide
theorem test_claim_vacant : (held_ none 0xF .attached).runs 0x08 (by_ 1 (pkt 0 0 0 0 0 0)) = true ∧
    ∀ c : ChanId, (held_ none 0xF .attached).chans[c].mig.due = none := by decide
theorem test_claim_held : up.runs 0x08 (by_ 1 (pkt 0 0 0 0 0 0)) = true ∧ up.runs 0x08 (by_ 1 (pkt 1 0 0 0 0 0)) = true ∧
    up.isSteward 1 = false ∧ up.role.eligible.getLsbD 1 = true ∧ up.hosts[(0 : Fin 4)].st ≠ .late := by decide
theorem test_claim_late : (held_ (some 0) 0xF .late).runs 0x08 (by_ 1 (pkt 1 0 0 0 0 0)) = true ∧
    (held_ (some 0) 0xF .late).hosts[(0 : Fin 4)].st = .late := by decide
theorem test_fence_self : up.runs 0x0A (pkt 0 0 0 0 0 0) = true := by decide
theorem test_fence_other : up.runs 0x0A (pkt 1 0 0 0 0 0) = true ∧ up.attached 1 = true := by decide
theorem test_fence_absent : up.runs 0x0A (pkt 2 0 0 0 0 0) = true ∧ up.attached 2 = false := by decide

theorem test_alloc_run : up.runs 0x10 (pkt 1 1 0 0 0 0) = true ∧ (up.findRun 1).isSome = true := by decide
theorem test_alloc_write : up.runs 0x10 (pkt 1 0 0 0 0 0) = true := by decide

/-- A part whose raster memory has no rank. -/
def bare : State := up.updRaster fun r => { r with phys := Vector.replicate 2 (Vector.replicate 4 none) }

theorem test_alloc_none : bare.runs 0x10 (pkt 1 1 0 0 0 0) = true ∧ bare.findRun 1 = none ∧
    bare.runs 0x10 (pkt 1 0 0 0 0 0) = true ∧ (bare.findScattered 1).length < 1 := by decide
theorem test_free : up.runs 0x11 (pkt 1 1 0 0 0 0) = true := by decide
theorem test_write : up.runs 0x12 (pkt 0 0 0x10000 0 64 0) = true ∧ up.runs 0x50 (pkt 0 0 0 0 8 0) = true := by decide
theorem test_read : up.runs 0x14 (pkt 0 0 0 0 64 0) = true ∧ up.runs 0x51 (pkt 0 0 0 0 8 0) = true := by decide
theorem test_zero : up.runs 0x15 (pkt 0 0 0 0 65536 0) = true := by decide
theorem test_inject : up.runs 0x52 (pkt 0 0 1 0 0 1) = true ∧ up.runs 0x52 (pkt 0 0 1 0 0 0) = true ∧
    up.raster.isWritten (up.raster.ashlar 0) = true := by decide

/-- A WRITE_COMPRESS of one line of one word from 4 bytes. -/
def squeeze (h : Dword) : Issue := pkt 0 0 1 1 50 h

theorem test_compress : up.runs 0x13 (squeeze 0) = true ∧ up.compressCheck (up.issued 0x13 (squeeze 0)) = none := by decide
theorem test_compress_raw : up.runs 0x13 (squeeze 0x2000) = true ∧
    (up.begun 0x13 (squeeze 0x2000)).stripBehind (up.issued 0x13 (squeeze 0x2000)) = false ∧
    (up.compressCheck (up.issued 0x13 (squeeze 0x2000))).isSome = true := by decide
theorem test_seal : up.runs 0x16 (pkt 0x2001 0 0 0 0 0) = true ∧
    up.findStrip ((up.issued 0x16 (pkt 0x2001 0 0 0 0 0)).p 0) = some openStrip ∧ openStrip.sealed = false ∧
    up.runs 0x16 (pkt 0x2000 0 0 0 0 0) = true ∧ rawStrip.sealed = true := by decide
theorem test_raw_strip : up.runs 0x18 (pkt 64 0 1 1 64 0) = true := by decide
theorem test_free_strip : up.runs 0x19 (pkt 0x2000 0 0 0 0 0) = true ∧ up.stripInUse rawStrip.handle = false := by decide

/-- A page that names the raw strip on link 0 runs. -/
def page : Page :=
  { id := 7, length := 4, st := .filling
    links := vset (Vector.replicate 32 {}) 0 { strip := 0x2000, lines := 1 } }

/-- The drain runs that page. -/
def paging : State := up.updSeq fun q => { q with drain := .running, pages := [page, { page with id := 8, st := .queued }] }

theorem test_free_strip_used : paging.runs 0x19 (pkt 0x2000 0 0 0 0 0) = true ∧ paging.stripInUse rawStrip.handle = true := by
  decide
theorem test_sources : up.runs 0x20 (pkt 0x100 0 0 1 1 256) = true ∧ up.bankActive 0 1 = false ∧
    up.runs 0x20 (pkt 0 0 0 1 1 256) = true ∧ up.bankActive 0 0 = true ∧ up.runs 0x22 (pkt 0 0 1 0 0 0) = true ∧
    up.runs 0x70 (pkt 0 0 0 4096 0 0) = true := by decide
theorem test_message_sends : up.runs 0x35 (pkt 0 0 0 4 0 0) = true ∧ up.links[(0 : Fin 32)].st = .up ∧
    up.runs 0x35 (pkt 1 0 0 4 0 0) = true ∧ up.links[(1 : Fin 32)].st = .disabled := by decide

theorem test_settings : up.runs 0x24 (pkt 8 0 0 0 0 0) = true ∧ up.runs 0x30 (pkt 0x100 0 0x10000 0 0 0) = true ∧
    up.runs 0x32 (pkt 1 1 10 0 0 0) = true ∧ up.runs 0x34 (pkt 0x100 0 0 0 0 0) = true := by decide
theorem test_keystone : up.runs 0x21 (pkt 0 0 0 0 0 0) = true ∧ up.runs 0x21 (pkt 1 0 0 0 0 0) = true ∧ up.keyRefusal = none ∧
    up.coursesRun = true := by decide

/-- Shadows that ask for more of the pool than there is. -/
def greedy : State := { up with ks := { up.ks with shadow := { up.ks.shadow with pool := 0x0000040C } } }

theorem test_keystone_refused : greedy.runs 0x21 (pkt 0 0 0 0 0 0) = true ∧ greedy.runs 0x21 (pkt 1 0 0 0 0 0) = true ∧
    greedy.keyRefusal.isSome = true := by decide

/-- Channels that rest: no course runs. -/
def resting : State := { up with chans := #v[{ chan with st := .selfRefresh }, { chan with st := .selfRefresh }] }

theorem test_keystone_idle : resting.runs 0x21 (pkt 0 0 0 0 0 0) = true ∧ resting.keyRefusal = none ∧ resting.coursesRun = false ∧
    resting.ks.accepted = none := by decide
theorem test_cancel : paging.runs 0x23 (pkt 0x10000 0 0 0 0 0) = true ∧ paging.runs 0x23 (pkt 7 0 0 0 0 0) = true ∧
    (paging.findPage 7).map Page.active = some true ∧ (paging.findPage 8).map Page.active = some false ∧
    paging.runs 0x23 (pkt 8 0 0 0 0 0) = true ∧ paging.findPage 9 = none ∧ paging.runs 0x23 (pkt 9 0 0 0 0 0) = true := by decide
theorem test_run : up.runs 0x25 (pkt 0 0 0 0 0 0) = true ∧ up.drainHalted = true ∧ paging.runs 0x25 (pkt 0 0 0 0 0 0) = true ∧
    paging.drainHalted = false := by decide

/-- A drain that halts. -/
def halting (m : Fin 3) : State := paging.updSeq fun q => { q with drain := .halting, haltMode := m, haltAt := some (0, 1) }

theorem test_halt : paging.runs 0x26 (pkt 0 0 0 0 0 0) = true ∧ paging.runs 0x26 (pkt 1 0 0 0 0 0) = true ∧
    paging.runs 0x26 (pkt 2 0 0 0 0 0) = true ∧ up.runs 0x26 (pkt 0 0 0 0 0 0) = true := by decide
theorem test_halt_again : (halting 0).runs 0x26 (pkt 0 0 0 0 0 0) = true ∧ (halting 1).runs 0x26 (pkt 1 0 0 0 0 0) = true ∧
    (halting 0).runs 0x26 (pkt 1 0 0 0 0 0) = true := by decide
theorem test_fire_phase : paging.runs 0x33 (pkt 0x100 1 0 0 0 0) = true ∧ paging.runs 0x33 (pkt 0 1 0 0 0 0) = true := by decide
theorem test_train : up.runs 0x31 (pkt 1 0 0 0 0 0) = true ∧ up.hasLines 0 = false ∧
    (∀ n : LinkId, up.links[n].trainCmd = none) := by decide
theorem test_train_busy : paging.runs 0x31 (pkt 1 0 0 0 0 0) = true ∧ paging.links[(0 : Fin 32)].st = .up ∧
    paging.hasLines 0 = true := by decide
theorem test_message_receives : up.runs 0x35 (pkt 0x200 0 0 0 0 0) = true ∧ up.links[(0 : Fin 32)].inbox = [] ∧
    (up.updLink 0 fun l => { l with inbox := [[1]] }).runs 0x35 (pkt 0x200 0 0 0 0 0) = true := by decide

/-- Channel 0 with ranks 0 and 1 in other states, and a migration. -/
def ranks (a b : RankState) (m : Mig) : State := up.updChan 0 fun ch =>
  { ch with ranks := #v[{ st := a }, { st := b }, {}, {}], mig := m }

theorem test_retire : up.runs 0x40 (pkt 0 0 0 0 0 0) = true ∧ up.migrating 0 = false ∧ up.freeSpare 0 = some 1 ∧
    up.runs 0x40 (pkt 0x100 0 0 0 0 0) = true ∧ up.chans[(0 : Fin 2)].ranks[(1 : Fin 4)].st = .spare := by decide
theorem test_retire_again : (ranks .inService .spare { st := .stopped, target := 1 }).runs 0x40 (pkt 0 0 0 0 0 0) = true := by decide
theorem test_retire_busy : (ranks .inService .degraded { st := .copying }).runs 0x40 (pkt 0x100 0 0 0 0 0) = true ∧
    (ranks .inService .degraded { st := .copying }).migrating 0 = true := by decide
theorem test_retire_no_spare : (ranks .inService .notFitted {}).runs 0x40 (pkt 0 0 0 0 0 0) = true ∧
    (ranks .inService .notFitted {}).freeSpare 0 = none := by decide
theorem test_reinstate : (ranks .inService .retired {}).runs 0x41 (pkt 0x100 0 0 0 0 0) = true ∧
    (ranks .inService .retired {}).migrating 0 = false ∧ (ranks .inService .retired {}).freeSpare 0 = none := by decide
theorem test_reinstate_busy : (ranks .inService .retired { st := .stopped }).runs 0x41 (pkt 0x100 0 0 0 0 0) = true ∧
    (ranks .inService .retired { st := .stopped }).migrating 0 = true := by decide
theorem test_reinstate_spare : (ranks .spare .retired {}).runs 0x41 (pkt 0x100 0 0 0 0 0) = true ∧
    ((ranks .spare .retired {}).freeSpare 0).isSome = true ∧ up.runs 0x41 (pkt 0 0 0 0 0 0) = true := by decide
theorem test_scrub_retrain : up.runs 0x42 (pkt 1 1 0 0 0 0) = true ∧ up.runs 0x44 (pkt 1 0 0 0 0 0) = true ∧
    up.runs 0x44 (pkt 0 0 0 0 0 0) = true ∧ up.runs 0x44 (pkt 0x101 0 0 0 0 0) = true ∧
    paging.runs 0x44 (pkt 0x101 0 0 0 0 0) = true := by decide
theorem test_power : up.runs 0x45 (pkt 0xFF 0 1 0 0 0) = true ∧ up.runs 0x45 (pkt 0x7F 0 1 0 0 0) = true ∧
    (up.begun 0x45 (pkt 0x7F 0 1 0 0 0)).mayLeave 7 = true ∧ paging.runs 0x45 (pkt 0xBF 0 1 0 0 0) = true ∧
    (paging.begun 0x45 (pkt 0xBF 0 1 0 0 0)).mayLeave 6 = false := by decide

/-- A quench of channel A, or of the device. -/
def quenched (d : Bool) : State := { up with quench := { up.quench with device := d, chans := #v[true, d] } }

theorem test_release : (quenched false).runs 0x54 (pkt 0 0 0 0 0 0) = true ∧ (quenched true).runs 0x54 (pkt 0 0 0 0 0 0) = true ∧
    (quenched true).runs 0x54 (pkt 2 0 0 0 0 0) = true ∧ up.runs 0x54 (pkt 2 0 0 0 0 0) = true := by decide
theorem test_self_test : up.runs 0x55 (pkt 0x2000 0 0 0 0 0) = true ∧ up.runs 0x55 (pkt 0 0 0 0 0 0) = true ∧
    up.engines[(0 : Fin 34)].st = .serving ∧ up.engines[(32 : Fin 34)].st ≠ .serving ∧ up.runs 0x55 (pkt 1 0 0 0 0 0) = true ∧
    up.comps[(0 : Fin 8)].job = none ∧ up.runs 0x55 (pkt 2 0 0 0 0 0) = true ∧ (List.finRange 4).any up.stagingBusy = false := by decide

/-- Engine 0 holds a command. -/
def working : State :=
  { waits .compress 0x13 (squeeze 0) with comps := vset up.comps 0 { job := some 0 } }

theorem test_self_test_held : working.runs 0x55 (pkt 1 0 0 0 0 0) = true ∧ working.comps[(0 : Fin 8)].job.isSome = true ∧
    working.runs 0x55 (pkt 2 0 0 0 0 0) = true := by decide
theorem test_commit : up.runs 0x71 (pkt 0 0 0 0 0 0) = true ∧ up.staged = false ∧
    (up.updBoot fun b => { b with staged := List.replicate 4096 (some 0), stagedAll := true }).runs 0x71 (pkt 0 0 0 0 0 0) = true ∧
    up.runs 0x72 (pkt 1 0 0 0 0 0) = true := by decide
/-! ### Worked examples of the manual -/

/-- The translation of ashlar 0x0010_0123, offset 0x2A40, and of offset 0x2AC0 in it (R82 to R94). -/
theorem test_location : ({} : Raster).ashlarBase 0x100123 + 0x2A40 = 0x048B2A40 ∧ ({} : Raster).ashlar 0x048B2A40 = 0x100123 ∧
    ({} : Raster).loc 0x048B2A40 = { chan := 1, sub := 1, logical := 1, group := 0, bank := 1, row := 36, col := 672 } ∧
    (({} : Raster).loc 0x048B2AC0).chan = 0 := by decide

/-- The LAT of link L5 (R244): half of 15,488 less 10,368, and 25,700. -/
theorem test_lat : latOf { turnaround := 10368, fireLatency := 25700 } [15488] = 28260 := by simp [latOf, median2, ascend]

/-- Link L9 with its LAT of 27,900, at 6.25 Gbaud. -/
def l9 : State := up.updLink 9 fun l => { l with rate := 2, lat := 27900 }

/-- The marker of an instant of 8,183,964 tau leaves at 8,155,904 with FINE 160 (R235, R272). -/
theorem test_marker_placed : l9.placeMarker 9 8183964 = (8155904, 160) := by decide

/-- A queue of four across its wrap: the completions of the worked example (R53). -/
theorem test_wrap_example : (Queue.advance { size := 4, cqTail := 2 }).cqTail = 3 ∧
    Queue.advance { size := 4, cqTail := 3, phase := true } = { size := 4, cqTail := 0, phase := false } := by decide

/-- The course of 4.000 us at 4,800, 5,600 and 6,400 MT/s has 600, 700 and 800 slots (R162). -/
theorem test_builtin_slots : builtinSlots 4800 = 600 ∧ builtinSlots 5600 = 700 ∧ builtinSlots 6400 = 800 := by decide

/-! ### Single steps -/

/-- The next state of an outcome, or the state given. -/
def after (s : State) (x : Instr) : State :=
  match exec x s with
  | .next t => t
  | _ => s

theorem test_nop_completes : (after up (.nop (pkt 0 0 0 0 0 0))).out =
    [.completion 0 0 0 (completionEntry 0x1234 {} true 0 1)] := by decide
theorem test_fetch_waits : (waits .held 0x14 (pkt 0 0 0 0 64 0)).canFetch 0 0 = true ∧ crcError up 0x06 (pkt 0 0 0 0 0 0) = none ∧
    ((waits .held 0x14 (pkt 0 0 0 0 64 0)).taken 0x06 (pkt 0 0 0 0 0 0)).orderReady
      ((waits .held 0x14 (pkt 0 0 0 0 64 0)).mkCmd 0x06 (pkt 0 0 0 0 0 0)) = false := by decide
theorem test_heartbeat_counts : (after (owned .late) (.heartbeatRegisterWrite 1 0)).hosts[(1 : Fin 4)].st = .attached := by decide
theorem test_tail_moves : ((after up (.sqTail 0 0 3)).queue 0 0).sqTail = 3 ∧ ((after up (.sqTail 0 0 4)).queue 0 0).dbError = true := by
  decide
theorem test_reset_pin : (after up (.sysRstN 1000)).boot.stage = 1 ∧ after up (.sysRstN 999) = up := by decide
theorem test_trap_counts : (after up .trap).boot.fails = 1 ∧ (after up .trap).boot.cause = 5 := by decide
theorem test_code_clean : decodeWord (encodeWord 0x0123456789ABCDEF false) =
    ⟨.clean, [], encodeWord 0x0123456789ABCDEF false⟩ := by decide
theorem test_code_corrects : (decodeWord (encodeWord 0x0123456789ABCDEF false ^^^ 0x4000)).out = .corrected1 := by decide

/-- S1, S3 and P of a word with one, two or three bits from the word of zeros (R329, R331). -/
theorem test_code_syndromes : synS1 (BitVec.twoPow 80 14) = 0x41 ∧ synS3 (BitVec.twoPow 80 14) = 0x2B ∧ gfPow 14 = 0x41 ∧
    gfPow 42 = 0x2B ∧ synP (BitVec.twoPow 80 14) = true ∧ synS1 (BitVec.twoPow 80 79) = 0 := by decide
theorem test_code_two : decodeWord 0x104000 = ⟨.corrected2, [14, 20], 0⟩ ∧ decodeWord (BitVec.twoPow 80 79 ^^^ 1) =
    ⟨.corrected2, [0, 79], 0⟩ ∧ decodeWord 7 = ⟨.uncorrectable, [], 7⟩ := by decide

/-! ### Registers and events: the hypotheses of their statements -/

/-- Host 1 fenced. -/
def fenced : State := up.updHost 1 fun r => { r with st := .fenced }

theorem test_writes_taken : up.takesWrite 0 = true ∧ up.takesWrite 1 = true := by decide
theorem test_doorbells : (up.queue 0 0).enable = true ∧ (1 + 4 - 0) % 4 ≤ (3 + 4 - 0) % 4 ∧ (up.queue 0 1).enable = false := by decide

/-- Host 0 with its queue 0 going out of service, and a command of it in flight. -/
def closing : State := (waits .held 0x14 (pkt 0 0 0 0 64 0)).updQueue 0 0 fun k => { k with disabling := true }

theorem test_queue_control : (up.queue 0 0).disabling = false ∧ up.queueFlight 0 0 = 0 ∧
    (waits .held 0x14 (pkt 0 0 0 0 64 0)).queueFlight 0 0 ≠ 0 ∧ (closing.queue 0 0).disabling = true ∧
    up.banked = false ∧ (up.queue 0 1).enable = false := by decide
theorem test_fenced : fenced.reachesPort 1 = true ∧ fenced.hosts[(1 : Fin 4)].st = .fenced ∧ (0x7FFF : Dword).getLsbD 0 = true ∧
    (0x7FFE : Dword).getLsbD 0 = false ∧ up.hosts[(1 : Fin 4)].st ≠ .fenced := by decide
theorem test_fenced_wide : (after fenced (.registerWrite 1 0x110 true 1)).hosts[(1 : Fin 4)].ignored = 1 ∧
    (after fenced (.registerWrite 1 0x110 false 1)).hosts[(1 : Fin 4)].ignored = 1 := by decide
theorem test_heartbeat : up.hosts[(0 : Fin 4)].st = .attached ∧ (owned .late).takesWrite 1 = true ∧
    (owned .late).hosts[(1 : Fin 4)].st = .late ∧ up.attached 2 = false ∧ up.takesWrite 2 = true := by decide
theorem test_routes : up.isSteward 0 = true ∧ up.isSteward 1 = false ∧ up.part.neverAsserts 57 = false ∧
    ({ up with part := .zr1618 } : State).part.neverAsserts 57 = true ∧ 0x41F / 256 % 8 = 4 ∧ 0x500 / 256 % 8 = 5 := by decide
theorem test_mask_absent : let s : State := { up with part := .zr1618 }
    (after s (.eventMaskWrite 0 1 0x3000000)).hosts[(0 : Fin 4)].mask.getLsbD 57 = false ∧
      (after s (.eventMaskWrite 0 1 0x3000000)).hosts[(0 : Fin 4)].mask.getLsbD 56 = true ∧
      (after up (.eventMaskWrite 0 1 0x3000000)).hosts[(0 : Fin 4)].mask.getLsbD 57 = true := by decide

/-- A vector of host 0 whose holdoff ends at a time. -/
def heldoff (e : Option Nat) (g : Nat) (m : Bool) : State :=
  up.updVec 0 3 fun v => { v with until_ := e, gathered := g, masked := m, holdoff := 5 }

theorem test_holdoff : (heldoff none 0 true).hosts[(0 : Fin 4)].vecs[(3 : Fin 32)].until_ = none ∧
    (heldoff (some 1000000001) 1 false).time < 1000000001 ∧ 1000000000 ≤ (heldoff (some 1000000000) 1 false).time ∧
    (heldoff (some 1000000000) 1 false).hosts[(0 : Fin 4)].vecs[(3 : Fin 32)].gathered ≠ 0 ∧
    (heldoff (some 1000000000) 1 true).hosts[(0 : Fin 4)].vecs[(3 : Fin 32)].masked = true ∧
    (heldoff (some 1000000000) 0 false).hosts[(0 : Fin 4)].vecs[(3 : Fin 32)].gathered = 0 := by decide

/-- A raise gathered on a vector of host 0 whose holdoff ends now, with settings of its configuration space. -/
def coalesced (p : Pci) (st : HostState) : State :=
  (heldoff (some 1000000000) 1 false).updHost 0 fun r => { r with pci := p, st := st }

theorem test_holdoff_pci : let send : Pci := { msixEnable := true }
    (after (coalesced send .attached) (.holdoffExpiry 0 3)).out = [.msix 0 3] ∧
    (after (coalesced {} .attached) (.holdoffExpiry 0 3)).out = [] ∧
    (after (coalesced { send with d3hot := true } .attached) (.holdoffExpiry 0 3)).out = [] ∧
    (after (coalesced { send with functionMask := true } .attached) (.holdoffExpiry 0 3)).hosts[(0 : Fin 4)].vecs[(3 : Fin 32)].pend =
      true ∧ (after (coalesced send .fenced) (.holdoffExpiry 0 3)).out = [] := by decide

/-- A pulse on pin 0. -/
def pulsing (b : Nat) : State := { up with events := { up.events with pulse := #v[some b, none] } }

theorem test_pulse : up.events.pulse[(0 : Fin 2)] = none ∧ (pulsing 999840001).time < 999840001 + 160000 ∧
    999840000 + 160000 ≤ (pulsing 999840000).time := by decide
theorem test_raise : up.part.neverAsserts 60 = false ∧ up.events.routes[(60 : Fin 96)].enable = true := by decide
theorem test_keystone_write : up.keyRefusal = none ∧ up.coursesRun = true ∧ greedy.keyRefusal.isSome = true ∧
    greedy.takesWrite 0 = true ∧ resting.takesWrite 0 = true ∧ resting.coursesRun = false := by decide

/-- Raster memory with nothing in it. -/
def empty_ : State := up.updRaster fun r => { r with alloc := [], written := [] }

theorem test_apply : up.applyRefusal = 1 ∧ ({ empty_ with strips := [] } : State).applyRefusal = 0 := by decide
theorem test_go : up.changeRefusal ≠ 0 ∧ ({ up with clk := { up.clk with plan := { memRate := 0, memMode := 0 } } } : State).changeRefusal =
    0 ∧ paging.changeRefusal = 1 := by decide
theorem test_bar : up.portUp 0 = true ∧ up.coreRuns = true ∧ up.dark 0 0x4E04 = false ∧ up.dark 1 0x4E04 = true := by decide

/-- CCK gated by a change of CORE. -/
def gated : State := { up with clk := { up.clk with
  change := some { loop := 0, former := {}, target := {}, start := 0 }
  loops := #v[{ st := .relock }, { st := .locked }, { st := .locked }] } }

theorem test_gated : gated.portUp 0 = true ∧ gated.serves = true ∧ gated.coreRuns = false := by decide
theorem test_d3hot : let s := up.updHost 0 fun r => { r with pci := { d3hot := true } }
    s.portUp 0 = true ∧ s.reachesPort 0 = false ∧ (after s (.barAccess 0 false 1 2)).out = [.unsupported 0] := by decide
theorem test_pair : State.pairLow 0x4008 = true ∧ State.pairLow 0x400C = false ∧ up.reachesPort 0 = true ∧ up.hosts[(0 : Fin 4)].latch = [] := by
  decide
theorem test_early : ({ up with boot := { stage := 3 } } : State).portUp 0 = true ∧
    ({ up with boot := { stage := 3 } } : State).serves = false := by decide

/-! ### Ports, host data and engines -/

theorem test_fresh_numbers : (waits .held 0x14 (pkt 0 0 0 0 64 0)).FreshNumbers := by
  constructor <;> decide
theorem test_link_up : ({ up with hosts := vset up.hosts 3 {} } : State).portMayLink 3 = true ∧
    ({ up with hosts := vset up.hosts 3 {} } : State).hosts[(3 : Fin 4)].st = .down ∧ up.portMayLink 3 = true ∧
    ({ up with power := { on := 0xFB } } : State).portMayLink 3 = false := by decide

/-- Long after the last heartbeat of host 1. -/
def silent (st : HostState) : State := { owned st with time := 40000000000 }

theorem test_deadlines : (silent .attached).hosts[(1 : Fin 4)].st = .attached ∧
    100 * 160000000 ≤ (silent .attached).time - (silent .attached).hosts[(1 : Fin 4)].lastHb ∧
    2 * (100 * 160000000) ≤ (silent .late).time - (silent .late).hosts[(1 : Fin 4)].lastHb ∧
    (silent .late).hosts[(1 : Fin 4)].autoFence = true := by decide

/-- A LOAD_COURSE of one entry that waits for its 8 bytes. -/
def loading : State := waits (.source 8) 0x20 (pkt 0x100 0 0 1 0 256)

theorem test_reading : (loading.reading 0 0).isSome = true ∧ loading.reading 1 0 = none ∧ loading.bankActive 0 1 = false := by decide

/-- The table of one word breaks rule 1: its TABLE_ID is 0 (R153). -/
theorem test_table_refused : validate (loading.fit 0) 0 256 [Entry.of 0] = some { rule := 1 } := by decide

theorem test_page_source : (waits (.source 576) 0x22 (pkt 0 0 1 0 0 0)).reading 0 0 =
    some { id := 0, op := 0x22, iss := pkt 0 0 1 0 0 0, prog := .source 576 } := by decide
theorem test_engine_free : up.comps[(0 : Fin 8)].inService = true ∧ up.comps[(0 : Fin 8)].job = none ∧
    up.comps[(0 : Fin 8)].test = none ∧ 0 < min (poolShares up.ks.force.pool) up.shares ∧ up.nextCompress = none ∧
    (waits .compress 0x13 (squeeze 0)).nextCompress.isSome = true ∧
    (waits .compress 0x13 (squeeze 0)).compressCheck { id := 0, op := 0x13, iss := squeeze 0, prog := .compress } = none := by decide

/-- The command of an engine, with bytes of its input and how far its output has come. -/
def engineCmd (bytes : List Byte) (o : Output) : Cmd := { id := 0, op := 0x13, iss := squeeze 0, prog := .compress, buf := bytes, out := o }

/-- Engine 0 holds it. -/
def fed (bytes : List Byte) (o : Output) : State := working.updCmd 0 fun _ => engineCmd bytes o

/-- The block of one line of four zeros in the fixed code, with five bits more (R113): BFINAL 0, BTYPE 01, four literals of eight
bits, the end-of-block code. -/
def zerosBlock : List Byte := [0x82, 0x81, 0x81, 0x81, 0x01, 0]

theorem test_engine_reads : (fed [] {}).reading 0 0 = some (engineCmd [] {}) ∧ (fed [0, 0, 0, 0] {}).reading 0 0 = none ∧
    ((List.finRange 8).find? fun n => (fed [] {}).comps[n].job == some 0) = some 0 ∧ (engineCmd [] {}).sourceLen = 4 ∧
    lineBytes ((engineCmd [] {}).f 3 0 11) = 4 ∧ (engineCmd [] {}).f 2 0 16 = 1 := by decide

/-- A stream that is no line at all is the engine's fault (R128). -/
theorem test_engine_mismatch : ({} : Output).line 0 4096 true [0, 0, 0, 0] = none := by decide

theorem test_engine_ends : (fed [0, 0, 0, 0] {}).comps[(0 : Fin 8)].job.bind (fed [0, 0, 0, 0] {}).findCmd = some (engineCmd [0, 0, 0, 0] {}) ∧
    up.comps[(0 : Fin 8)].job.bind up.findCmd = none ∧ (engineCmd [] {}).out.ended = false := by decide

/-- All of an output of 4 bytes, or of 40, has gone out for a line of 4 bytes with its index entry of 8. -/
def ended (bits : Nat) : Output := { bits := bits, ends := [bits], extents := [(1, 1)], taken := [1], limit := 4, ended := true }

theorem test_engine_output : (fed [0, 0, 0, 0] (ended 32)).moved (engineCmd [0, 0, 0, 0] (ended 32)) = true ∧
    4 < (ended 32).size ∧ (ended 32).size = 12 ∧ (engineCmd [] {}).gainLimit = 3 ∧
    ((fed [] (ended 0)).createStrip { idx := 0, gen := 0 }).isSome = true := by decide

/-- A command of 16 lines of 4 bytes to extend the open strip, whose output takes 16 bytes within its limit of 64. -/
def extending : Cmd :=
  { id := 0, op := 0x13, iss := pkt 0 0 16 1 0 0x2001, prog := .compress, out := { bits := 64, ends := [64], ended := true } }

theorem test_engine_extends : let s := working.updCmd 0 fun _ => extending
    s.comps[(0 : Fin 8)].job.bind s.findCmd = some extending ∧ s.moved extending = true ∧ extending.out.size = 16 ∧
      extending.gainLimit = 64 ∧ s.findStrip (extending.p 5) = some openStrip := by decide
theorem test_engine_fault : working.comps[(0 : Fin 8)].job = some 0 ∧ (working.findCmd 0).isSome = true ∧
    working.comps[(0 : Fin 8)].test = none := by decide

/-- A SEAL_STRIP whose burst has been written. -/
theorem test_seal_ends : let c : Cmd := { id := 0, op := 0x16, iss := pkt 0x2001 0 0 0 0 0, prog := .raster }
    let s : State := { up with cmds := [c], nextId := 1 }
    s.findCmd c.id = some c ∧ s.moved c = true ∧ c.stop ≤ c.next ∧ c.out.ends = [] ∧ c.out.lines = openStrip.lines ∧
      s.findStrip (c.p 0) = some openStrip := by decide

/-- Sealing the open strip takes ashlar 1 for the bits, and has none to take where every ashlar is written. -/
theorem test_seal_room : let o := State.outputAfter openStrip sealBits 16 2
    (o.extend (up.takeable 0) 2 false).isSome = true ∧ (o.extend [] 2 false).isNone = true := by decide

/-! ### Codewords, the arbiter, DRAM service -/

theorem test_store : up.CanonicalMemory ∧ up.chans[(0 : Fin 2)].armed = none :=
  ⟨by unfold State.CanonicalMemory; decide, by decide⟩
theorem test_store_armed : (up.updChan 0 fun ch => { ch with armed := some (8, 1) }).chans[(0 : Fin 2)].armed = some (8, 1) := by decide

/-- A transfer of one burst of ashlar 0 for command 0. -/
def xfer (k : BurstKind) : Xfer := { src := .cmd 0, bursts := [{ addr := 0, kind := k }], presented := 0 }

/-- A READ in progress with its transfer asked for, or granted, on channel 0. -/
def granted (g : Bool) (x : Xfer := xfer .read) : State := (waits .raster 0x14 (pkt 0 0 0 0 64 0)).updChan 0 fun ch => { ch with arb :=
  if g then { holder := some (0, x) } else { reqs := vset (Vector.replicate 12 []) 0 [x] } }

theorem test_transfer : (granted true).chans[(0 : Fin 2)].arb.holder = some (0, xfer .read) ∧ (granted true).chanServes 0 = true ∧
    (granted true).storming 0 = false ∧ (granted true).windowShut 0 (xfer .read) = false ∧
    (granted true).actHeldOn ((granted true).xferRank 0 (.cmd 0) ⟨0, .read⟩) 0 = false ∧
    (granted true).chans[(0 : Fin 2)].subs[(0 : Fin 2)].replay = [] ∧
    up.chans[(0 : Fin 2)].arb.holder = none := by decide

/-- The last burst of a stopped command's fill is granted. -/
def lastFill : Xfer := { src := .fill 1, bursts := [{ addr := 0x10000, kind := .write }], presented := 0 }

/-- Ashlar 1 is written to its end by it. -/
def lastFilling : State :=
  (up.updRaster fun x => { x with filling := [{ ashlar := 1, cmd := 0, rest := some [0x10000] }] }).updArb (up.raster.chanOf 0x10000)
    fun a => { a with holder := some (8, lastFill) }

theorem test_transfer_ends : up.raster.chanOf 0x10000 = 0 ∧ lastFilling.windowShut 0 lastFill = false ∧
    (lastFilling.doXfer 0 (.fill 1) ⟨0x10000, .write⟩).chans[(0 : Fin 2)].arb.holder.isSome = true ∧
    (after lastFilling (.transferComplete 0 none)).chans[(0 : Fin 2)].arb.holder = none ∧
    (after lastFilling (.transferComplete 0 none)).raster.filling.map Fill.rest = [some []] := by decide

/-- Slot 93 of channel 0 is no window slot. -/
def shut : State := (granted true).updChan 0 fun ch => { ch with banks := #v[{ slots := 600 }, {}] }

/-- A rank whose devices allow no activate, or which replays a write first. -/
def stuck : State := (granted true).updRank 0 0 fun k => { k with raammt := 0 }

theorem test_transfer_held : shut.windowShut 0 (xfer .read) = true ∧ stuck.chanServes 0 = true ∧ stuck.windowShut 0 (xfer .read) = false ∧
    stuck.actHeldOn (stuck.xferRank 0 (.cmd 0) ⟨0, .read⟩) 0 = true := by decide
theorem test_decision : (granted false).chans[(0 : Fin 2)].st = .service ∧ (granted false).chans[(0 : Fin 2)].arb.holder = none ∧
    (granted false).eligible 0 = [(0, xfer .read, [⟨0, .read⟩])] ∧ up.eligible 0 = [] ∧
    (granted false).parkedStart 0 ((granted false).eligible 0) = none ∧
    ((granted false).configure 0).visible 0 (xfer .read) = true := by decide

/-- The owner's new request on an idle bus. -/
def parkedReq : State := (granted false { xfer .read with presented := 1 }).updArb 0 fun a => { a with parked := some 0 }

theorem test_parked : parkedReq.parkedStart 0 (parkedReq.eligible 0) =
    some (0, { xfer .read with presented := 1 }, [⟨0, .read⟩]) ∧
    ((after parkedReq (.arbiterDecision 0)).chans[(0 : Fin 2)].arb.holder.map (·.1)) = some 0 := by decide

/-- The window of a transfer has closed with none of its bursts issued, or one half of its read-modify-write. -/
def losing (x : Xfer) : State := (granted true x).updChan 0 fun ch => { ch with banks := #v[{ slots := 600 }, {}] }

theorem test_preempt : (granted true).loses 0 0 (xfer .read) = false ∧ (losing (xfer .read)).loses 0 0 (xfer .read) = true ∧
    (xfer .read).isRmw = false ∧ (xfer .rmw).isRmw = true ∧ (xfer .read).half = false ∧ (xfer .read).done = 0 ∧
    (losing (xfer .rmw)).loses 0 0 (xfer .rmw) = true ∧ (losing (xfer .rmw)).chanServes 0 = true ∧
    (losing (xfer .rmw)).storming 0 = false := by decide
/-- A write of eight bytes over stored data of which no word can be corrected. -/
def merging_ : State := ((waits .raster 0x12 (pkt 0 0 0 0 8 0)).updRaster fun r => { r with
  dram := writeBurst [] 0 (List.replicate 8 7) }).updChan 0 fun ch => { ch with
    banks := #v[{ slots := 600 }, {}], arb := { holder := some (0, xfer .rmw) } }

theorem test_preempt_acts : (after (losing (xfer .read)) (.preemption 0 0)).chans[(0 : Fin 2)].arb.holder = none ∧
    (after (losing (xfer .read)) (.preemption 0 0)).chans[(0 : Fin 2)].arb.preemptions = 1 := by decide
theorem test_preempt_protects : ((after merging_ (.preemption 0 1)).chans[(0 : Fin 2)].arb.holder.map (·.2.half)) = some true := by
  decide
theorem test_tokens : up.refilled + 8533 ≤ up.time ∧ ({ up with refilled := 999991468 } : State).time < 999991468 + 8533 := by decide

/-- An ashlar that fills for command 0, of which a burst is still to be written, or for none. -/
def filling (r : Option (List Nat)) : State :=
  (waits .raster 0x12 (pkt 0 0 0x10000 0 64 0)).updRaster fun x => { x with filling := [{ ashlar := 1, cmd := 0, rest := r }] }

theorem test_fill : ((filling none).raster.filling.find? fun f => f.ashlar = 1) = some { ashlar := 1, cmd := 0 } ∧
    ((filling none).findCmd 0).isSome = true ∧ ((filling (some [0x10000])).raster.filling.find? fun f => f.ashlar = 1) =
      some { ashlar := 1, cmd := 0, rest := some [0x10000] } ∧ ((filling (some [])).raster.filling.find? fun f => f.ashlar = 1) =
      some { ashlar := 1, cmd := 0, rest := some [] } := by
  decide
theorem test_fill_written : ∀ a ∈ [0x10000, 0x10040, 0x1FFC0],
    (filling none).unwritten { id := 0, op := 0x12, iss := pkt 0 0 0x10000 0 64 0 } a = false := by decide

/-! ### Courses and DRAM service -/

/-- A channel on a table of one entry that is due, with the slot counter at slot 93 or, at a time, where the entry holds it. -/
def due (w : BitVec 64) (t : Nat := 1000000000) : State := ({ up with time := t } : State).updChan 0 fun ch => { ch with
  due := [0], banks := vset ch.banks 0 { entries := [w], slots := 600 } }

theorem test_entry_refsb : ((due (entryWord 2 10 30 0 0 0 0 0 false)).nextEntry 0 0).map Entry.type = some 2 ∧ up.nextEntry 0 0 = none ∧
    up.rankAsleep 0 0 = false ∧ up.rankTrained 0 0 = true ∧ (due (entryWord 2 94 30 0 0 0 0 0 false)).nextEntry 0 0 = none := by decide
theorem test_entry_mitig : ((due (entryWord 3 10 30 0 0 0 0 0 false)).nextEntry 0 0).map Entry.type = some 3 := by decide
theorem test_entry_zqcal : ((due (entryWord 6 10 206 0 0 0 0 0 false)).nextEntry 0 0).map Entry.type = some 6 ∧
    (Entry.of (entryWord 6 10 206 0 0 0 0 0 false)).blockFrom = 210 ∧ 210 < up.grid ∧
    ¬(Entry.of (entryWord 6 400 206 0 0 0 0 0 false)).blockFrom < up.grid := by decide
theorem test_entry_temper : ((due (entryWord 4 10 40 0 0 0 0 0 false)).nextEntry 0 0).map Entry.type = some 4 ∧
    ((due (entryWord 4 10 160 0 0 1 0 0 false)).nextEntry 0 0).map Entry.kind = some 1 := by decide

/-- A FETCH entry may act from 10 slots before its START (R138). -/
theorem test_entry_fetch : ((due (entryWord 1 103 4 0 0 4 0 0 false)).nextEntry 0 0).map Entry.type = some 1 ∧
    (due (entryWord 1 104 4 0 0 4 0 0 false)).nextEntry 0 0 = none ∧
    (due (entryWord 1 103 4 0 0 4 0 0 false)).givenTo 0 0 (Entry.of (entryWord 1 103 4 0 0 4 0 0 false)) = [] := by decide

/-- The REFSB entry at slot 10 holds the counter from 160 MCK on, which is 10,667 tau after the start of the course; STALL_LIMIT is
200 us, 32,000,000 tau (R157). -/
theorem test_stalled : let e := Entry.of (entryWord 2 10 30 0 0 0 0 0 false)
    (due (entryWord 2 10 30 0 0 0 0 0 false) 1031910667).stalled 0 0 e = true ∧
      (due (entryWord 2 10 30 0 0 0 0 0 false) 1031910666).stalled 0 0 e = false ∧ mckIn 4800 32000000 ≠ 0 := by decide
theorem test_stall_ends : (after (due (entryWord 2 10 30 0 0 0 0 0 false) 1031910667) (.stallLimit 0 0)).chans[(0 : Fin 2)].due = [] ∧
    (after (due (entryWord 2 10 30 0 0 0 0 0 false) 1031910666) (.stallLimit 0 0)).chans[(0 : Fin 2)].due = [0] := by decide

/-- Bank index 0 of rank 0 with a credit, activates, a need, a timer or a refresh in progress. -/
def bank (k : BankIdx) : State := up.updBank 0 0 0 0 fun _ => k

/-- The REFSB entry at slot 10 is due on that bank. -/
def dueBank (k : BankIdx) : State := (due (entryWord 2 10 30 0 0 0 0 0 false)).updBank 0 0 0 0 fun _ => k

theorem test_refsb_acts : let e := Entry.of (entryWord 2 10 30 0 0 0 0 0 false)
    (dueBank {}).wouldIssue 0 e 0 = true ∧ (dueBank {}).indexHeld 0 0 0 0 = false ∧ State.entrySubs e = [0, 1] ∧
      (dueBank { busyTo := 1000000001 }).indexHeld 0 0 0 0 = true ∧ (dueBank { busyTo := 1000000000 }).indexHeld 0 0 0 0 = false ∧
      (dueBank { credit := 4 }).wouldIssue 0 e 0 = false ∧ (dueBank { credit := 3 }).wouldIssue 0 e 0 = true := by decide
theorem test_refsb_credits : ((after (dueBank { credit := 3 }) (.refsb 0 0)).bankIdx 0 0 0 0).credit = 4 ∧
    ((after (dueBank { credit := 4 }) (.refsb 0 0)).bankIdx 0 0 0 0).credit = 4 ∧
    (after (dueBank { busyTo := 1000000001 }) (.refsb 0 0)).chans[(0 : Fin 2)].due = [0] := by decide
theorem test_mitig_acts : let e := Entry.of (entryWord 3 10 30 0 0 0 0 0 false)
    (bank { need := true }).wouldIssue 0 e 0 = true ∧ (bank {}).wouldIssue 0 e 0 = false := by decide

/-- A ZQCal Latch to come at slot 10, that is for an entry at slots 0 to 16, with the rank ready at a time. -/
def latching (t : Nat) : State := (up.updChan 0 fun ch => { ch with
  latch := [0], banks := vset ch.banks 0 { entries := [entryWord 6 0 16 0 0 0 0 0 false], slots := 600 } }).updRank 0 0 fun k =>
    { k with zqReady := t }

theorem test_latch : (latching 1000000000).mckOf 0 10 ≤ (latching 1000000000).mckNow 0 ∧ (latching 0).chanServes 0 = true ∧
    (latching 0).storming 0 = false ∧ ((latching 0).table 0).table[0]?.map Entry.blockFrom = some 10 := by decide
theorem test_latch_issues : (after (latching 1000000000) (.zqcal 0 0)).chans[(0 : Fin 2)].latch = [] ∧
    (after (latching 1000000001) (.zqcal 0 0)).chans[(0 : Fin 2)].latch = [0] := by decide

theorem test_timer : ((bank { timer := 1000000000 }).bankIdx 0 0 0 0).timer ≤ up.time ∧
    up.time < ((bank { timer := 1000000001 }).bankIdx 0 0 0 0).timer ∧ up.chans[(0 : Fin 2)].hot = false := by decide
theorem test_timer_acts : ((after (bank { timer := 1000000000, credit := -4 }) (.refreshCreditTimer 0 0 0 0)).bankIdx 0 0 0 0).credit = -4 ∧
    ((after (bank { timer := 1000000000 }) (.refreshCreditTimer 0 0 0 0)).bankIdx 0 0 0 0).credit = -1 := by decide

/-- The slot counter stands at slot 90 for a forced command. -/
def forcedAt (s : State) : State := s.updChan 0 fun ch => { ch with forcedAt := some 1440 }

theorem test_forced : (forcedAt (bank { credit := -4 })).counterHeld 0 = true ∧ (bank { credit := -4 }).counterHeld 0 = false ∧
    (forcedAt (bank { credit := -4 })).indexHeld 0 0 0 0 = false ∧ ((bank { credit := -4 }).bankIdx 0 0 0 0).credit ≤ -4 ∧
    -4 < ((bank { credit := -3 }).bankIdx 0 0 0 0).credit ∧
    96 ≤ ((bank { raas := vset (Vector.replicate 8 0) 0 96 }).bankIdx 0 0 0 0).raa := by decide

/-- An activate is held at RAAMMT. -/
def rfmHeld : State := (forcedAt (bank { need := true })).updChan 0 fun ch => { ch with rfmDue := [(0, 0, 0)] }

theorem test_forced_rfm : rfmHeld.chans[(0 : Fin 2)].rfmDue.contains (0, 0, 0) = true ∧ rfmHeld.counterHeld 0 = true ∧
    up.chans[(0 : Fin 2)].rfmDue.contains (0, 0, 0) = false := by decide
theorem test_forced_acts : ((after (forcedAt (bank { credit := -4 })) (.forcedRefresh 0 0 0 0)).bankIdx 0 0 0 0).credit = -3 ∧
    ((after rfmHeld (.forcedRfm 0 0 0 0)).bankIdx 0 0 0 0).need = false := by decide

/-- Rank 0 idle with IDLE_POWER_DOWN set, since a slot. -/
def sleepy (k : Nat) : State := ({ up with power := { up.power with pdIdle := true } } : State).updRank 0 0 fun x => { x with lastUse := k }

theorem test_power_down : (sleepy 0).power.pdIdle = true ∧ (sleepy 0).chanServes 0 = true ∧ (sleepy 0).rankTrained 0 0 = true ∧
    (sleepy 0).rankAsleep 0 0 = false ∧ (sleepy 0).slotsRun 0 = 93 ∧ (sleepy 0).entrySoon 0 0 = false ∧
    up.chans[(0 : Fin 2)].ranks[(1 : Fin 4)].st = .spare := by decide
theorem test_power_down_enters : (after (sleepy 29) (.powerDownEntry 0 0)).chans[(0 : Fin 2)].ranks[(0 : Fin 4)].powerDown = true ∧
    (after (sleepy 30) (.powerDownEntry 0 0)).chans[(0 : Fin 2)].ranks[(0 : Fin 4)].powerDown = false := by decide

/-- A subchannel with a write to replay, and a storm. -/
def stormy : State := up.updChan 0 fun ch => { ch with
  subs := vset ch.subs 0 { kept := [{ addr := 0, words := List.replicate 8 0 }], storm := true, stormAt := some 999990000 } }

theorem test_alert : stormy.chanServes 0 = true ∧ stormy.chans[(0 : Fin 2)].subs[(0 : Fin 2)].storm = true ∧
    stormy.chans[(0 : Fin 2)].subs[(0 : Fin 2)].stormAt = some 999990000 ∧
    up.chans[(0 : Fin 2)].subs[(0 : Fin 2)].storm = false ∧ resting.chanServes 0 = false := by decide

/-- The course has run its 600 slots of 16 MCK, that is 640,000 tau, and an uncorrectable word of a table is read or not. -/
def atEnd (t : Nat) : State := { up with time := t }

theorem test_course_over : resting.courseOver = false ∧ (atEnd 1000540000).courseOver = true ∧ (atEnd 1000539999).courseOver = false := by
  decide
theorem test_course_next : (after (atEnd 1000540000) (.courseBoundary false)).seq.number = 1 ∧
    (after (atEnd 1000539999) (.courseBoundary true)).quench.device = false := by decide

/-- Channels of a state in other states. -/
def both (a : ChanState) : State := { up with chans := #v[{ chan with st := a }, { chan with st := a }] }

theorem test_course_quiesce : ({ both .quiesce with time := 2000000000 } : State).courseOver = true ∧
    (both .quiesce).inUse 0 = true ∧ (both .quiesce).chans[(0 : Fin 2)].st = .quiesce := by decide

/-- Self-refresh on idleness is due. -/
def drowsy (t : Nat) : State := { up with power := { up.power with srIdle := true }, sr := { up.sr with idleFrom := t } }

theorem test_rest : (drowsy 0).power.srIdle = true ∧ (drowsy 0).idleNow = true ∧ (drowsy 0).sr.idle = false ∧
    (∀ k, (drowsy 0).inUse k = true → (drowsy 0).chans[k].st = .service) ∧ (drowsy 0).inUse 0 = true ∧
    999840000 + (drowsy 0).power.srDelay * 160000 ≤ (drowsy 999840000).time ∧
    ¬999840001 + (drowsy 0).power.srDelay * 160000 ≤ (drowsy 999840001).time ∧
    (both .sreIssued).chans[(0 : Fin 2)].st = .sreIssued ∧ (both .exiting).chans[(0 : Fin 2)].st = .exiting := by decide
theorem test_rest_enters : (after (drowsy 999840000) .selfRefreshEntry).sr.idle = true ∧
    (after (drowsy 999840001) .selfRefreshEntry).sr.idle = false := by decide

/-- Rank 0 of channel 0 trains for a command, a switch-on or a change. -/
def trains (k : TrainFor) : State := up.updChan 0 fun ch => { ch with service := some (k, [0]) }

theorem test_training_turn : (trains (.reinstate 3)).chans[(0 : Fin 2)].service = some (.reinstate 3, [0]) ∧
    (trains (.reinstate 3)).chans[(0 : Fin 2)].st ≠ .training ∧
    (trains (.retrain 3)).chans[(0 : Fin 2)].service = some (.retrain 3, [0]) ∧
    (trains .speed).chans[(0 : Fin 2)].service = some (.speed, [0]) ∧
    (trains .domain).chans[(0 : Fin 2)].service = some (.domain, [0]) ∧ up.chans[(0 : Fin 2)].service = none := by decide

/-- A switch to do. -/
def switching (d : DomainId) (on : Bool) (mask : BitVec 8) : State := { up with power := { up.power with on := mask, todo := [(d, on)] } }

theorem test_switch : (switching 7 false 0xFF).power.todo.head? = some (7, false) ∧ (switching 7 false 0xFF).busyDomain 7 = false ∧
    (switching 7 true 0x7F).domainOn 7 = false ∧ (switching 7 true 0xFF).domainOn 7 = true := by decide
theorem test_switch_busy : ({ (waits .raster 0x14 (pkt 0 0 0 0 64 0)) with
    power := (switching 5 false 0xFF).power } : State).busyDomain 5 = true := by decide

/-- The scrubber of channel 0, at a time after reset. -/
def scrubbing (x : Scrub) (t : Nat := 576000000000000) : State := { up.updChan 0 fun ch => { ch with scrub := x } with time := t }

theorem test_scrub : (scrubbing {}).scrubs 0 = true ∧ 0 + 3600 * 160000000000 ≤ (scrubbing {}).time ∧
    (scrubbing { active := true }).scrubs 0 = true ∧ (scrubbing { active := true, late := true }).scrubs 0 = true ∧
    (scrubbing { active := true }).raster.nextWritten 0 = some 0 ∧ (scrubbing { active := true, next := 1 }).raster.nextWritten 1 = none ∧
    (scrubbing { prio := [0] }).raster.isWritten 0 = true ∧ (scrubbing { prio := [0x10000] }).raster.isWritten 1 = false ∧
    (scrubbing { enable := false }).scrubs 0 = false ∧ (scrubbing { active := true, next := 1 }).scrubIdle 0 = true ∧
    (scrubbing {}).chans[(0 : Fin 2)].arb.reqs[(9 : Fin 12)] = [] ∧ (scrubbing { active := true, count := 512, left := 512 }).patrolDue 0 = true ∧
    (scrubbing { active := true, count := 512, left := 0 } 1).patrolDue 0 = false := by decide
theorem test_scrub_starts : (after (scrubbing {}) (.scrubPassStart 0)).chans[(0 : Fin 2)].scrub.active = true ∧
    (after (scrubbing {} 575999999999999) (.scrubPassStart 0)).chans[(0 : Fin 2)].scrub.active = false ∧
    (after (scrubbing { active := true }) (.scrubPassStart 0)).chans[(0 : Fin 2)].scrub.late = true := by decide

/-- What the scrubber presents first: what it owes, then its queue, then the patrol. -/
theorem test_scrub_order : ((after (scrubbing { back := [0], prio := [64], active := true }) (.scrubTransfer 0)).chans[
      (0 : Fin 2)].arb.reqs[(9 : Fin 12)].map (·.bursts)) = [[⟨0, .rmw⟩]] ∧
    ((after (scrubbing { prio := [64], active := true }) (.scrubTransfer 0)).chans[
      (0 : Fin 2)].arb.reqs[(9 : Fin 12)].map (·.bursts)) = [[⟨64, .read⟩]] ∧
    (after (scrubbing { back := [0x10000] }) (.scrubTransfer 0)).chans[(0 : Fin 2)].arb.reqs[(9 : Fin 12)] = [] := by decide

/-- The intervals of a rank, at a time. -/
def aged (t : Nat) : State := ({ up with time := t } : State).updRank 0 0 fun k => { k with ceHour := 5, ueDay := 1, ueTen := 1 }

theorem test_intervals : (after (aged 576000000000000) (.healthIntervalEnd 0 0 .hour)).chans[(0 : Fin 2)].ranks[(0 : Fin 4)].ceHour = 0 ∧
    (after (aged 575999999999999) (.healthIntervalEnd 0 0 .hour)).chans[(0 : Fin 2)].ranks[(0 : Fin 4)].ceHour = 5 ∧
    (after (aged 13824000000000000) (.healthIntervalEnd 0 0 .day)).chans[(0 : Fin 2)].ranks[(0 : Fin 4)].ueDay = 0 ∧
    (after (aged 1600000000) (.healthIntervalEnd 0 0 .tenMs)).chans[(0 : Fin 2)].ranks[(0 : Fin 4)].ueTen = 0 ∧
    (after (aged 1599999999) (.healthIntervalEnd 0 0 .tenMs)).chans[(0 : Fin 2)].ranks[(0 : Fin 4)].ueTen = 1 := by decide

/-- A migration of rank 0 to rank 1 under way. -/
def moving (m : Mig) : State := up.updChan 0 fun ch => { ch with mig := m }

theorem test_migration : (moving { st := .copying, target := 1 }).chans[(0 : Fin 2)].st = .service ∧
    (moving { st := .copying, target := 1 }).ks.force.arbEnable.getLsbD 10 = true ∧
    31 < (moving { st := .copying, target := 1 }).ks.force.pace.toNat % 256 ∧ ¬32 < up.ks.force.pace.toNat % 256 ∧
    least ((moving { st := .copying, target := 1 }).raster.rankHolds 0 0) = some 0 ∧ up.raster.isFilling 0 = false ∧
    up.merging 0 (up.raster.burstsAt 0 0 0) = false ∧
    (granted true (xfer .rmw)).merging 0 (up.raster.burstsAt 0 0 0) = true ∧
    (moving { st := .copying, target := 1, ashlar := 1 }).raster.rankHolds 0 1 = [] := by decide
theorem test_migration_ends : (after (moving { st := .copying, target := 1, ashlar := 1 }) (.migrationCutover 0)).raster.phys[
      (0 : Fin 2)][(0 : Fin 4)] = some 1 ∧
    (after (moving { st := .copying, target := 1, ashlar := 1, transit := [0] }) (.migrationCutover 0)).raster.phys[
      (0 : Fin 2)][(0 : Fin 4)] = some 0 := by decide

/-! ### The web loop, links and lines -/

/-- The loop in a state, one count to the line. -/
def web (st : WebState) : State := up.updWeb fun w => { w with st := st, cfg := { num := 1, den := 1, coast := 10 }, valid := 64 }

theorem test_web_states : (web .locked).web.st = .locked ∧ (web .acquire).web.st = .acquire ∧ (web .coasting).web.st = .coasting ∧
    up.web.st = .off ∧ (web .coasting).web.coastUs = 10 ∧ (web .coasting).web.coastFrom + 10 * 160000 ≤ (web .coasting).time := by decide

/-- CORE without power: its blocks do nothing (R13). -/
theorem test_core_dark : let s : State := { web .locked with power := { on := 0xFD } }
    s.domainOn 1 = false ∧ after s .indexSlip = s ∧ (web .locked).domainOn 1 = true := by decide

/-- An update is due 8,533 tau after the last, and corrects by the errors of the counts since. -/
def updating (u : Nat) (xs : List (Nat × Int)) : State := (web .locked).updWeb fun w => { w with updated := u, stamps := xs }

theorem test_update : (updating 999991467 []).web.updated + 8533 ≤ up.time ∧ up.time < (updating 999991468 []).web.updated + 8533 ∧
    (updating 0 []).loopError = 0 ∧ (updating 0 [(1000000000, 1)]).web.stamps ≠ [] := by decide
theorem test_update_acts : (after (updating 999991467 []) .loopUpdate).web.updated = 1000000000 ∧
    (after (updating 999991468 []) .loopUpdate).web.updated = 999991468 ∧
    (after (updating 0 [(1000000000, 1)]) .loopUpdate).web.stamps = [] := by decide

/-- REV_HYST is 4 at reset; three counts back from the furthest, the next is a reversal (R275). B leads A after levels of 0 and 0. -/
def backing : State := (web .locked).updWeb fun w => { w with furthest := 3 }

theorem test_counts : (after (web .locked) (.encoderCount true false)).web.count = 1 ∧
    (after (web .locked) (.encoderCount false true)).web.count = -1 ∧ (after (web .locked) (.encoderCount true true)).web.count = 0 ∧
    (after (web .locked) (.encoderCount true true)).web.illegal = true ∧ (after (web .locked) (.encoderCount false false)).web.illegal =
      false := by decide
theorem test_reversal : (4 : Int) ≤ backing.web.furthest - (backing.web.count - 1) ∧
    (after backing (.encoderCount false true)).web.reverse = true ∧ (after (web .locked) (.encoderCount false true)).web.reverse = false := by
  decide

/-- ACQUIRE with counts in a row within 1/8, or since a last count; LOCKED with counts in a row beyond 1/2 (R262). -/
theorem test_lock : (after ((web .acquire).updWeb fun w => { w with lockRun := 64, lastCount := 1000000000 }) .webLockChange).web.st = .locked ∧
    (after ((web .acquire).updWeb fun w => { w with lockRun := 63, lastCount := 840000001 }) .webLockChange).web.st = .acquire ∧
    (after ((web .acquire).updWeb fun w => { w with lastCount := 840000000 }) .webLockChange).web.st = .locked ∧
    (after ((web .locked).updWeb fun w => { w with offRun := 4 }) .webLockChange).web.st = .acquire ∧
    (after ((web .locked).updWeb fun w => { w with offRun := 3 }) .webLockChange).web.st = .locked := by decide

/-- A fail-safe for 100 ns, edges too close, more than 40 counts in the last microsecond (R258). -/
theorem test_loss_holds : Clause.LossHolds (web .locked) (.failsafe 16000) ∧ ¬Clause.LossHolds (web .locked) (.failsafe 15999) ∧
    Clause.LossHolds ((web .locked).updWeb fun w => { w with illegal := true }) .illegal ∧ ¬Clause.LossHolds (web .locked) .illegal ∧
    Clause.LossHolds ((web .locked).updWeb fun w => { w with recent := List.replicate 41 999840001 }) .overrange ∧
    ¬Clause.LossHolds ((web .locked).updWeb fun w => { w with recent := 999840000 :: List.replicate 40 999840001 }) .overrange := by
  simp only [Clause.LossHolds]
  decide
theorem test_loss_acts : (after (web .locked) (.encoderLost (.failsafe 16000))).web.st = .coasting ∧
    (after (web .acquire) (.encoderLost (.failsafe 16000))).web.st = .lost ∧
    (after (web .coasting) (.encoderLost (.failsafe 16000))).web.valid = 0 ∧
    after up (.encoderLost (.failsafe 15999)) = up := by decide
theorem test_rebase : ((web .coasting).updWeb fun w => { w with coastFrom := 998400001 }).time < 998400001 + 10 * 160000 ∧
    64 ≤ (web .coasting).web.valid ∧ ¬((web .coasting).updWeb fun w => { w with coastFrom := 998400000 }).time < 998400000 + 10 * 160000 := by
  decide
theorem test_rebase_acts : (after ((web .coasting).updWeb fun w => { w with coastFrom := 998400001 }) .encoderRebase).web.st = .locked ∧
    (after ((web .coasting).updWeb fun w => { w with coastFrom := 998400001, valid := 63 }) .encoderRebase).web.st = .coasting ∧
    (after ((web .coasting).updWeb fun w => { w with coastFrom := 998400001 }) .coastLimit).web.st = .coasting := by decide
theorem test_coast_ends : (after (web .coasting) .coastLimit).web.st = .lost := by decide

/-- Z edges with a period of 100 counts. -/
def indexed (r : Option Int) : State :=
  let s := web .locked
  ({ s with ks := { s.ks with force := { s.ks.force with webCtrl := 0x00006404 } } } : State).updWeb fun w => { w with count := 100, indexRef := r }

theorem test_index : (indexed none).web.indexRef = none ∧ (indexed (some 0)).web.indexRef = some 0 ∧
    ((indexed (some 1)).ks.force.webCtrl.extractLsb' 8 24).toNat = 100 ∧ (100 - (1 : Int)) ≠ 100 ∧ (100 - (200 : Int)) = -100 := by decide
theorem test_index_slips : (after (indexed (some 1)) .indexSlip).web.slips = 1 ∧ (after (indexed (some 0)) .indexSlip).web.slips = 0 ∧
    (after (indexed (some 200)) .indexSlip).web.slips = 0 ∧
    (after (indexed (some 1)) .indexSlip).logs.error.map (fun e => e.body.extractLsb' 96 64) = [BitVec.ofInt 64 (-1)] := by decide

/-- MARK on or off, seen after 0.1 us, with a window from line 0 of so many lines, and a distance of 1 line; the position is held at
a place. -/
def marking (on : Bool) (len : Nat) (m : Option Int) (p : Int) : State :=
  let s := web .acquire
  ({ s with ks := { s.ks with force := { s.ks.force with
      markCtrl := if on then 0x80010001 else 0x00010001, markWin := BitVec.ofNat 32 len } } } : State).updWeb fun w =>
    { w with markLast := m, held := p, lastStart := some 0 }

theorem test_mark : (0x80010001 : Nat) / 2 ^ 31 % 2 = 1 ∧ 0x80010001 % 2 ^ 14 * 16000 = 16000 ∧ 0x80010001 / 2 ^ 30 % 2 = 0 ∧
    (marking true 0 none 0).web.markLast = none ∧ ¬(65536 : Int) ≤ 65535 - 0 ∧ (65536 : Int) ≤ 65536 - 0 ∧
    (marking true 0 none 0).ks.force.markWin.extractLsb' 0 16 = 0 := by decide
theorem test_mark_judged : (after (marking true 0 (some 0) 65536) (.markSeen true 16000)).web.accepted = 1 ∧
    (after (marking true 0 (some 0) 65535) (.markSeen true 16000)).web.chatter = 1 ∧
    (after (marking true 0 none 7) (.markSeen true 16000)).web.markPos = 7 ∧
    (after (marking true 1 none 65535) (.markSeen true 16000)).web.accepted = 1 ∧
    (after (marking true 1 none 65536) (.markSeen true 16000)).web.outside = 1 ∧
    (after (marking false 1 none 65536) (.markSeen true 16000)).web.outside = 1 := by decide
theorem test_mark_unseen : (after (marking true 0 none 7) (.markSeen true 15999)).web.accepted = 0 ∧
    (after (marking true 0 none 7) (.markSeen false 16000)).web.accepted = 0 ∧
    (after (marking false 1 none 65535) (.markSeen true 16000)).web.accepted = 0 := by decide
theorem test_boundary : (paging.findPage 7).map Page.active = some true ∧ (paging.findPage 7).map Page.passed = some false ∧
    (0 : Int) * 65536 ≤ paging.travelNow false ∧ paging.findPage 9 = none := by decide

/-- Link 0 with its line's slot and fetch state in a running page. -/
def line (x : Slot) (f : Fetch) : State := paging.updLink 0 fun l => { l with slots := [x], fetch := f, engine := some 0 }

theorem test_line_decodes : (line { page := 7, line := 0, words := 1 } { busy := true, page := 7 }).engineServes 0 = true ∧
    (paging.pageStrip page 0) = some rawStrip ∧ rawStrip.raw = true ∧ up.engineServes 0 = false ∧
    openStrip.raw = false := by decide
theorem test_frame_ready : ((line { page := 7, line := 0, words := 1, complete := true } {}).nextFrame 0).map (·.2) = some 0 ∧
    (line { page := 7, line := 0, words := 1, complete := true } {}).carries 0 = true ∧
    (line { page := 7, line := 0, words := 1, complete := true } {}).boardTakes 0 0 = true ∧
    (line { page := 7, line := 0, words := 1, complete := true } {}).links[(0 : Fin 32)].laneFree ≤ 1000000000 ∧
    ((line { page := 7, line := 0, words := 1, complete := true } {}).slotOf 0 7 0).map (·.complete) = some true ∧
    (up.nextFrame 0).isNone = true := by decide

/-- A LINE frame with the last-line flag: its header as R231 lays it out, byte by byte. -/
theorem test_frame_sent : let s := line { page := 7, line := 0, words := 1, complete := true, image := [1, 2, 3, 4] } {}
    (after s (.lineFrame 0 .good)).out.head? =
      some (s.frameOf 0 1 4 1 0 7 0 [1, 2, 3, 4]) ∧
    headerBytes (frameHeader 0 1 4 1 0 7 0 0) = [1, 4, 1, 0, 0, 0, 0, 0, 7, 0, 0, 0, 0, 0, 0, 0] := by decide

/-- Bytes 8 and 9 give the page, byte 10 the link, byte 11 SEQ and bytes 12 and 13 the line of the page (R231). -/
theorem test_header : headerBytes (frameHeader 5 1 0 2 0x01020304 0x0A0B 9 0x0102) =
    [1, 0, 2, 0, 4, 3, 2, 1, 0x0B, 0x0A, 5, 9, 2, 1, 0, 0] := by decide

/-- The CRC of "123456789" under the polynomial of R232. -/
theorem test_crc32 : crc32 [0x31, 0x32, 0x33, 0x34, 0x35, 0x36, 0x37, 0x38, 0x39] = 0xCBF43926 := by decide

/-! ### Lines, markers and links -/

/-- The line of page 7 with its marker committed at a boundary. -/
def marked (b : Nat) (sent : Bool) : State :=
  ((line { page := 7, line := 0, words := 1 } {}).updLink 0 fun l => { l with
    markers := [{ page := 7, line := 0, count := 0, boundary := b, fine := 0, instant := b, sent := sent }], held := [0] }).updWeb
      fun w => { w with st := .locked }

theorem test_no_data : (marked 1000000100 false).deadline 0 page 0 = true ∧ (marked 1000000100 false).carries 0 = true ∧
    (marked 1000000100 false).boardTakes 0 0 = true ∧ paging.deadline 0 page 0 = false := by decide
theorem test_no_data_sends : (after (marked 1000000100 false) (.noData 0)).links[(0 : Fin 32)].noData = 1 ∧
    ((after ((marked 1000000100 false).updLink 0 fun l => { l with laneFree := 1000000001 }) (.noData 0)).findPage 7).map
      (fun p => p.links[(0 : Fin 32)].frame) = some 1 := by decide
theorem test_marker_due : (marked 1000000000 false).carries 0 = true ∧
    1000000000 ≤ (marked 1000000000 false).time ∧ (marked 1000000001 false).time < 1000000001 := by decide
theorem test_marker_leaves : (after (marked 1000000000 false) (.fireMarker 0)).out = [.marker 0 1000000000 0 0] ∧
    (after (marked 1000000000 false) (.fireMarker 0)).links[(0 : Fin 32)].held = [] ∧
    (after (marked 1000000001 false) (.fireMarker 0)).out = [] := by decide
theorem test_marker_skipped : (after ((marked 1000000000 false).updLink 0 fun l => { l with st := .down }) (.fireMarker 0)).web.skipped = 1 := by
  decide
theorem test_line_fires : (marked 1000000000 true).links[(0 : Fin 32)].markers.find? (fun m =>
    m.sent && decide (m.instant ≤ (marked 1000000000 true).time)) =
      some { page := 7, line := 0, count := 0, boundary := 1000000000, fine := 0, instant := 1000000000, sent := true } ∧
    up.links[(0 : Fin 32)].markers = [] := by decide

/-- Frames for a link whose line may not go out with its payload: too wide for the board, poisoned, or bad while it is read. -/
theorem test_frame_flags : let x : Slot := { page := 7, line := 0, words := 1, complete := true, image := [1, 2, 3, 4] }
    let bytes (s : State) (ue : SlotRead) : Option Byte := match (after s (.lineFrame 0 ue)).out.head? with
      | some (.frame _ h _ _) => some (h.extractLsb' 8 8)
      | some (.abortedFrame _ h _) => some (h.extractLsb' 8 8)
      | _ => none
    bytes (line x {}) .good = some 4 ∧ bytes (line { x with poison := true } {}) .good = some 5 ∧
      bytes ((line x {}).updLink 0 fun l => { l with board := { l.board with maxWords := 0 } }) .good = some 12 ∧
      bytes (line x {}) (.badBefore 0) = some 5 ∧ bytes (line x {}) (.badDuring 0 1) = some 4 ∧
      bytes (line { x with complete := false } {}) .good = none := by decide

/-- A frame cut off gives the payload symbols already sent (R250). -/
theorem test_frame_cut : (after (line { page := 7, line := 0, words := 1, complete := true, image := [1, 2, 3, 4] } {})
    (.lineFrame 0 (.badDuring 0 2))).out.head? = some (.abortedFrame 0 (frameHeader 0 1 4 1 0 7 0 0) [1, 2]) := by decide

/-- Link 0 serves a line of the compressed strip, its engine in a state. -/
def stream (d : Inflate) (f : Fetch) : State :=
  let s := ({ paging with strips := [rawStrip, { openStrip with lines := 1 }] } : State).updSeq fun q => { q with
    pages := [{ page with links := vset page.links 0 { strip := 0x2001, lines := 1 } }] }
  ((s.updLink 0 fun l => { l with slots := [{ page := 7, line := 0, words := 1 }], engine := some 0
                                  fetch := { f with busy := true, page := 7 } })).updEngine 0 fun x =>
    { x with dec := d, input := [(0, 0x04030207)] }

/-- What becomes of the slot. -/
def slotAfter (s : State) : Option (Bool × Bool × List Byte) :=
  (after s (.decodeLineComplete 0 none)).links[(0 : Fin 32)].slots.head?.map fun x => (x.complete, x.poison, x.image)

theorem test_stream_full : slotAfter (stream { block := .stored 4 } {}) = some (true, false, [7, 2, 3, 0]) ∧
    ((stream { block := .stored 4 } {}).pageStrip { page with links := vset page.links 0 { strip := 0x2001, lines := 1 } } 0).map
      (·.raw) = some false := by decide

/-- A stored block that goes on past the strip's last line, the end of the stream, a block of no type, and an input that ends. -/
theorem test_stream_goes_wrong : slotAfter (stream { block := .stored 5 } {}) = some (true, true, []) ∧
    slotAfter (stream { ended := true } {}) = some (true, true, []) ∧ slotAfter (stream {} {}) = some (true, true, []) ∧
    slotAfter (stream { block := .stored 4, bit := 512 } {}) = some (true, true, []) ∧
    slotAfter (stream { block := .stored 4, bit := 512 } { want := [{ addr := 0, use := .stream 1 }] }) = some (false, false, []) := by decide
theorem test_raw_line : slotAfter ((line { page := 7, line := 0, words := 1 } { busy := true, page := 7 }).updEngine 0 fun x =>
      { x with input := [(0, 0x04030207)] }) = some (true, false, [7, 2, 3, 0]) ∧
    slotAfter (line { page := 7, line := 0, words := 1 } { busy := true, page := 7, want := [{ addr := 0, use := .raw 0 }] }) =
      some (false, false, []) := by decide
theorem test_engine_fails : (after (stream {} {}) (.decodeLineComplete 0 (some 0))).engines[(0 : Fin 34)].st = .out := by decide

/-! ### Return frames -/

/-- A return frame with the CRC of its contents. -/
def ret (rtype : Nat) (seq : Byte) (payload : List Byte) : ReturnFrame :=
  { seq := seq, payload := payload, crc := crc32 (leBytes 1 rtype ++ [seq] ++ leBytes 2 payload.length ++ leBytes 4 0 ++ payload) }

theorem ret_good (rtype lo hi : Nat) (seq : Byte) (payload : List Byte) (h1 : lo ≤ payload.length) (h2 : payload.length ≤ hi) :
    goodReturn (ret rtype seq payload) rtype lo hi = true := by
  simp [goodReturn, ret, h1, h2]

/-- Frames of each type with the shortest and the longest payload. -/
theorem test_returns_good : goodReturn (ret 1 0 (List.replicate 16 0)) 1 16 16 = true ∧ goodReturn (ret 2 0 [0]) 2 1 240 = true ∧
    goodReturn (ret 2 0 (List.replicate 240 0)) 2 1 240 = true ∧ goodReturn (ret 3 0 []) 3 0 0 = true ∧
    goodReturn (ret 4 0 (List.replicate 32 0)) 4 32 32 = true ∧ goodReturn (ret 5 0 []) 5 0 0 = true ∧
    goodReturn (ret 6 0 (List.replicate 2304 0)) 6 2304 2304 = true :=
  ⟨ret_good 1 16 16 0 _ (by simp) (by simp), ret_good 2 1 240 0 _ (by simp) (by simp), ret_good 2 1 240 0 _ (by simp) (by simp),
    ret_good 3 0 0 0 _ (by simp) (by simp), ret_good 4 32 32 0 _ (by simp) (by simp), ret_good 5 0 0 0 _ (by simp) (by simp),
    ret_good 6 2304 2304 0 _ (by simp) (by simp)⟩

/-- A payload of a wrong length, of every type. -/
theorem test_returns_bad : goodReturn (ret 1 0 []) 1 16 16 = false ∧ goodReturn (ret 2 0 []) 2 1 240 = false ∧
    goodReturn (ret 3 0 [0]) 3 0 0 = false ∧ goodReturn (ret 4 0 []) 4 32 32 = false ∧ goodReturn (ret 5 0 [0]) 5 0 0 = false ∧
    goodReturn (ret 6 0 []) 6 2304 2304 = false ∧ goodReturn { ret 3 0 [] with crc := 0 } 3 0 0 = false := by decide
theorem test_bad_return_counts : (after up (.ackFrame 0 {})).links[(0 : Fin 32)].badReturns = 1 ∧
    (after up (.invalidReturnFrame 0)).links[(0 : Fin 32)].badReturns = 1 := by decide

/-! ### Training -/

/-- Link 0 in a training step that began at a time, with an ECHO whose SEQ is 5 on its way. -/
def training (st : TrainStep) (t : Nat) : State :=
  up.updLink 0 fun l => { l with st := .untrained, step := st, stepStart := t, echoes := 64, trips := List.replicate 63 100, awaited := [5] }

theorem test_training_steps : (∀ st ∈ [TrainStep.search, .ident, .test, .status, .measure],
      1000000000 ≤ 900000000 + (training st 900000000).links[(0 : Fin 32)].step.limit) ∧
    0 + (training .ident 0).links[(0 : Fin 32)].step.limit < (training .ident 0).time ∧
    (training .measure 680000000).time ≤ 680000000 + TrainStep.measure.limit ∧
    679999999 + TrainStep.measure.limit < (training .measure 679999999).time ∧
    (5 : Byte) ∈ (training .measure 0).links[(0 : Fin 32)].awaited ∧ (6 : Byte) ∉ (training .measure 0).links[(0 : Fin 32)].awaited := by
  decide
theorem test_training_measure : (training .measure 900000000).links[(0 : Fin 32)].trips.length < 64 ∧
    (100 :: List.replicate 63 100).foldl max 0 - (100 :: List.replicate 63 100).foldl min 100 ≤ 8 ∧
    (108 :: List.replicate 63 100).foldl max 0 - (108 :: List.replicate 63 100).foldl min 108 = 8 ∧
    8 < (109 :: List.replicate 63 100).foldl max 0 - (109 :: List.replicate 63 100).foldl min 109 := by decide
theorem test_training_passes : (after (training .measure 900000000) (.echoReply 0 (ret 5 5 []) 100)).links[(0 : Fin 32)].st = .up := by
  decide
theorem test_training_rejoins : ((after ((training .measure 900000000).updLink 0 fun l => { l with st := .down })
      (.echoReply 0 (ret 5 5 []) 100)).links[(0 : Fin 32)].st = .rejoin) ∧
    (after (training .measure 900000000) (.echoReply 0 (ret 5 5 []) 109)).links[(0 : Fin 32)].trainCause = 6 := by decide
theorem test_measure_due : let l := (up.updLink 0 fun l => { l with step := .measure, stepStart := 1000000000 }).links[(0 : Fin 32)]
    l.echoes < 64 ∧ l.step = .measure ∧ l.stepStart + l.echoes * 4096 * up.symOf 0 ≤ up.time ∧
    ¬(training .measure 0).links[(0 : Fin 32)].echoes < 64 := by decide
theorem test_measure_sends : (after (up.updLink 0 fun l => { l with step := .measure, stepStart := 1000000000 })
    (.measureEcho 0)).links[(0 : Fin 32)].awaited = [0] := by decide
theorem test_comma : (after (training .search 900000000) (.commaAlignment 0 1024)).links[(0 : Fin 32)].step = .ident ∧
    (after (training .search 900000000) (.commaAlignment 0 1023)).links[(0 : Fin 32)].step = .search ∧
    (after up (.commaAlignment 0 1024)).links[(0 : Fin 32)].step = .idle := by decide
theorem test_training_late : (after (training .ident 0) (.trainingStepTimeout 0)).links[(0 : Fin 32)].trainCause = TrainStep.ident.cause := by
  decide

/-- Declarations of a board that fits the link at its rate, of one without the rate, and of one with a buffer only. -/
def ident : BitVec 256 := BitVec.ofNat 256 0x4000002010000000010

theorem test_ident : (Board.of ident).rates.getLsbD 0 = true ∧ (Board.of ident).buffers = 2 ∧ (Board.of ident).maxWords = 1024 ∧
    (Board.of 0).rates.getLsbD 0 = false ∧
    (Board.of (BitVec.ofNat 256 0x4000001010000000010)).rates.getLsbD 0 = true ∧
    (Board.of (BitVec.ofNat 256 0x4000001010000000010)).buffers = 1 ∧
    BitVec.ofNat 256 (leNat (leBytes 32 ident.toNat)) = ident := by decide
theorem test_ident_rates : (after (training .ident 900000000) (.identFrame 0 (ret 4 5 (List.replicate 32 0)))).links[(0 : Fin 32)].trainCause = 3 := by
  decide
theorem test_ident_unsound : (after (training .ident 900000000)
    (.identFrame 0 (ret 4 5 (leBytes 32 0x4000001010000000010)))).links[(0 : Fin 32)].trainCause = 4 := by decide
theorem test_test_frames : (training .test 200000000).links[(0 : Fin 32)].testFrames + 1 < 256 ∧
    256 ≤ ((training .test 200000000).updLink 0 fun l => { l with testFrames := 255 }).links[(0 : Fin 32)].testFrames + 1 ∧
    (training .test 200000000).time ≤ 200000000 + TrainStep.test.limit := by decide
theorem test_training_status : (after ((training .status 900000000).updLink 0 fun l => { l with testBad := true })
      (.statusFrame 0 (ret 1 0 (List.replicate 16 0)))).links[(0 : Fin 32)].trainCause = 5 ∧
    (after (training .status 900000000) (.statusFrame 0 (ret 1 0 (List.replicate 16 0)))).links[(0 : Fin 32)].step = .measure ∧
    (BitVec.ofNat 128 (leNat (leBytes 16 (2 ^ 32)))).extractLsb' 32 16 = 1 := by decide

/-! ### Links in use -/

/-- Link 0 after 4,096 markers, or with an ECHO on its way. -/
def tracking (xs : List Byte) : State := up.updLink 0 fun l => { l with sinceEcho := 4096, awaited := xs }

theorem test_tracking : (tracking []).carries 0 = true ∧ (tracking []).gapFits 0 22 = true ∧
    (5 : Byte) ∈ (tracking [5]).links[(0 : Fin 32)].awaited ∧ (tracking [5]).links[(0 : Fin 32)].step ≠ .measure ∧
    (up.updLink 0 fun l => { l with sinceEcho := 4095 }).links[(0 : Fin 32)].sinceEcho < 4096 := by decide
theorem test_tracking_sends : (after (tracking [5]) (.echoTracking 0)).links[(0 : Fin 32)].awaited = [0] ∧
    (after (tracking []) (.echoTracking 0)).links[(0 : Fin 32)].sinceEcho = 0 := by decide

/-- LAT of training 16: a median of 160 is 80 from 2 x 40, which is 24 away from it, and one of 400 is 84 away. -/
theorem test_latency : (after ((tracking [5]).updLink 0 fun l => { l with lat := 40, latTrained := 16 })
      (.echoReply 0 (ret 5 5 []) 160)).links[(0 : Fin 32)].lat = 41 ∧
    (after ((tracking [5]).updLink 0 fun l => { l with lat := 40, latTrained := 16 })
      (.echoReply 0 (ret 5 5 []) 400)).links[(0 : Fin 32)].downCause = 5 ∧
    (after (tracking []) (.echoReply 0 (ret 5 5 []) 160)).links[(0 : Fin 32)].lastReturn = 1000000000 := by decide
theorem test_falls : up.links[(0 : Fin 32)].st = .up ∧ up.links[(1 : Fin 32)].st ≠ .up ∧ up.links[(0 : Fin 32)].step ≠ .status ∧
    up.carries 0 = true ∧ 984000000 + 16000000 ≤ up.time ∧ up.time < 984000001 + 16000000 ∧
    (BitVec.ofNat 128 (leNat (leBytes 16 (2 ^ 81)))).getLsbD 81 = true := by decide
theorem test_falls_act : (after up (.lossOfSignal 0 160000)).links[(0 : Fin 32)].downCause = 1 ∧
    (after up (.lossOfSignal 0 159999)).links[(0 : Fin 32)].st = .up ∧ (after up (.codeErrors 0 4096)).links[(0 : Fin 32)].downCause = 2 ∧
    (after up (.codeErrors 0 4097)).links[(0 : Fin 32)].st = .up ∧ (after up (.statusTimeout 0)).links[(0 : Fin 32)].downCause = 3 := by
  decide

/-- Four frames discarded since a STATUS frame 256 markers ago; with one 257 markers ago the frame is kept. -/
theorem test_falls_discards : let s (m : Nat) : State := up.updLink 0 fun l => { l with statuses := [(0, 0)], marked := m }
    let f : ReturnFrame := ret 1 0 (leBytes 16 (4 * 2 ^ 32))
    (after (s 256) (.statusFrame 0 f)).links[(0 : Fin 32)].downCause = 4 ∧
      (after (s 257) (.statusFrame 0 f)).links[(0 : Fin 32)].st = .up := by decide
theorem test_fault_bit : (after up (.statusFrame 0 (ret 1 0 (leBytes 16 (2 ^ 81))))).links[(0 : Fin 32)].downCause = 6 ∧
    (after up (.statusFrame 0 (ret 1 0 (List.replicate 16 0)))).links[(0 : Fin 32)].st = .up := by decide

/-- A LINK_MSG that waits for a gap, or for its ACK. -/
def sending (q : Option Byte) (t : Nat) : State := (waits .event 0x35 (pkt 0 0 0 4 0 0)).updLink 0 fun l => { l with
  sending := some { cmd := 0, start := t, sentAt := t, seq := q } }

theorem test_message_ends : (sending none 0).links[(0 : Fin 32)].sending = some { cmd := 0, start := 0, sentAt := 0 } ∧
    (sending (some 3) 0).links[(0 : Fin 32)].sending = some { cmd := 0, start := 0, sentAt := 0, seq := some 3 } ∧
    840000000 + 160000000 ≤ (sending none 840000000).time ∧ (sending none 840000001).time < 840000001 + 160000000 ∧
    ((sending none 0).findCmd 0).isSome = true ∧ up.links[(0 : Fin 32)].sending = none ∧ up.links[(0 : Fin 32)].inbox.length < 8 ∧
    8 ≤ (up.updLink 0 fun l => { l with inbox := List.replicate 8 [] }).links[(0 : Fin 32)].inbox.length := by decide
theorem test_message_acts : (after (sending none 840000000) (.messageGapTimeout 0)).cmds = [] ∧
    (after (sending none 840000001) (.messageGapTimeout 0)).cmds ≠ [] ∧ (after (sending (some 3) 840000000) (.ackTimeout 0)).cmds = [] ∧
    (after (sending (some 3) 840000001) (.ackTimeout 0)).cmds ≠ [] ∧
    (after (sending (some 3) 0) (.ackFrame 0 (ret 3 3 []))).cmds = [] ∧
    (after (sending (some 3) 0) (.ackFrame 0 (ret 3 4 []))).cmds ≠ [] ∧
    (after up (.messageFrame 0 (ret 2 0 [9]))).links[(0 : Fin 32)].inbox = [[9]] := by decide

/-! ### Clocks, resets, heat and the sideband -/

/-- The MEM loop in a state, at the end of a window that began at 0. -/
def mem (k : Loop) (t : Nat := 409600) : State :=
  { up with time := t, clk := { up.clk with loops := #v[{ st := .locked }, k, { st := .locked }] } }

theorem test_windows : (mem { st := .acquire, inTol := 15 }).clk.loops[(1 : Fin 3)].inTol + 1 = 16 ∧
    (mem { st := .acquire, inTol := 14 }).clk.loops[(1 : Fin 3)].inTol + 1 < 16 ∧
    (mem { st := .locked, missed := 1 }).clk.loops[(1 : Fin 3)].missed ≠ 0 ∧ (mem { st := .locked }).clk.loops[(1 : Fin 3)].missed = 0 ∧
    (300 : Int).natAbs ≤ 300 ∧ 300 < (301 : Int).natAbs ∧
    (-1000 : Int).natAbs ≤ 1000 ∧ 1000 < (-1001 : Int).natAbs ∧ (mem {}).clk.loops[(1 : Fin 3)].st = .off ∧
    (mem {}).clk.loops[(1 : Fin 3)].window + 409600 ≤ (mem {}).time ∧
    ¬(mem {} 409599).clk.loops[(1 : Fin 3)].window + 409600 ≤ (mem {} 409599).time ∧
    (mem { st := .stopped }).clk.loops[(1 : Fin 3)].st = .stopped ∧
    ({ mem { st := .acquire } with clk := { (mem { st := .acquire }).clk with refOk := false } } : State).clk.refOk = false := by decide
theorem test_window_locks : (after (mem { st := .acquire, inTol := 15 }) (.lockWindow 1 300 0)).clk.loops[(1 : Fin 3)].st = .locked ∧
    (after (mem { st := .acquire, inTol := 15 }) (.lockWindow 1 301 0)).clk.loops[(1 : Fin 3)].inTol = 0 ∧
    (after (mem { st := .acquire, inTol := 15 } 409599) (.lockWindow 1 300 0)).clk.loops[(1 : Fin 3)].st = .acquire ∧
    (after (mem { st := .locked, missed := 1 }) (.lockWindow 1 (-1001) 0)).clk.loops[(1 : Fin 3)].st = .coasting ∧
    (after (mem { st := .locked, missed := 1 }) (.lockWindow 1 (-1000) 0)).clk.loops[(1 : Fin 3)].missed = 0 := by decide

/-- A change of MEM under way, or its way back. -/
def changing (b : Bool) (t : Nat) : State :=
  let s := mem { st := .relock, inTol := 15 } t
  { s with clk := { s.clk with change := some { loop := 1, former := {}, target := {}, start := 0, back := b } } }

theorem test_change_late : (changing false 320000000).clk.change = some { loop := 1, former := {}, target := {}, start := 0 } ∧
    (changing false 320000000).clk.loops[(1 : Fin 3)].st = .relock ∧ 0 + 320000000 ≤ (changing false 320000000).time ∧
    ¬0 + 320000000 ≤ (changing false 319999999).time ∧
    (changing true 0).clk.change.map Change.back = some true ∧ up.clk.change = none := by decide
theorem test_change_ends : (after (changing false 320000000) (.freqChangeTimeout 1)).clk.reason = 7 ∧
    (after (changing false 319999999) (.freqChangeTimeout 1)).clk.reason = 0 ∧
    (after (changing true 320000000) (.freqChangeTimeout 1)).boot.lastReset = 5 := by decide
theorem test_coasting : (mem { st := .coasting, monBad := 1 }).clk.loops[(1 : Fin 3)].monBad ≠ 0 ∧
    (mem { st := .coasting }).clk.loops[(1 : Fin 3)].monBad = 0 ∧
    (mem { st := .coasting }).stopRan = false ∧ (10 : Int).natAbs ≤ 10 ∧ 10 < (11 : Int).natAbs ∧
    (mem { st := .coasting } 160000000000).clk.loops[(1 : Fin 3)].coastFrom + 160000000000 ≤ 160000000000 ∧
    ({ up with clk := { up.clk with stopped := true } } : State).stopRan = true := by decide
theorem test_trust_ends : (after (mem { st := .coasting } 160000000000) (.coastTrust 1)).clk.stopped = true ∧
    (after (mem { st := .coasting } 159999999999) (.coastTrust 1)).clk.stopped = false := by decide
theorem test_calibration : (after (mem { st := .locked } 160000000) .monitorCalibration).clk.calibrated = 160000000 ∧
    (after (mem { st := .locked } 159999999) .monitorCalibration).clk.calibrated = 0 ∧
    ({ up with clk := {} } : State).clk.refOk = false ∧ (∀ i : LoopId, State.reset.clk.loops[i].st ≠ .locked) := by decide
theorem test_reference : (after up (.refLost 4)).clk.refOk = false ∧ (after up (.refLost 3)).clk.refOk = true ∧
    (after { up with clk := {} } (.refPresent 1024)).clk.refOk = true ∧
    (after { up with clk := {} } (.refPresent 1023)).clk.refOk = false ∧ State.reset.clk.refOk = false ∧ State.reset.boot.stage = 0 ∧
    (∃ l : LoopId, up.clk.loops[l].st = .locked) ∧ ∃ l : LoopId, State.reset.clk.loops[l].st ≠ .locked := by decide

theorem test_resets : (after up (.sysRstN 1000)).boot.lastReset = 1 ∧ (after up (.sysRstN 999)).boot.stage = 7 ∧
    (after up (.powerOnReset true 1)).boot.stage = 0 := by decide
theorem test_reset_due : let s (t : Nat) (f : Bool) : State := { up with boot := { up.boot with resetAt := some (t, f) } }
    (after (s 1000000000 true) .deviceReset).boot.lastReset = 2 ∧ (after (s 1000000000 false) .deviceReset).boot.lastReset = 3 ∧
      (after (s 1000000001 true) .deviceReset).boot.stage = 7 := by decide

/-- A start under way. -/
def booting (f : Nat) (forced : Bool) : State := { State.reset with boot := { stage := 1, fails := f, force := forced } }

/-- Images for two ranks on each channel in the slots, signed or not. -/
def images (a b : Bool) : BootInput :=
  { slotA := { signed := a, ranksA := 2, ranksB := 2 }, slotB := { signed := b, ranksA := 2, ranksB := 2 } }

theorem test_start : (booting 0 false).starting = true ∧ up.starting = false ∧
    imageResult (images true false).slotA .zr3218 (images true false).revoked = 0 ∧
    imageResult (images true false).slotB .zr3218 (images true false).revoked ≠ 0 ∧
    (booting 0 false).chooseMap (images true false).slotA (images true false) = some (false, 0) ∧
    (booting 0 false).chooseMap {} (images false false) = none ∧ (booting 3 false).boot.fails = 3 ∧ (booting 2 false).boot.fails ≠ 3 ∧
    (booting 0 true).boot.force = true ∧ committedB (booting 0 false).boot.recs = false := by decide
theorem test_start_banked : (after (booting 3 false) (.bootStart (images true true))).boot.stage = 15 ∧
    (after (booting 0 true) (.bootStart (images true true))).boot.cause = 8 := by decide
theorem test_start_fails : (after (booting 0 false) (.bootStart (images false false))).boot.fails = 1 ∧
    (after (booting 0 false) (.bootStart { slotA := { signed := true } })).boot.cause = 2 := by decide
theorem test_starts_end : (after (booting 0 false) (.loopLockTimeout 0)).boot.cause = 3 ∧
    (after { booting 0 false with time := 320000000000 } .bootWatchdog).boot.cause = 4 ∧
    (after { booting 0 false with time := 319999999999 } .bootWatchdog).boot.fails = 0 ∧ (after up .trap).boot.cause = 5 := by decide
theorem test_running_long : let s (t : Nat) : State := { up with time := t, boot := { up.boot with fails := 2 } }
    (after (s 1600000000000) .failCountClear).boot.fails = 0 ∧ (after (s 1599999999999) .failCountClear).boot.fails = 2 := by decide

/-- Every rail reported low. -/
def warned : State := { up with power := { up.power with warned := Vector.replicate 7 true } }

theorem test_rails : up.power.warned[(1 : Fin 7)] = false ∧ warned.power.warned[(0 : Fin 7)] = true ∧
    (after warned (.supplyRecovered 0)).logs.error = [] ∧ (after warned (.supplyRecovered 1)).logs.error ≠ [] ∧
    (after up (.supplyStop 1 1000)).boot.cause = 7 ∧ (after up (.supplyStop 1 999)).boot.stage = 7 ∧
    (after up (.supplyStop 0 1000)).boot.stage = 7 := by decide
theorem test_die : 1680 < (1681 : BitVec 16).toInt ∧ ¬1680 < (1680 : BitVec 16).toInt ∧ 1840 ≤ (1840 : BitVec 16).toInt ∧
    ¬1840 ≤ (1839 : BitVec 16).toInt ∧ (1599 : BitVec 16).toInt < 1600 ∧ (0x8000 : BitVec 16).toInt < 1600 ∧
    up.power.thermalStop = false ∧ up.power.dieWarn = false ∧
    ({ up with power := { up.power with thermalStop := true, dieWarn := true } } : State).power.thermalStop = true := by decide
theorem test_die_acts : (after up (.dieWarning 1681)).power.dieWarn = true ∧ (after up (.dieWarning 1680)).power.dieWarn = false ∧
    (after up (.thermalStop 1840)).power.cause = 2 ∧ (after up (.thermalStop 1839)).power.thermalStop = false ∧
    (after (booting 0 false) (.thermalStop 1840)).boot.cause = 6 ∧
    (after ({ up with power := { up.power with dieWarn := true } } : State) (.dieWarningRearm 1599)).power.dieWarn = false := by decide

/-- ARM received 0x4D at a time. -/
def armed (t : Nat) (on : BitVec 8) : State := { up with power := { on := on, armed := some t } , time := 2000000000 }

theorem test_armed : (armed 400000000 0xFF).time ≤ 400000000 + 1600000000 ∧ ¬(armed 399999999 0xFF).time ≤ 399999999 + 1600000000 ∧
    (armed 400000000 0xFB).domainOn 2 = false ∧ (armed 400000000 0xFF).domainOn 2 = true ∧ (armed 400000000 0xFF).banked = false ∧
    (booting 0 false).boot.stage ≠ 0 ∧ State.reset.boot.stage = 0 := by decide
theorem test_shutdown_may : (([5, 4, 3] : List DomainId).filter fun d => (armed 400000000 0xFF).domainOn d.val).all
    (((armed 400000000 0xFF).updPower fun p => { p with armed := none }).haltNow).mayLeave = true := by decide
theorem test_host_off : (after (armed 400000000 0xFF) .mgmtHostOff).power.on = 0xFB ∧
    (after (armed 399999999 0xFF) .mgmtHostOff).power.on = 0xFF ∧ (after (armed 400000000 0xFB) .mgmtHostOn).power.on = 0xFF := by decide
theorem test_arms : (after up (.arm 0x4D)).power.armed = some 1000000000 ∧ (after up (.arm 0x4E)).power.armed = none ∧
    (after State.reset (.arm 0x4D)).power.armed = none := by decide
theorem test_shutdown : (after (armed 400000000 0xFF) .mgmtShutdown).power.todo = [(5, false), (4, false), (3, false)] := by decide

end Sys2Proof.Tests
end

section
/-! SUPPORT. Requests at a port and accesses to BAR0 (R9, R21, R29, R419): one equation for each case of a request, of an
access by alignment and size, and of a dword read or written. -/

namespace Sys2Proof.Machine

namespace State

/-! ### Requests at a port -/

theorem reachesPort_iff {s : State} {h : HostId} :
    s.reachesPort h = true ↔ s.portUp h = true ∧ s.serves = true ∧ s.hosts[h].pci.d3hot = false := by
  simp [reachesPort, and_assoc]

theorem request_of_reachesPort {s : State} {h : HostId} (hp : s.reachesPort h = true) (act : State → State) :
    s.request h act = act s := by
  obtain ⟨hup, hserves, hd0⟩ := reachesPort_iff.mp hp
  simp only [request, hup, hserves, hd0, Bool.not_true, Bool.not_false, Bool.and_self, Bool.false_eq_true, if_false, if_true]

theorem request_of_not_served {s : State} {h : HostId} (hup : s.portUp h = true)
    (hno : s.serves = false ∨ s.hosts[h].pci.d3hot = true) (act : State → State) :
    s.request h act = s.emit (.unsupported h) := by
  obtain hserves | hd3 := hno
  · simp [request, hup, hserves]
  · simp only [request, hup, hd3, Bool.not_true, Bool.and_false, Bool.false_eq_true, if_false]

/-! ### Accesses that BAR0 does not accept -/

theorem accepts_iff {off size : Nat} : accepts off size = true ↔ off % 4 = 0 ∧ (size = 4 ∨ size = 8) := by
  simp [accepts]

@[simp] theorem accepts_four (off : Nat) : accepts off 4 = decide (off % 4 = 0) := by
  rw [Bool.eq_iff_iff, accepts_iff]
  simp

@[simp] theorem badAccess_read_out (s : State) (h : HostId) (off size : Nat) :
    (s.badAccess h false off size).out = .readData h 0xFFFFFFFF :: s.out := rfl

theorem badAccess_read_frame (s : State) (h : HostId) (off size : Nat) :
    let t := s.badAccess h false off size
    t = { s with logs := t.logs, out := t.out } := rfl

@[simp] theorem badAccess_write_out (s : State) (h : HostId) (off size : Nat) :
    (s.badAccess h true off size).out = .ack h :: s.out := by
  simp only [badAccess, if_true]
  split <;> rfl

theorem badAccess_write_frame {s : State} {h : HostId} (hf : s.hosts[h].st ≠ .fenced) (off size : Nat) :
    let t := s.badAccess h true off size
    t = { s with logs := t.logs, out := t.out } := by
  simp only [badAccess, if_neg hf]
  rfl

/-- A FENCED host's write is counted whatever its size (R43; DEDUCED, log entry 19). -/
theorem badAccess_write_counts {s : State} {h : HostId} (hf : s.hosts[h].st = .fenced) (off size : Nat) :
    (s.badAccess h true off size).hosts[h].ignored = min 0xFFFF (s.hosts[h].ignored + 1) := by
  simp only [badAccess, if_pos hf]
  simp [countIgnored, satAdd]

/-! ### One dword -/

theorem write32_ident {s : State} {h : HostId} {off : Nat} (hf : s.hosts[h].st ≠ .fenced) (ho : off < 0x100) (v : Dword) :
    s.write32 h off v = s := by
  simp only [write32, hf, false_and, if_false, ho, if_true]

theorem write32_steward_elsewhere {s : State} {h : HostId} {off : Nat} (hf : s.hosts[h].st ≠ .fenced)
    (hlo : 0x4000 ≤ off) (hhi : off < 0x8000) (hs : s.isSteward h = false) (v : Dword) : s.write32 h off v = s := by
  have below : ∀ n ≤ 0x4000, ¬off < n := fun n hn => by omega
  simp only [write32, hf, false_and, if_false, below 0x100 (by decide), below 0x200 (by decide), below 0x300 (by decide),
    below 0x1000 (by decide), below 0x1400 (by decide), below 0x4000 (by decide), hhi, if_true, hs, Bool.false_eq_true]

theorem dark_of_not_isSteward {s : State} {h : HostId} {off : Nat} (hlo : 0x4000 ≤ off) (hhi : off < 0x8000)
    (hs : s.isSteward h = false) : s.dark h off = true := by
  simp [dark, hlo, hhi, hs]

theorem read32_of_dark {s : State} {h : HostId} {off : Nat} (hd : s.dark h off = true) :
    s.read32 h off = (s, 2 ^ 32 - 1) := by
  simp [read32, readReg, hd]

/-- The state once a read of the low half of a pair has kept the high half for the next read of it (R284, R419). -/
def latchHigh (s : State) (h : HostId) (off : Nat) : State :=
  s.updHost h fun r => { r with latch :=
    (r.latch.filter fun x => x.1 ≠ off) ++ [(off, BitVec.ofNat 32 (s.readReg h (off + 4)))] }

theorem mem_latch_latchHigh (s : State) (h : HostId) (off : Nat) :
    (off, BitVec.ofNat 32 (s.readReg h (off + 4))) ∈ (s.latchHigh h off).hosts[h].latch := by
  simp [latchHigh]

theorem latchHigh_frame (s : State) (h : HostId) (off : Nat) :
    s.latchHigh h off = s.updHost h fun r => { r with latch := (s.latchHigh h off).hosts[h].latch } := by
  simp [latchHigh, updHost, vmod]

theorem read32_of_pairLow {s : State} {h : HostId} {off : Nat} (hd : s.dark h off = false) (hl : pairLow off = true) :
    s.read32 h off = (s.latchHigh h off, s.readReg h off) := by
  simp [read32, latchHigh, hd, hl]

theorem read32_of_not_latched {s : State} {h : HostId} {off : Nat} (hd : s.dark h off = false) (hl : pairLow off = false)
    (hn : ∀ x ∈ s.hosts[h].latch, x.1 + 4 ≠ off) : s.read32 h off = (s, s.readReg h off) := by
  have none_latched : (s.hosts[h].latch.find? fun x => x.1 + 4 = off) = none := by
    simpa [List.find?_eq_none] using hn
  simp only [read32, hd, hl, none_latched, Bool.false_eq_true, if_false]

/-! ### Accesses that reach BAR0 -/

section
variable {s : State} {h : HostId} {off : BitVec 16} (hp : s.reachesPort h = true)
include hp

theorem writeBar_misaligned (ha : off.toNat % 4 ≠ 0) (wide : Bool) (v : BitVec 64) :
    s.writeBar h off wide v = s.badAccess h true off.toNat (if wide then 8 else 4) := by
  simp [writeBar, request_of_reachesPort hp, ha]

theorem readBar_misaligned (ha : off.toNat % 4 ≠ 0) (wide : Bool) :
    s.readBar h off wide = s.badAccess h false off.toNat (if wide then 8 else 4) := by
  simp [readBar, request_of_reachesPort hp, ha]

theorem writeBar_dword (ha : off.toNat % 4 = 0) (v : BitVec 64) :
    s.writeBar h off false v = s.write32 h off.toNat (v.extractLsb' 0 32) := by
  simp [writeBar, request_of_reachesPort hp, ha]

theorem writeBar_wide (ha : off.toNat % 4 = 0) (hf : s.hosts[h].st ≠ .fenced) (v : BitVec 64) :
    s.writeBar h off true v =
      (s.write32 h off.toNat (v.extractLsb' 0 32)).write32 h (off.toNat + 4) (v.extractLsb' 32 32) := by
  simp only [writeBar, request_of_reachesPort hp, if_neg hf, accepts_four, ha, decide_true, Bool.not_true,
    Bool.false_eq_true, Bool.true_eq_false, if_false]

theorem readBar_gated (ha : off.toNat % 4 = 0) (hc : s.coreRuns = false) (wide : Bool) :
    s.readBar h off wide = { s with reads := s.reads ++ [(h, off, wide)] } := by
  simp [readBar, request_of_reachesPort hp, ha, hc]

theorem readBar_dword {t : State} {x : Nat} (ha : off.toNat % 4 = 0) (hc : s.coreRuns = true)
    (hr : s.read32 h off.toNat = (t, x)) : s.readBar h off false = t.emit (.readData h (BitVec.ofNat 64 x)) := by
  simp [readBar, request_of_reachesPort hp, ha, hc, readAccess, hr]

end

end State

/-! ### The rows -/

theorem exec_registerWrite (h : HostId) (off : BitVec 16) (wide : Bool) (v : BitVec 64) (s : State) :
    exec (.registerWrite h off wide v) s = .next (s.writeBar h off wide v) := rfl

theorem exec_registerPairRead (h : HostId) (off : BitVec 16) (wide : Bool) (s : State) :
    exec (.registerPairRead h off wide) s = .next (s.readBar h off wide) := rfl

theorem exec_barAccess_accepted {off : BitVec 16} {size : Nat} (ha : State.accepts off.toNat size = true) (h : HostId)
    (write : Bool) (s : State) : exec (.barAccess h write off size) s = .next s :=
  congrArg Host.Outcome.next (if_pos ha)

theorem exec_barAccess_odd {off : BitVec 16} {size : Nat} (ha : ¬State.accepts off.toNat size = true) (h : HostId)
    (write : Bool) (s : State) : exec (.barAccess h write off size) s =
      .next (s.request h fun t => t.badAccess h write off.toNat size) :=
  congrArg Host.Outcome.next (if_neg ha)

theorem exec_unsupportedRequest {s : State} {h : HostId} (hup : s.portUp h = true) (write : Bool) (addr : BitVec 64) :
    exec (.unsupportedRequest h write addr) s = .next (s.emit (.unsupported h)) :=
  congrArg Host.Outcome.next (if_pos hup)

/-! ### The clauses on accesses by offset -/

theorem barAccesses : Clause.BarAccesses := by
  intro s h off wide v hp
  refine ⟨fun ha => ⟨?dword, ?wide, ?ident, ?steward, ?gated, fun hc hw => ⟨?dark, ?pair, ?plain⟩⟩, fun ha => ?misaligned⟩
  case dword =>
    rintro rfl
    rw [exec_registerWrite, State.writeBar_dword hp ha]
  case wide =>
    rintro rfl hf
    rw [exec_registerWrite, State.writeBar_wide hp ha hf]
  case ident =>
    rintro rfl hf ho
    rw [exec_registerWrite, State.writeBar_dword hp ha, State.write32_ident hf ho]
  case steward =>
    rintro rfl hf hlo hhi hs
    rw [exec_registerWrite, State.writeBar_dword hp ha, State.write32_steward_elsewhere hf hlo hhi hs]
  case gated =>
    intro hc
    rw [exec_registerPairRead, State.readBar_gated hp ha hc]
  case dark =>
    subst hw
    intro hlo hhi hs
    rw [exec_registerPairRead, State.readBar_dword hp ha hc (State.read32_of_dark (State.dark_of_not_isSteward hlo hhi hs))]
    rfl
  case pair =>
    subst hw
    intro hd hl
    rw [exec_registerPairRead, State.readBar_dword hp ha hc (State.read32_of_pairLow hd hl)]
    refine ⟨_, rfl, rfl, ?_, ?_⟩
    · exact List.mem_map_of_mem (f := fun x => (x.1 + 4, x.2)) (State.mem_latch_latchHigh s h off.toNat)
    · exact congrArg (State.emit · _) (State.latchHigh_frame s h off.toNat)
  case plain =>
    subst hw
    intro hd hl hn
    rw [exec_registerPairRead, State.readBar_dword hp ha hc (State.read32_of_not_latched hd hl hn)]
  case misaligned =>
    rw [exec_registerWrite, exec_registerPairRead, State.writeBar_misaligned hp ha, State.readBar_misaligned hp ha]
    exact ⟨_, _, rfl, rfl, ⟨[.ack h], State.badAccess_write_out .., List.mem_singleton.mpr rfl⟩,
      ⟨[.readData h 0xFFFFFFFF], State.badAccess_read_out .., List.mem_singleton.mpr rfl⟩, State.badAccess_read_frame ..⟩

theorem oddAccesses : Clause.OddAccesses := by
  intro s h write off size addr hup good
  have accepts_good : State.accepts off.toNat size = true ↔ good := State.accepts_iff
  refine ⟨fun hserves hd0 hbad => ?served, fun hgood => ?good, exec_unsupportedRequest hup write addr,
    fun hno hbad => ?unserved⟩
  case served =>
    have hp : s.reachesPort h = true := State.reachesPort_iff.mpr ⟨hup, hserves, hd0⟩
    rw [exec_barAccess_odd (accepts_good.not.mpr hbad), State.request_of_reachesPort hp]
    refine ⟨?reads, ?writes, ?counts⟩
    case reads =>
      rintro rfl
      exact ⟨_, rfl, State.badAccess_read_frame .., State.badAccess_read_out ..⟩
    case writes =>
      rintro rfl hf
      exact ⟨_, rfl, State.badAccess_write_frame hf .., State.badAccess_write_out ..⟩
    case counts =>
      rintro rfl hf
      exact ⟨_, rfl, State.badAccess_write_counts hf .., State.badAccess_write_out ..⟩
  case good =>
    exact exec_barAccess_accepted (accepts_good.mpr hgood) h write s
  case unserved =>
    rw [exec_barAccess_odd (accepts_good.not.mpr hbad), State.request_of_not_served hup hno]

/-- Settles O37: a request that reaches BAR0 is accepted or not by its alignment and size, and each case has its equation
above. -/
theorem registerAccesses : Obligations.RegisterAccesses := ⟨barAccesses, oddAccesses⟩

end Sys2Proof.Machine
end

section
/-! SUPPORT. The state after power-on reset, part by part. -/

namespace Sys2Proof.Machine

theorem resetParts_zr3218 (p : Fin 16) : (resetParts .zr3218)[p.val] =
    { reserved := if h : p.val < 4 then some ⟨p.val, h⟩ else none } := by
  simp only [resetParts, Vector.getElem_ofFn]
  split
  · rw [if_pos (by simpa [Part.ports] using ‹p.val < 4›)]
  · rfl

theorem resetLinks_zr3218 (n : LinkId) : (resetLinks .zr3218)[n.val].st = .disabled := by
  simp [resetLinks, Part.links]

/-- Settles O3: the scalar parts of the reset state are as written, and each vector part is read at one place. -/
theorem resetState : Obligations.ResetState := by
  refine ⟨rfl, rfl, rfl, rfl, rfl, fun h => ?hosts, fun p => ?parts, rfl, fun n => ?routes, fun c => ?chans, fun n => ?links,
    fun l => ?loops, rfl, rfl, rfl⟩
  case hosts =>
    have fresh : State.reset.hosts[h] = {} := by simp [State.reset, State.init]
    refine ⟨by rw [fresh], by rw [fresh], by rw [fresh], fun q => ?_⟩
    rw [State.queue, fresh]
    revert q
    decide
  case parts =>
    have part : State.reset.parts[p] = _ := resetParts_zr3218 p
    rw [part]
    exact ⟨rfl, rfl⟩
  case routes =>
    revert n
    decide
  case chans =>
    revert c
    decide
  case links => exact resetLinks_zr3218 n
  case loops =>
    revert l
    decide

end Sys2Proof.Machine
end

section
/-! SUPPORT. What the writes of a port, the heartbeat and the mailbox do, case by case. -/

namespace Sys2Proof.Machine

namespace State

/-! ### Writes of a port -/

/-- A write that a FENCED host may not make is ignored and counted (R43). -/
theorem writeAs_fenced {s : State} {h : HostId} (hp : s.reachesPort h = true) (hf : s.hosts[h].st = .fenced)
    (act : State → State) : s.writeAs h act = s.countIgnored h := by
  rw [writeAs, request_of_reachesPort hp, if_pos hf]

theorem takesWrite_iff {s : State} {h : HostId} :
    s.takesWrite h = true ↔ s.reachesPort h = true ∧ s.hosts[h].st ≠ .fenced := by
  simp [takesWrite]

/-- A write that its port takes has its own effect. -/
theorem writeAs_taken {s : State} {h : HostId} (ht : s.takesWrite h = true) (act : State → State) :
    s.writeAs h act = act s := by
  obtain ⟨hp, hf⟩ := takesWrite_iff.mp ht
  rw [writeAs, request_of_reachesPort hp, if_neg hf]

theorem write32_fenced {s : State} {h : HostId} {off : Nat} (hf : s.hosts[h].st = .fenced) (ho : off ≠ 0x104) (v : Dword) :
    s.write32 h off v = s.countIgnored h := by
  rw [write32, if_pos ⟨hf, ho⟩]

/-- A FENCED host's write by offset is counted once, whatever its size, unless it covers HOST_CONTROL (R43). -/
theorem writeBar_fenced {s : State} {h : HostId} {off : BitVec 16} {wide : Bool} (hp : s.reachesPort h = true)
    (hf : s.hosts[h].st = .fenced) (ha : off.toNat % 4 = 0) (ho : off ≠ 0x104) (hw : ¬(wide = true ∧ off = 0x100))
    (v : BitVec 64) : s.writeBar h off wide v = s.countIgnored h := by
  have off_ne : off.toNat ≠ 0x104 := fun e => ho (BitVec.eq_of_toNat_eq e)
  cases wide with
  | false => rw [writeBar_dword hp ha, write32_fenced hf off_ne]
  | true =>
    have low_ne : off.toNat ≠ 0x100 := fun e => hw ⟨rfl, BitVec.eq_of_toNat_eq e⟩
    simp only [writeBar, request_of_reachesPort hp, accepts_four, ha, decide_true, Bool.not_true, Bool.false_eq_true,
      Bool.true_eq_false, if_false, if_pos hf, if_neg low_ne, write32_fenced hf off_ne]

/-! ### FENCE_ACK and HEARTBEAT -/

/-- A FENCED host's queues are empty and it is RECOVERING (R44). -/
def recovered (s : State) (h : HostId) : State :=
  s.updHost h fun r => { r with queues := r.queues.map Queue.emptied, st := .recovering }

theorem fenceAck_fenced {s : State} {h : HostId} (hf : s.hosts[h].st = .fenced) :
    s.fenceAck h = (s.recovered h).raiseHost h := by
  rw [fenceAck, if_pos hf]
  rfl

theorem fenceAck_other {s : State} {h : HostId} (hf : s.hosts[h].st ≠ .fenced) : s.fenceAck h = s := by
  rw [fenceAck, if_neg hf]

theorem raised_raiseHost (s : State) (h : HostId) : Raised s (s.raiseHost h) := raised_raise ..

theorem Raised.ignored {s t : State} (a : Raised s t) (h : HostId) : t.hosts[h.val].ignored = s.hosts[h.val].ignored := by
  obtain ⟨hs, ev, o, rfl, ha⟩ := a
  obtain ⟨b, v, hb⟩ := ha h
  simp [hb]

theorem Raised.lastHb {s t : State} (a : Raised s t) (h : HostId) : t.hosts[h.val].lastHb = s.hosts[h.val].lastHb := by
  obtain ⟨hs, ev, o, rfl, ha⟩ := a
  obtain ⟨b, v, hb⟩ := ha h
  simp [hb]

/-- Raising leaves a queue. -/
theorem Raised.queue {s t : State} (a : Raised s t) (h : HostId) (q : QueueId) : t.queue h q = s.queue h q := by
  have same : t.hosts[h].queues = s.hosts[h].queues := a.queues h
  simp only [State.queue, same]

theorem recovered_queue (s : State) (h : HostId) (q : QueueId) :
    (s.recovered h).queue h q =
      { s.queue h q with sqHead := 0, sqTail := 0, cqHead := 0, cqTail := 0, phase := true } := by
  simp [recovered, State.queue, Queue.emptied]

/-- The heartbeat of an ATTACHED host counts (R39). -/
theorem beat_attached {s : State} {h : HostId} (ha : s.hosts[h].st = .attached) :
    s.beat h = s.updHost h fun r => { r with lastHb := s.time } := by
  simp only [beat, ha]

/-- The heartbeat of a LATE host makes it ATTACHED again (R40). -/
theorem beat_late {s : State} {h : HostId} (hl : s.hosts[h].st = .late) :
    s.beat h = (s.updHost h fun r => { r with lastHb := s.time, st := .attached }).raiseHost h := by
  simp only [beat, hl]

theorem attached_iff {s : State} {h : HostId} :
    s.attached h = true ↔ s.hosts[h].st = .attached ∨ s.hosts[h].st = .late := by
  unfold attached
  cases s.hosts[h].st <;> simp

theorem beat_unattached {s : State} {h : HostId} (hn : s.attached h = false) : s.beat h = s := by
  have key : ¬(s.hosts[h].st = .attached ∨ s.hosts[h].st = .late) := by
    rw [← attached_iff, hn]
    exact Bool.false_ne_true
  unfold beat
  split
  · exact absurd (.inl ‹_›) key
  · exact absurd (.inr ‹_›) key
  · rfl

/-! ### MAILBOX_RING -/

/-- The mailboxes that a value names. -/
def namedBoxes (v : Dword) : List (Fin 8) := (List.finRange 8).filter fun k => v.getLsbD k.val

theorem foldl_vset_getElem {α : Type} {n : Nat} (l : List (Fin n)) (x : α) (v : Vector α n) (k : Fin n) :
    (l.foldl (fun f j => vset f j x) v)[k.val] = if k ∈ l then x else v[k.val] := by
  induction l generalizing v with
  | nil => simp
  | cons j l ih =>
    rw [List.foldl_cons, ih]
    by_cases hk : k ∈ l
    · simp [hk]
    · by_cases e : j = k
      · subst e
        simp [hk]
      · simp [hk, vset_other _ _ _ _ e, Ne.symm e]

/-- Steps each of which raises sources alone do so together. -/
theorem raised_foldl {α : Type} (f : State → α → State) (hf : ∀ s x, Raised s (f s x)) (l : List α) (s : State) :
    Raised s (l.foldl f s) := by
  induction l generalizing s with
  | nil => exact Raised.refl s
  | cons x l ih => exact (hf s x).trans (ih _)

/-! Raising a source leaves the record of who rang the mailboxes. -/

@[simp] theorem sendMsg_events (s : State) (h : HostId) (v : Fin 32) : (s.sendMsg h v).events = s.events := by
  unfold sendMsg
  repeat' split
  all_goals rfl

@[simp] theorem countRaise_events (s : State) (h : HostId) (v : Fin 32) : (s.countRaise h v).events = s.events := by
  unfold countRaise
  simp only
  repeat' split
  all_goals simp

@[simp] theorem deliver_events (s : State) (n : Fin 96) (h : HostId) (v : Fin 32) : (s.deliver n h v).events = s.events := by
  unfold deliver
  simp only
  split
  · rfl
  · simp

/-- Raising leaves who rang each mailbox last. -/
@[simp] theorem raise_from (s : State) (n : Fin 96) : (s.raise n).events.from_ = s.events.from_ := by
  have held (t : State) : (t.hold n).events.from_ = t.events.from_ := rfl
  unfold raise
  split
  · rfl
  · simp only
    repeat' split
    all_goals simp [held, latchPins]

theorem foldl_raise_from {α : Type} (src : α → Fin 96) (l : List α) (s : State) :
    (l.foldl (fun acc k => acc.raise (src k)) s).events.from_ = s.events.from_ := by
  induction l generalizing s with
  | nil => rfl
  | cons k l ih => rw [List.foldl_cons, ih, raise_from]

/-- The state in which the mailboxes that a value names have been rung by a host. -/
def rung (s : State) (h : HostId) (v : Dword) : State :=
  { s with events := { s.events with from_ := (namedBoxes v).foldl (fun f k => vset f k (some h)) s.events.from_ } }

theorem ring_attached {s : State} {h : HostId} (ha : s.attached h = true) (v : Dword) :
    s.ring h v = (namedBoxes v).foldl (fun acc k => acc.raise ⟨88 + k.val, by omega⟩) (s.rung h v) := by
  rw [ring, if_pos ha]
  rfl

theorem ring_unattached {s : State} {h : HostId} (ha : s.attached h = false) (v : Dword) : s.ring h v = s := by
  simp [ring, ha]

/-- The state in which the mailboxes have been rung names the writer for each mailbox of the value. -/
theorem rung_from (s : State) (h : HostId) (v : Dword) (k : Fin 8) :
    (s.rung h v).events.from_[k] = if v.getLsbD k.val then some h else s.events.from_[k] := by
  have read : (s.rung h v).events.from_[k] = if k ∈ namedBoxes v then some h else s.events.from_[k] :=
    foldl_vset_getElem ..
  simpa [namedBoxes] using read

end State

/-! ### The clauses on the host block -/

theorem fencedWritesCount : Clause.FencedWritesCount := by
  intro s h q v n m off wide x hp hf c hc
  have counted : s.countIgnored h = s.updHost h fun r => { r with ignored := min 0xFFFF (r.ignored + 1) } := rfl
  obtain hrow | hwrite := List.mem_append.mp hc
  · have row : ∃ act, exec c s = .next (s.writeAs h act) := by
      simp only [List.mem_cons, List.not_mem_nil, or_false] at hrow
      rcases hrow with rfl | rfl | rfl | rfl | rfl | rfl | rfl | rfl | rfl | rfl | rfl | rfl | rfl <;> exact ⟨_, rfl⟩
    obtain ⟨act, hact⟩ := row
    rw [hact, State.writeAs_fenced hp hf, counted]
  · split at hwrite
    · obtain ⟨ha, ho, hw⟩ := ‹_ ∧ _›
      obtain rfl := List.mem_singleton.mp hwrite
      rw [exec_registerWrite, State.writeBar_fenced hp hf ha ho hw, counted]
    · exact absurd hwrite List.not_mem_nil

theorem exec_fenceAck (h : HostId) (v : Dword) (s : State) : exec (.fenceAck h v) s =
    .next (s.request h fun t => if v.getLsbD 0 then t.fenceAck h else t) := rfl

theorem fenceAckRecovers : Clause.FenceAckRecovers := by
  intro s h v hp
  rw [exec_fenceAck, State.request_of_reachesPort hp]
  refine ⟨fun hf hv => ?_, fun hno => ?_⟩
  · have raised := State.raised_raiseHost (s.recovered h) h
    rw [if_pos hv, State.fenceAck_fenced hf]
    refine ⟨_, rfl, (raised.st h).trans ?_, (raised.ignored h).trans ?_, fun q => ?_, raised.raisedOnly⟩
    · simp [State.recovered]
    · simp [State.recovered]
    · rw [raised.queue, State.recovered_queue]
  · obtain hf | hv := hno
    · rw [State.fenceAck_other hf, ite_self]
    · rw [hv, if_neg Bool.false_ne_true]

theorem exec_heartbeatRegisterWrite (h : HostId) (v : Dword) (s : State) :
    exec (.heartbeatRegisterWrite h v) s = .next (s.writeAs h fun t => t.beat h) := rfl

theorem heartbeatWrite : Clause.HeartbeatWrite := by
  intro s h v ht
  rw [exec_heartbeatRegisterWrite, State.writeAs_taken ht]
  refine ⟨fun ha => ?attached, fun hl => ?late, fun hn => ?other⟩
  case attached => rw [State.beat_attached ha]
  case late =>
    have raised := State.raised_raiseHost (s.updHost h fun r => { r with lastHb := s.time, st := .attached }) h
    rw [State.beat_late hl]
    refine ⟨_, rfl, (raised.st h).trans ?_, (raised.lastHb h).trans ?_, raised.raisedOnly⟩ <;> simp
  case other => rw [State.beat_unattached hn]

theorem exec_mailboxRing (h : HostId) (v : Dword) (s : State) :
    exec (.mailboxRing h v) s = .next (s.writeAs h fun t => t.ring h v) := rfl

theorem mailboxRings : Clause.MailboxRings := by
  intro s h v ht
  rw [exec_mailboxRing, State.writeAs_taken ht]
  refine ⟨fun ha => ?_, fun hn => by rw [State.ring_unattached hn]⟩
  have kept : (s.ring h v).events.from_ = (s.rung h v).events.from_ := by
    rw [State.ring_attached ha, State.foldl_raise_from]
  refine ⟨_, rfl, fun k => ?_, ?_⟩
  · rw [kept, State.rung_from]
  · rw [kept, State.ring_attached ha]
    exact (State.raised_foldl _ (fun t k => State.raised_raise t _) _ (s.rung h v)).raisedOnly

/-- Settles O34: each row of the host block by the state of its host. -/
theorem hostRegisters : Obligations.HostRegisters := ⟨fencedWritesCount, fenceAckRecovers, heartbeatWrite, mailboxRings⟩

end Sys2Proof.Machine
end

section
/-! SUPPORT. What a session-only change leaves: the parts of the state outside the session, and each host's record but for its
queues, status and vectors; with it the answers of packets that run at once. -/

namespace Sys2Proof.Machine

namespace State

/-! ### Reading through a frame -/

section
variable {s t : State} (a : SessionOnly s t)
include a

/-- What does not look at the session reads the same. -/
theorem SessionOnly.same {β : Type} (g : State → β)
    (hg : ∀ x hs ev cs n o, g { x with hosts := hs, events := ev, cmds := cs, nextId := n, out := o } = g x) : g t = g s := by
  rw [a.1]
  exact hg ..

/-- What does not look at a host's queues, status and vectors reads the same of each host. -/
theorem SessionOnly.sameHost {β : Type} (g : HostRec → β)
    (hg : ∀ r q n b v, g { r with queues := q, turn := n, status := b, vecs := v } = g r) (k : HostId) :
    g t.hosts[k] = g s.hosts[k] := by
  rw [a.2.1 k]
  exact hg ..

theorem SessionOnly.time : t.time = s.time := a.same State.time fun _ _ _ _ _ _ => rfl
theorem SessionOnly.role : t.role = s.role := a.same State.role fun _ _ _ _ _ _ => rfl
theorem SessionOnly.parts : t.parts = s.parts := a.same State.parts fun _ _ _ _ _ _ => rfl
theorem SessionOnly.raster : t.raster = s.raster := a.same State.raster fun _ _ _ _ _ _ => rfl
theorem SessionOnly.chans : t.chans = s.chans := a.same State.chans fun _ _ _ _ _ _ => rfl
theorem SessionOnly.boot : t.boot = s.boot := a.same State.boot fun _ _ _ _ _ _ => rfl
theorem SessionOnly.power : t.power = s.power := a.same State.power fun _ _ _ _ _ _ => rfl
theorem SessionOnly.logs : t.logs = s.logs := a.same State.logs fun _ _ _ _ _ _ => rfl

theorem SessionOnly.isSteward (h : HostId) : t.isSteward h = s.isSteward h :=
  a.same (fun x => x.isSteward h) fun _ _ _ _ _ _ => rfl

theorem SessionOnly.pendingBits : t.pendingBits = s.pendingBits := a.same State.pendingBits fun _ _ _ _ _ _ => rfl

theorem SessionOnly.choosePartition (h : HostId) : t.choosePartition h = s.choosePartition h :=
  a.same (fun x => x.choosePartition h) fun _ _ _ _ _ _ => rfl

theorem SessionOnly.findStrip (n : Nat) : t.findStrip n = s.findStrip n :=
  a.same (fun x => x.findStrip n) fun _ _ _ _ _ _ => rfl

theorem SessionOnly.stripInUse (n : Nat) : t.stripInUse n = s.stripInUse n :=
  a.same (fun x => x.stripInUse n) fun _ _ _ _ _ _ => rfl

theorem SessionOnly.st (k : HostId) : t.hosts[k].st = s.hosts[k].st := a.sameHost HostRec.st (fun _ _ _ _ _ => rfl) k

theorem SessionOnly.lastHb (k : HostId) : t.hosts[k].lastHb = s.hosts[k].lastHb :=
  a.sameHost HostRec.lastHb (fun _ _ _ _ _ => rfl) k

theorem SessionOnly.hbTimeout (k : HostId) : t.hosts[k].hbTimeout = s.hosts[k].hbTimeout :=
  a.sameHost HostRec.hbTimeout (fun _ _ _ _ _ => rfl) k

theorem SessionOnly.ignored (k : HostId) : t.hosts[k].ignored = s.hosts[k].ignored :=
  a.sameHost HostRec.ignored (fun _ _ _ _ _ => rfl) k

theorem SessionOnly.attached (k : HostId) : t.attached k = s.attached k := by
  rw [Bool.eq_iff_iff, attached_iff, attached_iff, a.st k]

/-- Features are read from outside the session. -/
theorem SessionOnly.featureValue (h : HostId) (f n : Nat) : t.featureValue h f n = s.featureValue h f n := by
  have crc (k : HostId) : t.hosts[k].requireCrc = s.hosts[k].requireCrc :=
    a.sameHost HostRec.requireCrc (fun _ _ _ _ _ => rfl) k
  have auto (k : HostId) : t.hosts[k].autoFence = s.hosts[k].autoFence :=
    a.sameHost HostRec.autoFence (fun _ _ _ _ _ => rfl) k
  have hot (c : ChanId) : t.hottest c = s.hottest c := a.same (fun x => x.hottest c) fun _ _ _ _ _ _ => rfl
  simp only [State.featureValue, a.st, a.hbTimeout, a.role, a.parts, a.raster, a.boot, a.power, a.chans, crc, auto, hot]

end

/-! ### A packet that completes at once -/

theorem finish_sessionOnly (s : State) (id : Nat) (a : Answer) : SessionOnly s (s.finish id a) :=
  (finished_finish s id a).sessionOnly

section
variable {s : State} {op : Byte} {i : Issue} (hr : s.runs op i = true)
include hr

/-- A packet's own meaning that completes its command and does nothing else. -/
theorem begun_finish (hop : op ≠ 0x07) (a : Answer) :
    s.Answered ((s.begun op i).finish s.nextId a) i a ∧ s.SessionOnly ((s.begun op i).finish s.nextId a) :=
  ⟨answered_finish hr _ a rfl rfl (begun_out s op i), (sessionOnly_begun s i hop).trans (finish_sessionOnly ..)⟩

/-- A packet's own meaning that puts out one thing and completes its command. -/
theorem begun_emit_finish (hop : op ≠ 0x07) (o : Out) (a : Answer) :
    let t := ((s.begun op i).emit o).finish s.nextId a
    s.Answered t i a ∧ s.SessionOnly t ∧ s.Sent t o := by
  obtain ⟨xs, hx⟩ := begun_out s op i
  have put : ((s.begun op i).emit o).out = ([o] ++ xs) ++ s.out := by rw [emit, hx]; rfl
  obtain ⟨ys, hy⟩ := (finished_finish ((s.begun op i).emit o) s.nextId a).out
  refine ⟨answered_finish hr _ a rfl rfl ⟨_, put⟩, ?_, ys ++ ([o] ++ xs), ?_, ?_⟩
  · exact ((sessionOnly_begun s i hop).trans (raised_emit ..).sessionOnly).trans (finish_sessionOnly ..)
  · simp [hy, hx]
  · simp

end

/-- A change of a host's record outside its queues leaves every queue. -/
theorem updHost_queue (s : State) (h k : HostId) (q : QueueId) (f : HostRec → HostRec) (hf : ∀ r, (f r).queues = r.queues) :
    (s.updHost h f).queue k q = s.queue k q := by
  by_cases e : h = k
  · subst e
    simp [queue, hf]
  · simp [queue, vmod_other _ _ _ _ e]

end State

end Sys2Proof.Machine
end

section
/-! SUPPORT. ATTACH, DETACH and RELEASE_STEWARD (R25, R26, R34, R45). -/

namespace Sys2Proof.Machine

namespace State

/-! ### The role and the partitions -/

@[simp] theorem vacate_hosts (s : State) (h : HostId) : (s.vacate h).hosts = s.hosts := by
  unfold vacate
  split <;> rfl

@[simp] theorem vacate_parts (s : State) (h : HostId) : (s.vacate h).parts = s.parts := by
  unfold vacate
  split <;> rfl

@[simp] theorem vacate_cmds (s : State) (h : HostId) : (s.vacate h).cmds = s.cmds := by
  unfold vacate
  split <;> rfl

@[simp] theorem vacate_out (s : State) (h : HostId) : (s.vacate h).out = s.out := by
  unfold vacate
  split <;> rfl

theorem isSteward_iff {s : State} {h : HostId} : s.isSteward h = true ↔ s.role.holder = some h := by
  simp [isSteward]

theorem vacate_steward {s : State} {h : HostId} (hs : s.isSteward h = true) :
    (s.vacate h).role = { s.role with holder := none, previous := some h } := by
  rw [vacate, if_pos hs]

theorem vacate_other {s : State} {h : HostId} (hs : s.role.holder ≠ some h) : s.vacate h = s := by
  rw [vacate, if_neg (isSteward_iff.not.mpr hs)]

/-- A host whose role was vacated does not hold it. -/
theorem vacate_holder (s : State) (h : HostId) : (s.vacate h).role.holder ≠ some h := by
  by_cases hs : s.isSteward h = true
  · rw [vacate_steward hs]
    exact nofun
  · rw [vacate, if_neg hs]
    exact isSteward_iff.not.mp hs

theorem SessionOnly.vacate {s t : State} (a : SessionOnly s t) (h : HostId) : SessionOnly (s.vacate h) (t.vacate h) := by
  by_cases hs : s.isSteward h = true
  · rw [State.vacate, State.vacate, a.isSteward, if_pos hs, if_pos hs, a.role]
    exact a.map (fun x => { x with role := { s.role with holder := none, previous := some h } })
      (fun _ _ _ _ _ _ => rfl) rfl rfl
  · rw [State.vacate, State.vacate, a.isSteward, if_neg hs, if_neg hs]
    exact a

theorem SessionOnly.reserve {s t : State} (a : SessionOnly s t) (h : HostId) : SessionOnly (s.reserve h) (t.reserve h) :=
  a.map (fun x => x.reserve h) (fun _ _ _ _ _ _ => rfl) rfl rfl

theorem reserve_parts (s : State) (h : HostId) (p : Fin 16) : (s.reserve h).parts[p] =
    if s.parts[p].owner = some h then { s.parts[p] with reserved := some h } else s.parts[p] := by
  simp [reserve]

/-! ### What the commands do -/

/-- A host has been given a partition and is ATTACHED, with a heartbeat now (R25, R45). -/
def attachedWith (s : State) (h : HostId) (p : Fin 16) : State :=
  { s with parts := vmod s.parts p fun x => { x with owner := some h } }.updHost h fun r =>
    { r with st := .attached, lastHb := s.time }

theorem SessionOnly.attachedWith {s t : State} (a : SessionOnly s t) (h : HostId) (p : Fin 16) :
    SessionOnly (s.attachedWith h p) (t.attachedWith h p) := by
  have same_time : t.attachedWith h p =
      { t with parts := vmod t.parts p fun x => { x with owner := some h } }.updHost h fun r =>
        { r with st := .attached, lastHb := s.time } := by
    rw [State.attachedWith, ← a.time]
  rw [same_time]
  exact (a.map (fun x => { x with parts := vmod x.parts p fun x => { x with owner := some h } })
    (fun _ _ _ _ _ _ => rfl) rfl rfl).updHost h (fun r => { r with st := .attached, lastHb := s.time })
      fun _ _ _ _ _ => rfl

theorem attachedWith_st (s : State) (h : HostId) (p : Fin 16) : (s.attachedWith h p).hosts[h].st = .attached := by
  simp [attachedWith]

theorem attachedWith_lastHb (s : State) (h : HostId) (p : Fin 16) : (s.attachedWith h p).hosts[h].lastHb = s.time := by
  simp [attachedWith]

theorem attachedWith_owner (s : State) (h : HostId) (p : Fin 16) : (s.attachedWith h p).parts[p].owner = some h := by
  simp [attachedWith]

/-- A host has left its session: the role is vacant if it held it, its partitions are reserved for it, and it is LINKED
(R26, R34). -/
def detached (s : State) (h : HostId) : State :=
  ((s.vacate h).reserve h).updHost h fun r => { r with st := .linked, ignored := 0 }

theorem SessionOnly.detached {s t : State} (a : SessionOnly s t) (h : HostId) : SessionOnly (s.detached h) (t.detached h) :=
  ((a.vacate h).reserve h).updHost h (fun r => { r with st := .linked, ignored := 0 }) fun _ _ _ _ _ => rfl

theorem detached_st (s : State) (h : HostId) : (s.detached h).hosts[h].st = .linked := by
  simp [detached]

theorem detached_ignored (s : State) (h : HostId) : (s.detached h).hosts[h].ignored = 0 := by
  simp [detached]

@[simp] theorem detached_cmds (s : State) (h : HostId) : (s.detached h).cmds = s.cmds := s.vacate_cmds h

@[simp] theorem detached_out (s : State) (h : HostId) : (s.detached h).out = s.out := s.vacate_out h

theorem detached_queue (s : State) (h k : HostId) (q : QueueId) : (s.detached h).queue k q = s.queue k q :=
  (updHost_queue _ h k q (fun r => { r with st := .linked, ignored := 0 }) fun _ => rfl).trans (by simp [reserve, queue])

theorem detached_holder (s : State) (h : HostId) : (s.detached h).role.holder ≠ some h := vacate_holder s h

theorem detached_parts (s : State) (h : HostId) (p : Fin 16) : (s.detached h).parts[p] =
    if s.parts[p].owner = some h then { s.parts[p] with reserved := some h } else s.parts[p] := by
  have split := reserve_parts (s.vacate h) h p
  rwa [vacate_parts] at split

/-! ### Completing after the change -/

/-- A packet's own meaning that changes the state so that its queue, its commands and the outputs stay, completes its command and
raises a source of its host. -/
theorem begun_change_finish {s : State} {op : Byte} {i : Issue} (hr : s.runs op i = true) {u v : State} (a : Answer)
    (hframe : v.SessionOnly u) (hcmds : u.cmds = (s.begun op i).cmds)
    (hqueue : u.queue i.host i.queue = (s.begun op i).queue i.host i.queue) (hout : u.out = (s.begun op i).out) :
    let t := (u.finish s.nextId a).raiseHost i.host
    s.Answered t i a ∧ v.SessionOnly t := by
  have put : ∃ o, u.out = o ++ s.out := hout ▸ begun_out s op i
  have raised := raised_raiseHost (u.finish s.nextId a) i.host
  exact ⟨(answered_finish hr u a hcmds hqueue put).raised raised,
    (hframe.trans (finish_sessionOnly ..)).trans raised.sessionOnly⟩

end State

/-! ### The clauses -/

theorem exec_attach (i : Issue) (s : State) : exec (.attach i) s = .next (s.submit 0x05 bodyAttach i) := rfl

theorem bodyAttach_attached {c : Cmd} {s : State} (ha : s.attached c.host = true) :
    bodyAttach c s = s.finish c.id { status := .invalidField, detail := 0x01 } := by
  rw [bodyAttach, if_pos ha]
  rfl

theorem bodyAttach_none {c : Cmd} {s : State} (ha : s.attached c.host = false) (hp : s.choosePartition c.host = none) :
    bodyAttach c s = s.finish c.id { status := .resourceConflict, detail := 0x02 } := by
  rw [bodyAttach, if_neg (by simp [ha]), hp]
  rfl

theorem bodyAttach_some {c : Cmd} {s : State} {p : Fin 16} {own : Bool} (ha : s.attached c.host = false)
    (hp : s.choosePartition c.host = some (p, own)) :
    bodyAttach c s = ((s.attachedWith c.host p).finish c.id
      { r0 := c.host.val + 256 * p.val + (if own then 2 ^ 16 else 0), r1 := s.raster.held p }).raiseHost c.host := by
  rw [bodyAttach, if_neg (by simp [ha]), hp]
  rfl

theorem attachGivesPartition : Clause.AttachGivesPartition := by
  intro s i hr
  have frame := State.sessionOnly_begun s i (op := 0x05) (by decide)
  rw [exec_attach, State.submit_runs _ hr]
  refine ⟨fun ha => ?attached, fun ha hp => ?none, fun ha p own hp => ?given⟩
  case attached =>
    rw [bodyAttach_attached ((frame.attached i.host).trans ha)]
    exact ⟨_, rfl, State.begun_finish hr (by decide) _⟩
  case none =>
    rw [bodyAttach_none ((frame.attached i.host).trans ha) ((frame.choosePartition i.host).trans hp)]
    exact ⟨_, rfl, State.begun_finish hr (by decide) _⟩
  case given =>
    rw [bodyAttach_some ((frame.attached i.host).trans ha) ((frame.choosePartition i.host).trans hp), frame.raster]
    have queue_kept : ((s.begun 0x05 i).attachedWith i.host p).queue i.host i.queue = (s.begun 0x05 i).queue i.host i.queue :=
      State.updHost_queue _ _ _ _ _ fun _ => rfl
    obtain ⟨answered, only⟩ := State.begun_change_finish hr
      { r0 := i.host.val + 256 * p.val + (if own then 2 ^ 16 else 0), r1 := s.raster.held p }
      (frame.attachedWith i.host p) rfl queue_kept rfl
    refine ⟨_, rfl, answered, (only.st i.host).trans (s.attachedWith_st i.host p),
      (only.lastHb i.host).trans (s.attachedWith_lastHb i.host p), ?_, only⟩
    exact (congrArg (fun ps => ps[p].owner) only.parts).trans (s.attachedWith_owner i.host p)

theorem exec_detach (i : Issue) (s : State) : exec (.detach i) s = .next (s.submit 0x06 bodyDetach i) := rfl

theorem bodyDetach_eq (c : Cmd) (s : State) :
    bodyDetach c s = ((s.detached c.host).finish c.id {}).raiseHost c.host := rfl

theorem exec_releaseSteward (i : Issue) (s : State) :
    exec (.releaseSteward i) s = .next (s.submit 0x09 bodyReleaseSteward i) := rfl

theorem bodyReleaseSteward_eq (c : Cmd) (s : State) :
    bodyReleaseSteward c s = ((s.vacate c.host).finish c.id { r1 := s.pendingBits }).raiseHost c.host := rfl

theorem detachAndReleaseVacate : Clause.DetachAndReleaseVacate := by
  refine fun s i => ⟨fun hr => ?detach, fun hr => ?release⟩
  case detach =>
    have frame := State.sessionOnly_begun s i (op := 0x06) (by decide)
    obtain ⟨answered, only⟩ := State.begun_change_finish hr {} (frame.detached i.host)
      (State.detached_cmds ..) (State.detached_queue ..) (State.detached_out ..)
    rw [exec_detach, State.submit_runs _ hr, bodyDetach_eq]
    refine ⟨_, rfl, answered, (only.st i.host).trans (s.detached_st i.host),
      (only.ignored i.host).trans (s.detached_ignored i.host), ?_, fun p => ?_, only⟩
    · exact only.role.symm ▸ s.detached_holder i.host
    · exact (congrArg (fun ps => ps[p]) only.parts).trans (s.detached_parts i.host p)
  case release =>
    have frame := State.sessionOnly_begun s i (op := 0x09) (by decide)
    obtain ⟨answered, only⟩ := State.begun_change_finish hr { r1 := s.pendingBits } (frame.vacate i.host)
      (State.vacate_cmds ..) (by simp [State.queue]) (State.vacate_out ..)
    rw [exec_releaseSteward, State.submit_runs _ hr, bodyReleaseSteward_eq, frame.pendingBits]
    refine ⟨_, rfl, answered, ?_, fun hs => ?_, only⟩
    · exact only.role.symm ▸ s.vacate_holder i.host
    · exact only.role.symm ▸ State.vacate_steward hs ▸ ⟨rfl, rfl⟩

/-- Settles O16: each command by the cases of its own meaning, on the state in which its packet has started. -/
theorem sessionsBeginAndEnd : Obligations.SessionsBeginAndEnd := ⟨attachGivesPartition, detachAndReleaseVacate⟩

end Sys2Proof.Machine
end

section
/-! SUPPORT. Queries, the heartbeat of a host, and the reports that the device writes to its host (R39, R40, R67 to R71, R74, R77,
R365). -/

namespace Sys2Proof.Machine

namespace State

/-! ### A meaning that reports and completes -/

/-- A packet's own meaning that puts out some things, changes no command and not its queue, and completes its command. -/
theorem begun_report {s : State} {op : Byte} {i : Issue} (hr : s.runs op i = true) {u v : State} {xs : List Out} (a : Answer)
    (hframe : v.SessionOnly u) (hcmds : u.cmds = (s.begun op i).cmds)
    (hqueue : u.queue i.host i.queue = (s.begun op i).queue i.host i.queue) (hout : u.out = xs ++ (s.begun op i).out) :
    let t := u.finish s.nextId a
    s.Answered t i a ∧ v.SessionOnly t ∧ ∀ o ∈ xs, s.Sent t o := by
  obtain ⟨ys, hy⟩ := begun_out s op i
  obtain ⟨zs, hz⟩ := (finished_finish u s.nextId a).out
  have put : u.out = (xs ++ ys) ++ s.out := by rw [hout, hy, List.append_assoc]
  refine ⟨answered_finish hr u a hcmds hqueue ⟨_, put⟩, hframe.trans (finish_sessionOnly ..), fun o ho => ⟨zs ++ (xs ++ ys), ?_, ?_⟩⟩
  · rw [hz, put, ← List.append_assoc]
  · simp [ho]

/-- Put out one thing, unless a condition makes it empty. -/
def emitUnless (s : State) (empty : Prop) [Decidable empty] (o : Out) : State := if empty then s else s.emit o

section
variable (s : State) (empty : Prop) [Decidable empty] (o : Out)

theorem emitUnless_sessionOnly : SessionOnly s (s.emitUnless empty o) := by
  unfold emitUnless
  split
  · exact SessionOnly.refl s
  · exact (raised_emit s o).sessionOnly

@[simp] theorem emitUnless_cmds : (s.emitUnless empty o).cmds = s.cmds := by
  unfold emitUnless
  split <;> rfl

@[simp] theorem emitUnless_queue (h : HostId) (q : QueueId) : (s.emitUnless empty o).queue h q = s.queue h q := by
  unfold emitUnless
  split <;> rfl

@[simp] theorem emitUnless_logs : (s.emitUnless empty o).logs = s.logs := by
  unfold emitUnless
  split <;> rfl

theorem emitUnless_out : (s.emitUnless empty o).out = (if empty then [] else [o]) ++ s.out := by
  unfold emitUnless
  split <;> rfl

end

theorem SessionOnly.quench {s t : State} (a : SessionOnly s t) : t.quench = s.quench :=
  a.same State.quench fun _ _ _ _ _ _ => rfl

theorem SessionOnly.identifyPage {s t : State} (a : SessionOnly s t) (h : HostId) (n : Nat) :
    t.identifyPage h n = s.identifyPage h n :=
  a.same (fun x => x.identifyPage h n) fun _ _ _ _ _ _ => by
    unfold State.identifyPage
    split <;> rfl

theorem SessionOnly.putLogs {s t : State} (a : SessionOnly s t) (l : Logs) :
    SessionOnly { s with logs := l } { t with logs := l } :=
  a.map (fun x => { x with logs := l }) (fun _ _ _ _ _ _ => rfl) rfl rfl

end State

/-! ### Queries -/

theorem exec_nop (i : Issue) (s : State) : exec (.nop i) s = .next (s.submit 0x00 bodyNop i) := rfl

theorem exec_getFeature (i : Issue) (s : State) : exec (.getFeature i) s = .next (s.submit 0x04 bodyGetFeature i) := rfl

theorem exec_getStripInfo (i : Issue) (s : State) : exec (.getStripInfo i) s = .next (s.submit 0x17 bodyGetStripInfo i) := rfl

theorem exec_migrateStatus (i : Issue) (s : State) : exec (.migrateStatus i) s = .next (s.submit 0x43 bodyMigrateStatus i) := rfl

theorem bodyNop_eq (c : Cmd) (s : State) : bodyNop c s = s.finish c.id {} := rfl

theorem bodyGetFeature_eq (c : Cmd) (s : State) : bodyGetFeature c s = s.finish c.id
    { r0 := (s.featureValue c.host (c.f 0 0 16) (c.f 0 16 8)).1
      r1 := (s.featureValue c.host (c.f 0 0 16) (c.f 0 16 8)).2 } := rfl

/-- What GET_STRIP_INFO answers of a strip (R72). -/
def stripInfo (s : State) (r : Strip) : Answer where
  r0 := r.lines + 2 ^ 16 * r.words + (if r.raw then 2 ^ 27 else 0) + (if r.sealed then 2 ^ 28 else 0) +
    (if s.stripInUse r.handle then 2 ^ 29 else 0) + (if r.poisoned then 2 ^ 30 else 0)
  r1 := r.size % 2 ^ 28 + 2 ^ 28 * r.part.val

theorem bodyGetStripInfo_found {c : Cmd} {s : State} {r : Strip} (hf : s.findStrip (c.p 0) = some r) :
    bodyGetStripInfo c s = s.finish c.id (stripInfo s r) := by
  rw [bodyGetStripInfo, hf]
  rfl

/-- What MIGRATE_STATUS answers of a channel (R77). -/
def migrateInfo (s : State) (ch : ChanId) : Answer where
  r0 := s.chans[ch].mig.st.code + 256 * s.chans[ch].mig.source.val + 1024 * s.chans[ch].mig.target.val
  r1 := if s.migrating ch then
      (s.raster.written.filter (s.raster.rankHolds s.chans[ch].mig.logical s.chans[ch].mig.ashlar).contains).length
    else 0

theorem bodyMigrateStatus_eq (c : Cmd) (s : State) :
    bodyMigrateStatus c s = s.finish c.id (migrateInfo s (Fin.ofNat 2 (c.f 0 0 1))) := rfl

theorem SessionOnly.migrateInfo {s t : State} (a : s.SessionOnly t) (ch : ChanId) : migrateInfo t ch = migrateInfo s ch :=
  a.same (fun x => Machine.migrateInfo x ch) fun _ _ _ _ _ _ => rfl

theorem SessionOnly.stripInfo {s t : State} (a : s.SessionOnly t) (r : Strip) : stripInfo t r = stripInfo s r := by
  rw [Machine.stripInfo, a.stripInUse]
  rfl

theorem queriesAnswer : Clause.QueriesAnswer := by
  refine fun s i => ⟨fun hr => ?nop, fun hr => ?feature, fun hr r hf => ?strip, fun hr => ?migrate⟩
  case nop =>
    rw [exec_nop, State.submit_runs _ hr, bodyNop_eq]
    exact ⟨_, rfl, State.begun_finish hr (by decide) {}⟩
  case feature =>
    have frame := State.sessionOnly_begun s i (op := 0x04) (by decide)
    rw [exec_getFeature, State.submit_runs _ hr, bodyGetFeature_eq, frame.featureValue]
    exact ⟨_, rfl, State.begun_finish hr (by decide) _⟩
  case strip =>
    have frame := State.sessionOnly_begun s i (op := 0x17) (by decide)
    rw [exec_getStripInfo, State.submit_runs _ hr, bodyGetStripInfo_found ((frame.findStrip _).trans hf),
      SessionOnly.stripInfo frame]
    exact ⟨_, rfl, (State.begun_finish hr (by decide) (stripInfo s r)).symm⟩
  case migrate =>
    have frame := State.sessionOnly_begun s i (op := 0x43) (by decide)
    rw [exec_migrateStatus, State.submit_runs _ hr, bodyMigrateStatus_eq, SessionOnly.migrateInfo frame]
    exact ⟨_, rfl, (State.begun_finish hr (by decide) (migrateInfo s _)).symm⟩

/-! ### HEARTBEAT -/

namespace State

/-- Only what a change makes of the host's own record matters. -/
theorem updHost_congr {s : State} {h : HostId} {f g : HostRec → HostRec} (e : f s.hosts[h] = g s.hosts[h]) :
    s.updHost h f = s.updHost h g := by
  simp only [updHost, vmod, e]

/-- A host is ATTACHED, with a heartbeat now. -/
def beaten (s : State) (h : HostId) : State := s.updHost h fun r => { r with lastHb := s.time, st := .attached }

@[simp] theorem beaten_st (s : State) (h : HostId) : (s.beaten h).hosts[h].st = .attached := by
  simp [beaten]

@[simp] theorem beaten_lastHb (s : State) (h : HostId) : (s.beaten h).hosts[h].lastHb = s.time := by
  simp [beaten]

@[simp] theorem beaten_hbTimeout (s : State) (h : HostId) : (s.beaten h).hosts[h].hbTimeout = s.hosts[h].hbTimeout := by
  simp [beaten]

theorem SessionOnly.beaten {s t : State} (a : SessionOnly s t) (h : HostId) : SessionOnly (s.beaten h) (t.beaten h) := by
  rw [State.beaten, State.beaten, a.time]
  exact a.updHost h (fun r => { r with lastHb := s.time, st := .attached }) fun _ _ _ _ _ => rfl

/-- The heartbeat of an attached host leaves it ATTACHED, with a heartbeat now (R39, R40). -/
theorem beat_beaten {s : State} {h : HostId} (ha : s.attached h = true) : Raised (s.beaten h) (s.beat h) := by
  obtain hst | hst := attached_iff.mp ha
  · have same_record : s.beat h = s.beaten h := by
      rw [beat_attached hst]
      exact updHost_congr (by rw [← hst])
    rw [same_record]
    exact Raised.refl _
  · rw [beat_late hst]
    exact raised_raiseHost ..

/-- A command that passes the checks and is not served in banked mode has passed the check of its host's state (R65, R66). -/
theorem stateCheck_of_checkCmd {s : State} {c : Cmd} {info : OpInfo} (hop : opInfo c.op.toNat = some info)
    (hb : info.banked = false) (hc : s.checkCmd c = none) : stateCheck s.hosts[c.host].st c.op.toNat = none := by
  have unbanked : s.banked = false := by
    cases hm : s.banked with
    | false => rfl
    | true => simp [checkCmd, hop, hb, hm] at hc
  have role : s.roleCheck info c = none := by
    cases hrole : s.roleCheck info c with
    | none => rfl
    | some a => simp [checkCmd, hop, unbanked, hrole] at hc
  cases hst : stateCheck s.hosts[c.host].st c.op.toNat with
  | none => rfl
  | some a =>
    rw [roleCheck, if_neg (by simp [unbanked]), hst] at role
    exact role

/-- No step of the checks lets a HEARTBEAT of a host pass that is not attached (R24, R66). -/
theorem attached_of_heartbeat {s : State} {i : Issue} (hr : s.runs 0x07 i = true) : s.attached i.host = true := by
  simp only [runs, Bool.and_eq_true, Option.isNone_iff_eq_none] at hr
  obtain ⟨⟨⟨⟨⟨⟨⟨hfetch, -⟩, -⟩, -⟩, hcheck⟩, -⟩, -⟩, -⟩ := hr
  by_contra hn
  have taken_st : (s.taken 0x07 i).hosts[i.host].st = s.hosts[i.host].st := by
    have unattached : (s.fetched 0x07 i).attached i.host = false :=
      ((sessionOnly_fetched s 0x07 i).attached i.host).trans (Bool.eq_false_iff.mpr hn)
    rw [taken, if_pos rfl, beat_unattached unattached]
    exact (sessionOnly_fetched s 0x07 i).st i.host
  have served : s.hosts[i.host].st ≠ .down ∧ s.hosts[i.host].st ≠ .fenced := by
    simp only [canFetch, hostServed, Bool.and_eq_true, bne_iff_ne] at hfetch
    obtain ⟨⟨⟨⟨⟨⟨-, up⟩, unfenced⟩, -⟩, -⟩, -⟩, -⟩ := hfetch
    exact ⟨up, unfenced⟩
  have state := stateCheck_of_checkCmd rfl rfl hcheck
  rw [attached_iff] at hn
  have pass : stateCheck s.hosts[i.host].st 0x07 = none := taken_st ▸ state
  cases hst : s.hosts[i.host].st with
  | down => exact served.1 hst
  | fenced => exact served.2 hst
  | attached => exact hn (.inl hst)
  | late => exact hn (.inr hst)
  | linked =>
    rw [hst] at pass
    exact absurd pass (by decide)
  | recovering =>
    rw [hst] at pass
    exact absurd pass (by decide)

/-- Once the packet of a HEARTBEAT has started, its host is ATTACHED, with a heartbeat now. -/
theorem begun_heartbeat {s : State} {i : Issue} (hr : s.runs 0x07 i = true) :
    SessionOnly (s.beaten i.host) (s.begun 0x07 i) := by
  have fetched := sessionOnly_fetched s 0x07 i
  have beat : SessionOnly (s.beaten i.host) ((s.fetched 0x07 i).beat i.host) :=
    (fetched.beaten i.host).trans
      (beat_beaten ((fetched.attached i.host).trans (attached_of_heartbeat hr))).sessionOnly
  have started : s.begun 0x07 i = { (s.fetched 0x07 i).beat i.host with
      cmds := (s.begun 0x07 i).cmds, nextId := (s.begun 0x07 i).nextId } := rfl
  obtain ⟨same, hosts, out⟩ := beat
  rw [started, same]
  exact ⟨rfl, hosts, out⟩

end State

theorem exec_heartbeat (i : Issue) (s : State) : exec (.heartbeat i) s = .next (s.submit 0x07 bodyHeartbeat i) := rfl

theorem bodyHeartbeat_eq (c : Cmd) (s : State) : bodyHeartbeat c s = s.finish c.id { r0 := s.hosts[c.host].hbTimeout } := rfl

theorem heartbeatCounts : Clause.HeartbeatCounts := by
  intro s i hr
  have frame := State.begun_heartbeat hr
  obtain ⟨answered, only, -⟩ := State.begun_report hr (xs := []) { r0 := s.hosts[i.host].hbTimeout } frame rfl rfl rfl
  rw [exec_heartbeat, State.submit_runs _ hr, bodyHeartbeat_eq]
  have timeout : (s.begun 0x07 i).hosts[(s.issued 0x07 i).host].hbTimeout = s.hosts[i.host].hbTimeout :=
    (frame.hbTimeout i.host).trans (s.beaten_hbTimeout i.host)
  rw [timeout]
  exact ⟨_, rfl, answered, (only.lastHb i.host).trans (s.beaten_lastHb i.host), (only.st i.host).trans (s.beaten_st i.host),
    only⟩

/-! ### Reports -/

theorem exec_identify (i : Issue) (s : State) : exec (.identify i) s = .next (s.submit 0x01 bodyIdentify i) := rfl

theorem exec_getLog (i : Issue) (s : State) : exec (.getLog i) s = .next (s.submit 0x02 bodyGetLog i) := rfl

theorem exec_quenchDump (i : Issue) (s : State) : exec (.quenchDump i) s = .next (s.submit 0x53 bodyQuenchDump i) := rfl

theorem bodyIdentify_eq (c : Cmd) (s : State) : bodyIdentify c s =
    (s.emit (.hostWrite c.host (c.hostAddr 1) (layout 4096 (s.identifyPage c.host (c.f 0 0 8))))).finish c.id { r0 := 4096 } :=
  rfl

/-- The entries of a log that GET_LOG returns. -/
def Cmd.logPart (c : Cmd) (es : List LogEntry) : List LogEntry := (es.drop (c.p 1)).take (c.p 4 / 64)

/-- The entries of a log that stay when those returned are taken out of it. -/
def Cmd.logRest (c : Cmd) (es : List LogEntry) : List LogEntry :=
  es.take (c.p 1) ++ es.drop (c.p 1 + (c.logPart es).length)

/-- The state once GET_LOG has written the entries that it returns. -/
def Cmd.logWritten (c : Cmd) (s : State) (es : List LogEntry) : State :=
  s.emitUnless (c.logPart es = []) (.hostWrite c.host (c.hostAddr 2) ((c.logPart es).map LogEntry.bytes).flatten)

theorem bodyGetLog_keep {c : Cmd} (hc : c.f 0 8 1 = 0) (s : State) :
    bodyGetLog c s = (c.logWritten s (s.logs.get (c.f 0 0 8))).finish c.id
      { r0 := (c.logPart (s.logs.get (c.f 0 0 8))).length, r1 := (s.logs.get (c.f 0 0 8)).length } := by
  simp only [bodyGetLog, hc]
  rfl

theorem bodyGetLog_clear {c : Cmd} (hc : c.f 0 8 1 = 1) (s : State) :
    bodyGetLog c s = { c.logWritten s (s.logs.get (c.f 0 0 8)) with
        logs := s.logs.put (c.f 0 0 8) (c.logRest (s.logs.get (c.f 0 0 8))) }.finish c.id
      { r0 := (c.logPart (s.logs.get (c.f 0 0 8))).length, r1 := (c.logRest (s.logs.get (c.f 0 0 8))).length } := by
  have same_logs : (c.logWritten s (s.logs.get (c.f 0 0 8))).logs = s.logs := State.emitUnless_logs ..
  have written : bodyGetLog c s = { c.logWritten s (s.logs.get (c.f 0 0 8)) with
        logs := (c.logWritten s (s.logs.get (c.f 0 0 8))).logs.put (c.f 0 0 8) (c.logRest (s.logs.get (c.f 0 0 8))) }.finish c.id
      { r0 := (c.logPart (s.logs.get (c.f 0 0 8))).length, r1 := (c.logRest (s.logs.get (c.f 0 0 8))).length } := by
    rw [bodyGetLog, if_pos hc]
    rfl
  rw [written, same_logs]

/-- The clauses of GET_LOG. -/
theorem getLog_reports {s : State} {i : Issue} (hr : s.runs 0x02 i = true) :
    let c := s.issued 0x02 i
    let es := s.logs.get (c.f 0 0 8)
    let out := c.logPart es
    ∃ t, exec (.getLog i) s = .next t ∧
      (out ≠ [] → s.Sent t (.hostWrite i.host (c.hostAddr 2) (out.map LogEntry.bytes).flatten)) ∧
      (c.f 0 8 1 = 0 → s.Answered t i { r0 := out.length, r1 := es.length } ∧ s.SessionOnly t) ∧
      (c.f 0 8 1 = 1 → s.Answered t i { r0 := out.length, r1 := (c.logRest es).length } ∧
        ({ s with logs := s.logs.put (c.f 0 0 8) (c.logRest es) } : State).SessionOnly t) := by
  intro c es out
  have frame := State.sessionOnly_begun s i (op := 0x02) (by decide)
  have written := frame.trans (State.emitUnless_sessionOnly (s.begun 0x02 i) (out = [])
    (.hostWrite i.host (c.hostAddr 2) (out.map LogEntry.bytes).flatten))
  have sent {t : State} (h : ∀ o ∈ (if out = [] then [] else
      [Out.hostWrite i.host (c.hostAddr 2) (out.map LogEntry.bytes).flatten]), s.Sent t o) (hne : out ≠ []) :
      s.Sent t (.hostWrite i.host (c.hostAddr 2) (out.map LogEntry.bytes).flatten) :=
    h _ (by rw [if_neg hne]; exact List.mem_singleton.mpr rfl)
  rw [exec_getLog, State.submit_runs _ hr]
  have bit : c.f 0 8 1 = 0 ∨ c.f 0 8 1 = 1 := Nat.mod_two_eq_zero_or_one _
  obtain h0 | h1 := bit
  · rw [bodyGetLog_keep h0, frame.logs]
    obtain ⟨answered, only, puts⟩ := State.begun_report hr { r0 := out.length, r1 := es.length } written
      (State.emitUnless_cmds ..) (State.emitUnless_queue ..) (State.emitUnless_out ..)
    exact ⟨_, rfl, sent puts, fun _ => ⟨answered, only⟩, fun h1 => absurd (h0.symm.trans h1) (by decide)⟩
  · rw [bodyGetLog_clear h1, frame.logs]
    obtain ⟨answered, only, puts⟩ := State.begun_report hr { r0 := out.length, r1 := (c.logRest es).length }
      (written.putLogs (s.logs.put (c.f 0 0 8) (c.logRest es)))
      (State.emitUnless_cmds ..) (State.emitUnless_queue ..) (State.emitUnless_out ..)
    exact ⟨_, rfl, sent puts, fun h0 => absurd (h0.symm.trans h1) (by decide), fun _ => ⟨answered, only⟩⟩

theorem bodyQuenchDump_found {c : Cmd} {s : State} {d : Dump} (hd : s.quench.dumps.find? (fun d => d.index = c.f 0 0 8) = some d) :
    bodyQuenchDump c s =
      (s.emitUnless (min (c.p 4) (52288 - c.p 3) = 0)
        (.hostWrite c.host (c.hostAddr 1) (d.slice (c.p 3) (min (c.p 4) (52288 - c.p 3))))).finish c.id
      { r0 := min (c.p 4) (52288 - c.p 3), r1 := 52288 } := by
  rw [bodyQuenchDump, hd]
  rfl

theorem reportsReachHost : Clause.ReportsReachHost := by
  refine fun s i => ⟨fun hr => ?identify, fun hr => getLog_reports hr, fun hr => ?dump⟩
  case identify =>
    have frame := State.sessionOnly_begun s i (op := 0x01) (by decide)
    rw [exec_identify, State.submit_runs _ hr, bodyIdentify_eq, frame.identifyPage]
    exact ⟨_, rfl, State.begun_emit_finish hr (by decide) _ _⟩
  case dump =>
    intro c len d hd
    have frame := State.sessionOnly_begun s i (op := 0x53) (by decide)
    rw [exec_quenchDump, State.submit_runs _ hr, bodyQuenchDump_found (frame.quench ▸ hd)]
    obtain ⟨answered, only, puts⟩ := State.begun_report hr { r0 := len, r1 := 52288 }
      (frame.trans (State.emitUnless_sessionOnly (s.begun 0x53 i) (len = 0)
        (.hostWrite i.host (c.hostAddr 1) (d.slice (c.p 3) len))))
      (State.emitUnless_cmds ..) (State.emitUnless_queue ..) (State.emitUnless_out ..)
    exact ⟨_, rfl, answered, only, fun hne => puts _ (by rw [if_neg hne]; exact List.mem_singleton.mpr rfl)⟩

/-- Settles O15: each query and report answers from the state in which its packet has started. -/
theorem queries : Obligations.Queries := ⟨queriesAnswer, heartbeatCounts, reportsReachHost⟩

end Sys2Proof.Machine
end

section
/-! SUPPORT. CLAIM_STEWARD in the order of its cases (R30 to R32, R47, R348, R399). -/

namespace Sys2Proof.Machine

namespace State

/-! ### A claim that succeeds -/

theorem dueRetirements_none {s : State} (hd : ∀ c : ChanId, s.chans[c].mig.due = none) : s.dueRetirements = s := by
  have at0 : s.chans[(0 : ChanId)].mig.due = none := hd 0
  have at1 : s.chans[(1 : ChanId)].mig.due = none := hd 1
  simp only [dueRetirements, List.foldl_cons, List.foldl_nil, at0, at1]

@[simp] theorem enterRunning_stage (s : State) :
    s.enterRunning.boot.stage = if s.boot.stage = 6 then 7 else s.boot.stage := by
  unfold enterRunning
  split <;> simp_all

theorem enterRunning_role (s : State) : s.enterRunning.role = s.role := by
  unfold enterRunning
  split <;> rfl

theorem enterRunning_chans (s : State) : s.enterRunning.chans = s.chans := by
  unfold enterRunning
  split <;> rfl

theorem SessionOnly.enterRunning {s t : State} (a : SessionOnly s t) : SessionOnly s.enterRunning t.enterRunning := by
  by_cases h6 : s.boot.stage = 6
  · have running : ∀ x : State, x.boot = s.boot → x.time = s.time →
        x.enterRunning = { x with boot := { s.boot with stage := 7, runningFrom := some s.time } } := by
      intro x hb ht
      rw [State.enterRunning, hb, if_pos h6, updBoot, hb, ht]
    rw [running s rfl rfl, running t a.boot a.time]
    exact a.map (fun x => { x with boot := { s.boot with stage := 7, runningFrom := some s.time } })
      (fun _ _ _ _ _ _ => rfl) rfl rfl
  · rw [State.enterRunning, State.enterRunning, a.boot, if_neg h6, if_neg h6]
    exact a

/-- Entering RUNNING keeps an answer. -/
theorem Answered.enterRunning {s t : State} {i : Issue} {a : Answer} (h : Answered s t i a) :
    Answered s t.enterRunning i a := by
  have kept : t.enterRunning.out = t.out ∧ t.enterRunning.cmds = t.cmds ∧ t.enterRunning.hosts = t.hosts := by
    unfold State.enterRunning
    split <;> exact ⟨rfl, rfl, rfl⟩
  obtain ⟨out, cmds, hosts⟩ := kept
  refine h.mono ⟨[], out⟩ (fun c hc => cmds ▸ hc) ?_
  simp only [queue, hosts, and_self]

/-- The role is a host's. -/
def heldBy (s : State) (h : HostId) : State := { s with role := { s.role with holder := some h } }

theorem SessionOnly.heldBy {s t : State} (a : SessionOnly s t) (h : HostId) : SessionOnly (s.heldBy h) (t.heldBy h) :=
  a.map (fun x => x.heldBy h) (fun _ _ _ _ _ _ => rfl) rfl rfl

theorem takeRole_eq (s : State) (id : Nat) (h : HostId) : s.takeRole id h =
    ((((s.heldBy h).finish id { r0 := hostOr 0xFF s.role.previous, r1 := s.pendingBits }).enterRunning).deliverHeld
      h).dueRetirements := rfl

end State

/-! ### The cases of the claim -/

theorem exec_claimSteward (i : Issue) (s : State) : exec (.claimSteward i) s = .next (s.submit 0x08 bodyClaimSteward i) := rfl

section
variable {c : Cmd} {s : State}

theorem bodyClaimSteward_holder (hs : s.isSteward c.host = true) : bodyClaimSteward c s =
    s.finish c.id { r0 := hostOr 0xFF s.role.previous, r1 := s.pendingBits } := by
  rw [bodyClaimSteward, if_pos hs]
  rfl

section
variable (hs : s.isSteward c.host = false)
include hs

theorem bodyClaimSteward_ineligible (he : s.role.eligible.getLsbD c.host.val = false) :
    bodyClaimSteward c s = s.finish c.id { status := .notSteward, detail := 0x05 } := by
  rw [bodyClaimSteward, if_neg (by simp [hs]), if_pos (by rw [he]; rfl)]
  rfl

variable (he : s.role.eligible.getLsbD c.host.val = true)
include he

theorem bodyClaimSteward_vacant (hv : s.role.holder = none) : bodyClaimSteward c s = s.takeRole c.id c.host := by
  rw [bodyClaimSteward, if_neg (by simp [hs]), if_neg (by simp [he]), hv]

theorem bodyClaimSteward_held {old : HostId} (ho : s.role.holder = some old) : bodyClaimSteward c s =
    if c.f 0 0 1 = 0 then s.finish c.id { status := .resourceConflict, detail := 0x03 }
    else if s.hosts[old].st ≠ .late then s.finish c.id { status := .resourceConflict, detail := 0x04 }
    else (s.fence old 3 c.host.val).takeRole c.id c.host := by
  rw [bodyClaimSteward, if_neg (by simp [hs]), if_neg (by simp [he]), ho]
  rfl

end
end

/-- Settles O14: the cases of R30 in their order, on the state in which the claim has started. -/
theorem claimDecidedInOrder : Obligations.ClaimDecidedInOrder := by
  intro s i hr
  have frame := State.sessionOnly_begun s i (op := 0x08) (by decide)
  rw [exec_claimSteward, State.submit_runs _ hr]
  refine ⟨fun hs => ?holder, fun hs => ⟨fun he => ?ineligible, fun he => ⟨fun hv hd => ?vacant, fun old ho => ?held⟩⟩⟩
  case holder =>
    rw [bodyClaimSteward_holder ((frame.isSteward i.host).trans hs), frame.role, frame.pendingBits]
    exact ⟨_, rfl, State.begun_finish hr (by decide) _⟩
  all_goals replace hs : (s.begun 0x08 i).isSteward (s.issued 0x08 i).host = false := (frame.isSteward i.host).trans hs
  case ineligible =>
    rw [bodyClaimSteward_ineligible hs (frame.role ▸ he)]
    exact ⟨_, rfl, State.begun_finish hr (by decide) _⟩
  all_goals replace he : (s.begun 0x08 i).role.eligible.getLsbD (s.issued 0x08 i).host.val = true := frame.role ▸ he
  case vacant =>
    obtain ⟨answered, only, -⟩ := State.begun_report hr (xs := [])
      { r0 := hostOr 0xFF s.role.previous, r1 := s.pendingBits } (frame.heldBy i.host) rfl rfl rfl
    have delivered := State.raised_deliverHeld ((((s.begun 0x08 i).heldBy i.host).finish s.nextId
      { r0 := hostOr 0xFF s.role.previous, r1 := s.pendingBits }).enterRunning) i.host
    have final := only.enterRunning.trans delivered.sessionOnly
    have settled := State.dueRetirements_none (s := State.deliverHeld _ i.host) fun c =>
      (congrArg (fun v => v[c].mig.due) (final.chans.trans (State.enterRunning_chans _))).trans (hd c)
    rw [bodyClaimSteward_vacant hs he (frame.role ▸ hv), State.takeRole_eq, frame.role, frame.pendingBits]
    refine ⟨_, congrArg Host.Outcome.next settled, answered.enterRunning.raised delivered, ?_, ?_, final⟩
    · exact final.role.trans (State.enterRunning_role _)
    · exact (congrArg Boot.stage final.boot).trans (State.enterRunning_stage _)
  case held =>
    rw [bodyClaimSteward_held hs he (frame.role ▸ ho), frame.st old]
    refine ⟨fun h0 => ?_, fun h1 hn => ?_, fun h1 hl => ?_⟩
    · rw [if_pos h0]
      exact ⟨_, rfl, State.begun_finish hr (by decide) _⟩
    · rw [if_neg (fun h0 => absurd (h0.symm.trans h1) (by decide)), if_pos hn]
      exact ⟨_, rfl, State.begun_finish hr (by decide) _⟩
    · rw [if_neg (fun h0 => absurd (h0.symm.trans h1) (by decide)), if_neg (not_not.mpr hl)]
      rfl

end Sys2Proof.Machine
end

section
/-! SUPPORT. Commands that wait for the bytes that they read from their host (R22, R79, R151, R169, R248). -/

namespace Sys2Proof.Machine

namespace State

/-- A packet that runs has a number that no earlier command has. -/
theorem fresh_of_runs {s : State} {op : Byte} {i : Issue} (hr : s.runs op i = true) : ∀ c ∈ s.cmds, c.id < s.nextId := by
  simp only [runs, Bool.and_eq_true, List.all_eq_true, decide_eq_true_eq] at hr
  obtain ⟨⟨⟨⟨⟨⟨-, fresh⟩, -⟩, -⟩, -⟩, -⟩, -⟩ := hr
  exact fresh

/-- A packet's own meaning that only sets the progress of its command leaves it under way. -/
theorem begun_waits {s : State} {op : Byte} {i : Issue} (hr : s.runs op i = true) (hop : op ≠ 0x07) (p : Prog) :
    s.Underway ((s.begun op i).updCmd s.nextId fun x => { x with prog := p }) op i p := by
  have mine : ((s.begun op i).updCmd s.nextId fun x => { x with prog := p }).cmds =
      s.cmds ++ [{ s.issued op i with prog := p }] := by
    simp only [updCmd, begun, under, List.map_append, fresh_map (fresh_of_runs hr)]
    simp [issued]
  obtain ⟨same, hosts, out⟩ := sessionOnly_begun s i hop
  refine ⟨mine, ?_, hosts, out⟩
  have moved : (s.begun op i).updCmd s.nextId (fun x => { x with prog := p }) = { s.begun op i with
    cmds := ((s.begun op i).updCmd s.nextId fun x => { x with prog := p }).cmds } := rfl
  rw [moved, same]

theorem SessionOnly.links {s t : State} (a : SessionOnly s t) : t.links = s.links :=
  a.same State.links fun _ _ _ _ _ _ => rfl

theorem SessionOnly.bankActive {s t : State} (a : SessionOnly s t) (c : ChanId) (b : Fin 2) :
    t.bankActive c b = s.bankActive c b :=
  a.same (fun x => x.bankActive c b) fun _ _ _ _ _ _ => rfl

end State

theorem exec_loadCourse (i : Issue) (s : State) : exec (.loadCourse i) s = .next (s.submit 0x20 bodyLoadCourse i) := rfl

theorem exec_pageQueue (i : Issue) (s : State) : exec (.pageQueue i) s = .next (s.submit 0x22 bodyPageQueue i) := rfl

theorem exec_fwStage (i : Issue) (s : State) : exec (.fwStage i) s = .next (s.submit 0x70 bodyFwStage i) := rfl

theorem exec_linkMsg (i : Issue) (s : State) : exec (.linkMsg i) s = .next (s.submit 0x35 bodyLinkMsg i) := rfl

/-- The command waits for so many bytes from its host. -/
def Cmd.awaits (c : Cmd) (n : Nat) (s : State) : State := s.updCmd c.id fun x => { x with prog := .source n }

theorem bodyPageQueue_eq (c : Cmd) (s : State) : bodyPageQueue c s = c.awaits c.sourceLen s := rfl

theorem bodyFwStage_eq (c : Cmd) (s : State) : bodyFwStage c s = c.awaits (c.p 3) s := rfl

theorem bodyLoadCourse_eq (c : Cmd) (s : State) : bodyLoadCourse c s =
    if s.bankActive (Fin.ofNat 2 (c.f 0 0 1)) (Fin.ofNat 2 (c.f 0 8 1)) = true then s.finish c.id { status := .tableActive }
    else c.awaits c.sourceLen s := rfl

/-- A LINK_MSG that sends (R248). -/
theorem bodyLinkMsg_send {c : Cmd} (hsend : c.f 0 9 1 = 0) (s : State) :
    let n : LinkId := Fin.ofNat 32 (c.f 0 0 5)
    bodyLinkMsg c s = if s.links[n].st ≠ .up ∧ s.links[n].st ≠ .rejoin then s.finish c.id { status := .resourceConflict }
      else c.awaits c.sourceLen s := by
  rw [bodyLinkMsg, if_neg (fun h1 => absurd (hsend.symm.trans h1) (by decide))]
  rfl

/-- Settles O19: each of the commands sets its own progress to the bytes that it reads, unless it is refused before. -/
theorem sourcesAreAwaited : Obligations.SourcesAreAwaited := by
  refine fun s i => ⟨fun hr => ?course, fun hr => ?pages, fun hr => ?firmware, fun hr => ?message⟩
  case course =>
    have frame := State.sessionOnly_begun s i (op := 0x20) (by decide)
    rw [exec_loadCourse, State.submit_runs _ hr, bodyLoadCourse_eq, frame.bankActive]
    refine ⟨fun hactive => ?_, fun hidle => ?_⟩
    · rw [if_pos hactive]
      exact ⟨_, rfl, State.begun_finish hr (by decide) _⟩
    · rw [if_neg (Bool.eq_false_iff.mp hidle)]
      exact ⟨_, rfl, State.begun_waits hr (by decide) _⟩
  case pages =>
    rw [exec_pageQueue, State.submit_runs _ hr, bodyPageQueue_eq]
    exact ⟨_, rfl, State.begun_waits hr (by decide) _⟩
  case firmware =>
    rw [exec_fwStage, State.submit_runs _ hr, bodyFwStage_eq]
    exact ⟨_, rfl, State.begun_waits hr (by decide) _⟩
  case message =>
    intro c n hsend
    have frame := State.sessionOnly_begun s i (op := 0x35) (by decide)
    rw [exec_linkMsg, State.submit_runs _ hr, bodyLinkMsg_send hsend, frame.links]
    refine ⟨fun hup hrejoin => ?_, fun hcarries => ?_⟩
    · rw [if_pos ⟨hup, hrejoin⟩]
      exact ⟨_, rfl, State.begun_finish hr (by decide) _⟩
    · rw [if_neg (by tauto)]
      exact ⟨_, rfl, State.begun_waits hr (by decide) _⟩

end Sys2Proof.Machine
end

section
/-! SUPPORT. Packets as bytes (R55), and what a queue does with the packet at its head (R51, R61 to R63). -/

namespace Sys2Proof.Machine

/-! ### The image of a packet -/

theorem dwordBytes_length (d : Dword) : (dwordBytes d).length = 4 := by
  simp [dwordBytes]

theorem dwords_length (ds : List Dword) : ((ds.map dwordBytes).flatten).length = 4 * ds.length := by
  induction ds with
  | nil => rfl
  | cons d ds ih =>
    simp only [List.map_cons, List.flatten_cons, List.length_append, ih, dwordBytes_length, List.length_cons]
    omega

/-- A dword of the image of four bytes and some dwords. -/
theorem image_dword {n : Nat} {head : List Byte} {ds : List Dword} (hh : head.length = 4) (hn : 32 * (ds.length + 1) ≤ n)
    (k : Nat) (hk : k < ds.length) :
    (BitVec.ofNat n (leNat (head ++ (ds.map dwordBytes).flatten))).extractLsb' (32 * (k + 1)) 32 = ds[k] := by
  have split : head ++ (ds.map dwordBytes).flatten =
      head ++ ((ds.take k).map dwordBytes).flatten ++ dwordBytes ds[k] ++ ((ds.drop (k + 1)).map dwordBytes).flatten := by
    have parts : ds = ds.take k ++ ds[k] :: ds.drop (k + 1) := by
      rw [← List.drop_eq_getElem_cons hk, List.take_append_drop]
    conv_lhs => rw [parts]
    simp only [List.map_append, List.map_cons, List.flatten_append, List.flatten_cons, List.append_assoc]
  have place := extract_leNat _ _ (dwordBytes ds[k]) _ n 32 (32 * (k + 1)) split
    (by simp only [List.length_append, dwords_length, hh, List.length_take]; omega)
    (by rw [dwordBytes_length]) (by omega)
  rw [place, leNat_dwordBytes]
  simp

/-- The dwords of a packet after its first. -/
def packetDwords (i : Issue) : List Dword :=
  [i.partition, i.p.p0, i.p.p1, i.p.p2, i.p.p3, i.p.p4, i.p.p5, i.p.p6, i.p.p7, i.p.p8, i.p.p9, i.p.p10, i.p.p11,
    i.reserved, i.crc]

/-- The first dword of a packet: opcode, flags and tag. -/
def packetHead (op : Byte) (i : Issue) : List Byte := [op, i.flags] ++ leBytes 2 i.tag.toNat

theorem packetHead_length (op : Byte) (i : Issue) : (packetHead op i).length = 4 := by
  simp [packetHead]

theorem packet_eq (op : Byte) (i : Issue) :
    packetBytes op i ++ dwordBytes i.crc = packetHead op i ++ ((packetDwords i).map dwordBytes).flatten := by
  simp [packetBytes, packetHead, packetDwords, Params.get, List.range, List.range.loop]

theorem packetImage_dword (op : Byte) (i : Issue) (k : Nat) (hk : k < (packetDwords i).length) :
    (packetImage op i).extractLsb' (32 * (k + 1)) 32 = (packetDwords i)[k] := by
  rw [packetImage, packet_eq]
  exact image_dword (packetHead_length op i) (by simp [packetDwords]) k hk

theorem packetImage_op (op : Byte) (i : Issue) : (packetImage op i).extractLsb' 0 8 = op := by
  have place := extract_leNat (packetBytes op i ++ dwordBytes i.crc) [] [op]
    ([i.flags] ++ leBytes 2 i.tag.toNat ++ ((packetDwords i).map dwordBytes).flatten) 512 8 0
    (by simp [packet_eq, packetHead]) rfl rfl (by decide)
  rw [packetImage, place]
  simp [leNat]

theorem packetImage_flags (op : Byte) (i : Issue) : (packetImage op i).extractLsb' 8 8 = i.flags := by
  have place := extract_leNat (packetBytes op i ++ dwordBytes i.crc) [op] [i.flags]
    (leBytes 2 i.tag.toNat ++ ((packetDwords i).map dwordBytes).flatten) 512 8 8
    (by simp [packet_eq, packetHead]) rfl rfl (by decide)
  rw [packetImage, place]
  simp [leNat]

theorem packetImage_tag (op : Byte) (i : Issue) : (packetImage op i).extractLsb' 16 16 = i.tag := by
  have place := extract_leNat (packetBytes op i ++ dwordBytes i.crc) [op, i.flags] (leBytes 2 i.tag.toNat)
    (((packetDwords i).map dwordBytes).flatten) 512 16 16
    (by simp [packet_eq, packetHead]) rfl (by simp) (by decide)
  have small : i.tag.toNat < 256 ^ 2 := i.tag.isLt
  rw [packetImage, place, leNat_leBytes, Nat.mod_eq_of_lt small]
  simp

/-- The bytes of a packet give its opcode and its fields again (R55). -/
theorem readPacket_packetImage (op : Byte) (i : Issue) : readPacket i.host i.queue (packetImage op i) = (op, i) := by
  have dword (k : Nat) (hk : k < 15) : (packetImage op i).extractLsb' (32 * (k + 1)) 32 = (packetDwords i)[k]'hk :=
    packetImage_dword op i k hk
  simp only [readPacket, packetImage_op, packetImage_flags, packetImage_tag, dword 0 (by decide), dword 1 (by decide),
    dword 2 (by decide), dword 3 (by decide), dword 4 (by decide), dword 5 (by decide), dword 6 (by decide),
    dword 7 (by decide), dword 8 (by decide), dword 9 (by decide), dword 10 (by decide), dword 11 (by decide),
    dword 12 (by decide), dword 13 (by decide), dword 14 (by decide)]
  rfl

/-! ### Fetching -/

theorem exec_packetFetch (op : Byte) (i : Issue) (s : State) :
    exec (.packetFetch i.host i.queue (packetImage op i)) s = .next (s.submit op (bodyOf op.toNat) i) := by
  have fetch (w : BitVec 512) : exec (.packetFetch i.host i.queue w) s = .next (s.submit (readPacket i.host i.queue w).1
    (bodyOf (readPacket i.host i.queue w).1.toNat) (readPacket i.host i.queue w).2) := rfl
  rw [fetch, readPacket_packetImage]

/-- Every row of the table of opcodes submits its packet with the meaning of its opcode (R67). -/
theorem exec_opcodeRow : ∀ x ∈ opcodeRows, ∀ (i : Issue) (s : State),
    exec (x.2 i) s = .next (s.submit (BitVec.ofNat 8 x.1) (bodyOf (BitVec.ofNat 8 x.1).toNat) i) := by
  simp only [opcodeRows, List.cons_append, List.nil_append, List.forall_mem_cons, List.not_mem_nil, false_implies,
    implies_true, and_true]
  and_intros <;> intros <;> rfl

namespace State

theorem submit_unserved {s : State} {i : Issue} (hf : s.canFetch i.host i.queue = false) (op : Byte)
    (body : Cmd → State → State) : s.submit op body i = s := by
  rw [submit, if_neg (Bool.eq_false_iff.mp hf)]

/-- A packet whose turn has not come is fetched and waits (R62, R63). -/
theorem submit_waits {s : State} {op : Byte} {i : Issue} (hop : op ≠ 0x07) (hf : s.canFetch i.host i.queue = true)
    (hcrc : crcError s op i = none) (hturn : (s.taken op i).orderReady (s.mkCmd op i) = false)
    (body : Cmd → State → State) : s.submit op body i = s.fetched op i := by
  have taken : s.taken op i = s.fetched op i := if_neg hop
  rw [taken] at hturn
  simp only [submit, hf, if_true, hcrc, if_neg hop, hturn, Bool.false_eq_true, if_false]

end State

theorem packetFetchRunsItsRow : Clause.PacketFetchRunsItsRow := by
  refine fun s i => ⟨fun x hx => ?row, fun op hop hf hcrc hturn => ?waits, fun hr => ?nop⟩
  case row => rw [exec_packetFetch, exec_opcodeRow x hx]
  case waits =>
    rw [exec_packetFetch, State.submit_waits hop hf hcrc hturn]
    exact ⟨_, rfl, State.sessionOnly_fetched s op i, rfl, rfl, rfl, State.fetched_queue s op i⟩
  case nop =>
    rw [exec_packetFetch, State.submit_runs _ hr]
    exact ⟨_, rfl, State.begun_finish hr (by decide) {}⟩

theorem unservedQueueWaits : Clause.UnservedQueueWaits := by
  refine fun s i hf => ⟨fun x hx => ?_, fun w => ?_⟩
  · rw [exec_opcodeRow x hx, State.submit_unserved hf]
  · have idle : ∀ p : Byte × Issue, p.2.host = i.host → p.2.queue = i.queue → s.submit p.1 (bodyOf p.1.toNat) p.2 = s :=
      fun p hh hq => State.submit_unserved (by rw [hh, hq, hf]) _ _
    exact congrArg Host.Outcome.next (idle (readPacket i.host i.queue w) rfl rfl)

/-- Settles O11: the bytes of a packet give its row, and each case of the fetch has its equation above. -/
theorem packetFetch : Obligations.PacketFetch := ⟨packetFetchRunsItsRow, unservedQueueWaits⟩

end Sys2Proof.Machine
end

section
/-! SUPPORT. What stopping a command can change (R42, R101): stored words of the bursts that it had still to write, fills, what it
presents to the arbiters, and the engines and links that worked for it. -/

namespace Sys2Proof.Machine

/-! ### Stored words outside a write -/

/-- A write of one cell leaves the others, whatever the form of the memory. -/
theorem Memory.read_write_other {m : List Host.Cell} {a x : Nat} (hx : x ≠ a) (v : Byte) :
    Memory.read (Memory.write m a v) x = Memory.read m x := by
  induction m with
  | nil =>
    simp only [Memory.write]
    split
    · rfl
    · simp [Memory.read, hx.symm]
  | cons c m ih =>
    obtain ⟨k, b⟩ := c
    simp only [Memory.write]
    split
    · split
      · rfl
      · simp [Memory.read, hx.symm]
    · split
      · subst k
        split <;> simp [Memory.read, hx.symm]
      · simp [Memory.read, ih]

theorem Memory.read_writeN_outside {m : List Host.Cell} {a x : Nat} {bs : List Byte} (hx : x < a ∨ a + bs.length ≤ x) :
    Memory.read (Memory.writeN m a bs) x = Memory.read m x := by
  induction bs generalizing m a with
  | nil => rfl
  | cons b bs ih =>
    rw [List.length_cons] at hx
    rw [Memory.writeN, ih (by omega), Memory.read_write_other (by omega)]

theorem readWord_writeWord_other {m : List Host.Cell} {v w : Nat} (h : v ≠ w) (c : BitVec 80) :
    readWord (writeWord m w c) v = readWord m v := by
  have bytes : Memory.readN (writeWord m w c) (10 * v) 10 = Memory.readN m (10 * v) 10 :=
    Memory.readN_congr fun x _ _ => Memory.read_writeN_outside (by rw [leBytes_length]; omega)
  rw [readWord, bytes, readWord]

/-- A burst written leaves the words outside it. -/
theorem readWord_writeBurst_outside {m : List Host.Cell} {a w : Nat} {ws : List (BitVec 80)}
    (h : w < a / 8 ∨ a / 8 + ws.length ≤ w) : readWord (writeBurst m a ws) w = readWord m w := by
  have key (l : List (BitVec 80 × Nat)) (m : List Host.Cell) (hl : ∀ x ∈ l, w ≠ a / 8 + x.2) :
      readWord (l.foldl (fun acc x => writeWord acc (a / 8 + x.2) x.1) m) w = readWord m w := by
    induction l generalizing m with
    | nil => rfl
    | cons x l ih =>
      rw [List.foldl_cons, ih _ fun y hy => hl y (List.mem_cons_of_mem _ hy),
        readWord_writeWord_other (hl x List.mem_cons_self)]
  refine key _ m fun x hx => ?_
  have place : x.2 < ws.length := by
    have := List.snd_lt_of_mem_zipIdx hx
    omega
  omega

namespace State

/-! ### Writes that stay within some bursts -/

theorem WritesOnly.refl (s : State) (as : List Nat) : s.WritesOnly s as := fun _ _ => rfl

theorem WritesOnly.of_dram {s t : State} (h : t.raster.dram = s.raster.dram) (as : List Nat) : s.WritesOnly t as :=
  fun _ _ => by rw [h]

theorem WritesOnly.mono {s t : State} {as bs : List Nat} (h : s.WritesOnly t as) (hs : ∀ a ∈ as, a ∈ bs) :
    s.WritesOnly t bs :=
  fun w hw => h w fun a ha => hw a (hs a ha)

theorem WritesOnly.trans {s t u : State} {as : List Nat} (a : s.WritesOnly t as) (b : t.WritesOnly u as) :
    s.WritesOnly u as :=
  fun w hw => (b w hw).trans (a w hw)

theorem storeBurst_dram (s : State) (a : Nat) (ws : List (BitVec 80)) :
    ∃ vs : List (BitVec 80), vs.length = ws.length ∧ (s.storeBurst a ws).raster.dram = writeBurst s.raster.dram a vs := by
  unfold storeBurst
  simp only
  split
  · split
    · exact ⟨_, List.length_modify .., rfl⟩
    · exact ⟨ws, rfl, rfl⟩
  · exact ⟨ws, rfl, rfl⟩

theorem storeBurst_writesOnly (s : State) (a : Nat) {ws : List (BitVec 80)} (hl : ws.length = 8) :
    s.WritesOnly (s.storeBurst a ws) [a] := by
  intro w hw
  obtain ⟨vs, hv, e⟩ := s.storeBurst_dram a ws
  rw [e, readWord_writeBurst_outside]
  rw [hv, hl]
  exact hw a (List.mem_singleton.mpr rfl)

/-! ### What stopping commands changes -/

/-- Nothing but commands in flight, raster memory, the channels, and what works for commands has changed; of stored words only
those of some bursts, no ashlar has come to be written, and no more bursts are presented. -/
structure StopOnly (s t : State) (as : List Nat) : Prop where
  frame : t = { s with cmds := t.cmds, logs := t.logs, raster := t.raster, comps := t.comps, writeback := t.writeback
                       links := t.links, chans := t.chans }
  writes : s.WritesOnly t as
  written : ∀ n ∈ t.raster.written, n ∈ s.raster.written
  bursts : ∀ id, ∀ b ∈ t.presentedBursts id, b ∈ s.presentedBursts id

theorem StopOnly.refl (s : State) (as : List Nat) : StopOnly s s as :=
  ⟨rfl, WritesOnly.refl s as, fun _ h => h, fun _ _ h => h⟩

theorem StopOnly.mono {s t : State} {as bs : List Nat} (h : StopOnly s t as) (hs : ∀ a ∈ as, a ∈ bs) : StopOnly s t bs :=
  { h with writes := h.writes.mono hs }

theorem StopOnly.trans {s t u : State} {as : List Nat} (a : StopOnly s t as) (b : StopOnly t u as) : StopOnly s u as where
  frame := by rw [b.frame, a.frame]
  writes := a.writes.trans b.writes
  written n h := a.written n (b.written n h)
  bursts id x h := a.bursts id x (b.bursts id x h)

/-- Fewer transfers at the arbiters and fewer bursts in the writeback requester are fewer bursts presented. -/
theorem presentedBursts_mono {s t : State} (hx : ∀ c, ∀ x ∈ t.transfers c, x ∈ s.transfers c)
    (hw : ∀ x ∈ t.writeback, x ∈ s.writeback) (id : Nat) : ∀ b ∈ t.presentedBursts id, b ∈ s.presentedBursts id := by
  intro b hb
  simp only [presentedBursts, List.mem_append, List.mem_flatMap, List.mem_filter, List.mem_map] at hb ⊢
  obtain ⟨c, hc, x, ⟨hmem, hof⟩, hbx⟩ | ⟨x, ⟨hmem, hof⟩, hbx⟩ := hb
  · exact .inl ⟨c, hc, x, ⟨hx c x hmem, hof⟩, hbx⟩
  · exact .inr ⟨x, ⟨hw x hmem, hof⟩, hbx⟩

/-- A burst written changes in its channel only what the channel keeps of writes. -/
theorem storeBurst_chans (s : State) (a : Nat) (ws : List (BitVec 80)) :
    ∃ f : Chan → Chan, (∀ x, ∃ m v, f x = { x with armed := m, subs := v }) ∧
      (s.storeBurst a ws).chans = vmod s.chans (s.raster.loc a).chan f := by
  unfold storeBurst
  simp only
  split
  · split
    · exact ⟨_, fun x => ⟨none, _, rfl⟩, rfl⟩
    · exact ⟨_, fun x => ⟨x.armed, _, rfl⟩, rfl⟩
  · exact ⟨_, fun x => ⟨x.armed, _, rfl⟩, rfl⟩

theorem storeBurst_arb (s : State) (a : Nat) (ws : List (BitVec 80)) (c : ChanId) :
    (s.storeBurst a ws).chans[c.val].arb = s.chans[c.val].arb := by
  obtain ⟨f, hf, e⟩ := s.storeBurst_chans a ws
  rw [e]
  by_cases hc : (s.raster.loc a).chan = c
  · subst hc
    obtain ⟨m, v, hx⟩ := hf s.chans[(s.raster.loc a).chan.val]
    rw [vmod_same, hx]
  · rw [vmod_other _ _ _ _ hc]

theorem transfers_congr {s t : State} {c : ChanId} (h : t.chans[c.val].arb = s.chans[c.val].arb) :
    t.transfers c = s.transfers c := by
  simp only [transfers, Fin.getElem_fin, h]

theorem storeBurst_stopOnly (s : State) (a : Nat) {ws : List (BitVec 80)} (hl : ws.length = 8) :
    StopOnly s (s.storeBurst a ws) [a] where
  frame := by
    unfold storeBurst
    simp only
    repeat' split
    all_goals rfl
  writes := s.storeBurst_writesOnly a hl
  written n h := by
    have kept : (s.storeBurst a ws).raster.written = s.raster.written := by
      unfold storeBurst
      simp only
      repeat' split
      all_goals rfl
    rwa [kept] at h
  bursts := by
    have kept : (s.storeBurst a ws).writeback = s.writeback := by
      unfold storeBurst
      simp only
      repeat' split
      all_goals rfl
    refine presentedBursts_mono (fun c x hx => ?_) (fun x hx => kept ▸ hx)
    rwa [transfers_congr (s.storeBurst_arb a ws c)] at hx

/-- The bursts that a WRITE_RAW or a ZERO has handed out and still to write; none of another command. -/
def openBursts (s : State) (c : Cmd) : List Nat :=
  if c.op = 0x12 ∨ c.op = 0x15 then (c.todo ++ s.presentedBursts c.id).map (·.addr) else []

theorem levelWrites_stopOnly (s : State) (c : Cmd) : StopOnly s (s.levelWrites c) (s.openBursts c) := by
  unfold levelWrites
  by_cases hw : c.op = 0x12 ∨ c.op = 0x15
  · rw [if_pos hw, openBursts, if_pos hw]
    simp only
    split
    · exact StopOnly.refl ..
    · have key (f : State → Burst → List (BitVec 80)) (hf : ∀ u b, (f u b).length = 8) (l : List Burst) (u : State) :
          StopOnly u (l.foldl (fun acc b => acc.storeBurst b.addr (f acc b)) u) (l.map (·.addr)) := by
        induction l generalizing u with
        | nil => exact StopOnly.refl ..
        | cons b l ih =>
          refine ((u.storeBurst_stopOnly b.addr (hf u b)).mono ?_).trans ((ih _).mono ?_)
          · simp
          · simp +contextual
      refine (key _ (fun u b => by simp) _ s).mono fun a ha => ?_
      obtain ⟨b, hb, rfl⟩ := List.mem_map.mp ha
      exact List.mem_map_of_mem (List.mem_filter.mp hb).1
  · rw [if_neg hw]
    exact StopOnly.refl ..

theorem orphanFills_stopOnly (s : State) (c : Cmd) (as : List Nat) : StopOnly s (s.orphanFills c) as where
  frame := rfl
  writes := WritesOnly.of_dram rfl as
  written _ h := (List.mem_filter.mp h).1
  bursts _ _ h := h

theorem withdraw_stopOnly (s : State) (id : Nat) (as : List Nat) : StopOnly s (s.withdraw id) as where
  frame := rfl
  writes := WritesOnly.of_dram rfl as
  written _ h := h
  bursts := by
    refine presentedBursts_mono (fun c x hx => ?_) (fun x hx => (List.mem_filter.mp hx).1)
    simp only [transfers, withdraw, Fin.getElem_fin, Vector.getElem_map, List.mem_append, List.mem_flatten, Option.mem_toList,
      Vector.mem_toList_iff, Vector.mem_map, Option.map_eq_some_iff, Option.filter_eq_some_iff] at hx ⊢
    obtain ⟨l, ⟨r, hr, rfl⟩, hx⟩ | ⟨y, ⟨hy, -⟩, rfl⟩ := hx
    · exact .inl ⟨r, hr, (List.mem_filter.mp hx).1⟩
    · exact .inr ⟨y, hy, rfl⟩

/-- The engines, their tests and the links that worked for a command have it no more. -/
def freed (s : State) (id : Nat) : State :=
  { s with
    comps := s.comps.map fun e => { e with
      job := if e.job = some id then none else e.job
      test := if e.test = some id then none else e.test }
    links := s.links.map fun l => match l.sending with
      | some m => if m.cmd = id then { l with sending := none } else l
      | none => l }

theorem release_found {s : State} {id : Nat} {c : Cmd} (hc : s.findCmd id = some c) :
    s.release id = (((s.levelWrites c).orphanFills c).withdraw id).freed id := by
  rw [release, hc]
  rfl

theorem freed_stopOnly (s : State) (id : Nat) (as : List Nat) : StopOnly s (s.freed id) as :=
  ⟨rfl, WritesOnly.of_dram rfl as, fun _ h => h, fun _ _ h => h⟩

/-- Stopping a command in flight writes no burst but those that it had still to write. -/
theorem release_stopOnly {s : State} {id : Nat} {c : Cmd} (hc : s.findCmd id = some c) :
    StopOnly s (s.release id) (s.openBursts c) := by
  rw [release_found hc]
  exact (((s.levelWrites_stopOnly c).trans (orphanFills_stopOnly _ c _)).trans (withdraw_stopOnly _ id _)).trans
    (freed_stopOnly _ id _)

/-- Steps that leave what is read of a state leave it together. -/
theorem foldl_same {α β : Type} (g : State → β) (f : State → α → State) (hf : ∀ s x, g (f s x) = g s) (l : List α) (s : State) :
    g (l.foldl f s) = g s := by
  induction l generalizing s with
  | nil => rfl
  | cons x l ih => rw [List.foldl_cons, ih, hf]

@[simp] theorem storeBurst_cmds (s : State) (a : Nat) (ws : List (BitVec 80)) : (s.storeBurst a ws).cmds = s.cmds := by
  unfold storeBurst
  simp only
  repeat' split
  all_goals rfl

@[simp] theorem levelWrites_cmds (s : State) (c : Cmd) : (s.levelWrites c).cmds = s.cmds := by
  unfold levelWrites
  split
  · simp only
    split
    · rfl
    · exact foldl_same State.cmds _ (fun _ _ => storeBurst_cmds ..) _ s
  · rfl

@[simp] theorem orphanFills_cmds (s : State) (c : Cmd) : (s.orphanFills c).cmds = s.cmds := rfl
@[simp] theorem withdraw_cmds (s : State) (id : Nat) : (s.withdraw id).cmds = s.cmds := rfl
@[simp] theorem freed_cmds (s : State) (id : Nat) : (s.freed id).cmds = s.cmds := rfl

/-- Stopping a command leaves it in flight until it is discarded or completes. -/
@[simp] theorem release_cmds (s : State) (id : Nat) : (s.release id).cmds = s.cmds := by
  cases hc : s.findCmd id with
  | none => rw [release, hc]
  | some c => simp [release_found hc]

/-! ### Stopping every command of a host -/

/-- A command is stopped and discarded: what its compressor had taken is freed. -/
def discard (s : State) (c : Cmd) : State := ((s.release c.id).freeTaken c).dropCmd c.id

theorem discard_cmds (s : State) (c : Cmd) : (s.discard c).cmds = s.cmds.filter fun x => x.id ≠ c.id := by
  simp [discard, freeTaken]

theorem discard_stopOnly {s : State} {c : Cmd} (hc : s.findCmd c.id = some c) :
    StopOnly s (s.discard c) (s.openBursts c) := by
  have taken (u : State) : StopOnly u (u.freeTaken c) (s.openBursts c) :=
    ⟨rfl, WritesOnly.of_dram rfl _, fun _ h => h, fun _ _ h => h⟩
  have dropped (u : State) : StopOnly u (u.dropCmd c.id) (s.openBursts c) :=
    ⟨rfl, WritesOnly.of_dram rfl _, fun _ h => h, fun _ _ h => h⟩
  exact ((release_stopOnly hc).trans (taken _)).trans (dropped _)

theorem openBursts_mono {s t : State} {as : List Nat} (h : StopOnly s t as) (c : Cmd) :
    ∀ a ∈ t.openBursts c, a ∈ s.openBursts c := by
  intro a ha
  unfold openBursts at ha ⊢
  split at ha
  · rw [if_pos ‹_›]
    obtain ⟨b, hb, rfl⟩ := List.mem_map.mp ha
    refine List.mem_map_of_mem ?_
    exact (List.mem_append.mp hb).elim (List.mem_append_left _) (fun hp => List.mem_append_right _ (h.bursts c.id b hp))
  · exact absurd ha List.not_mem_nil

/-- Commands of distinct numbers that are in flight are found by their numbers. -/
theorem find_of_mem {l : List Cmd} (hl : l.Pairwise fun a b => a.id ≠ b.id) {c : Cmd} (hc : c ∈ l) :
    l.find? (fun x => decide (x.id = c.id)) = some c := by
  induction l with
  | nil => exact absurd hc List.not_mem_nil
  | cons x l ih =>
    rw [List.pairwise_cons] at hl
    obtain rfl | hc := List.mem_cons.mp hc
    · simp
    · rw [List.find?_cons_of_neg (by simpa using hl.1 c hc), ih hl.2 hc]

/-- Discarding commands one after the other: all of them leave flight, and no burst is written but what they had open at the
start. -/
theorem foldl_discard {l : List Cmd} {s : State} (hs : s.cmds.Pairwise fun a b => a.id ≠ b.id) (hl : l.Pairwise fun a b => a.id ≠ b.id)
    (hm : ∀ c ∈ l, c ∈ s.cmds) :
    StopOnly s (l.foldl discard s) (l.flatMap s.openBursts) ∧
      (l.foldl discard s).cmds = s.cmds.filter fun c => !(l.map (·.id)).contains c.id := by
  induction l generalizing s with
  | nil => exact ⟨StopOnly.refl .., by simp⟩
  | cons c l ih =>
    rw [List.pairwise_cons] at hl
    have first := discard_stopOnly (find_of_mem hs (hm c List.mem_cons_self))
    have rest_in : ∀ x ∈ l, x ∈ (s.discard c).cmds := fun x hx => by
      rw [discard_cmds, List.mem_filter]
      exact ⟨hm x (List.mem_cons_of_mem _ hx), by simpa using (hl.1 x hx).symm⟩
    obtain ⟨rest, cmds⟩ := ih (s := s.discard c) (by rw [discard_cmds]; exact hs.filter _) hl.2 rest_in
    refine ⟨(first.mono fun a ha => ?_).trans (rest.mono fun a ha => ?_), ?_⟩
    · exact List.mem_flatMap.mpr ⟨c, List.mem_cons_self, ha⟩
    · obtain ⟨x, hx, hax⟩ := List.mem_flatMap.mp ha
      exact List.mem_flatMap.mpr ⟨x, List.mem_cons_of_mem _ hx, openBursts_mono first x a hax⟩
    · rw [List.foldl_cons, cmds, discard_cmds, List.filter_filter]
      refine List.filter_congr fun x _ => ?_
      simp [Bool.and_comm]

theorem stopHost_eq (s : State) (h : HostId) : s.stopHost h = (List.finRange 4).foldl (fun acc q => acc.settleDisable h q)
    ((s.cmds.filter fun c => c.iss.host = h).foldl discard s) := rfl

end State

end Sys2Proof.Machine
end

section
/-! SUPPORT. FENCE_HOST, and what fencing a host does (R34, R42, R101). -/

namespace Sys2Proof.Machine

namespace State

/-! ### Changes of one host's record -/

theorem updHost_updHost (s : State) (h : HostId) (f g : HostRec → HostRec) :
    (s.updHost h f).updHost h g = s.updHost h fun r => g (f r) := by
  simp [updHost, vmod, vset]

theorem updHost_self (s : State) (h : HostId) : s.updHost h (fun r => r) = s := by
  simp [updHost, vmod, vset]

/-- The queues of a host are these. -/
def withQueues (s : State) (h : HostId) (qs : Vector Queue 4) : State := s.updHost h fun r => { r with queues := qs }

theorem withQueues_self (s : State) (h : HostId) : s.withQueues h s.hosts[h].queues = s := by
  conv_rhs => rw [← s.updHost_self h]
  exact updHost_congr rfl

theorem withQueues_withQueues (s : State) (h : HostId) (qs qs' : Vector Queue 4) :
    (s.withQueues h qs).withQueues h qs' = s.withQueues h qs' :=
  updHost_updHost ..

/-- Settling disables of a host's queues changes its queues alone. -/
theorem settleDisable_eq (s : State) (h : HostId) (q : QueueId) : ∃ qs, s.settleDisable h q = s.withQueues h qs := by
  unfold settleDisable
  split
  · exact ⟨_, updHost_congr rfl⟩
  · exact ⟨_, (s.withQueues_self h).symm⟩

theorem foldl_settleDisable_eq (l : List QueueId) (s : State) (h : HostId) :
    ∃ qs, l.foldl (fun acc q => acc.settleDisable h q) s = s.withQueues h qs := by
  induction l generalizing s with
  | nil => exact ⟨_, (s.withQueues_self h).symm⟩
  | cons q l ih =>
    obtain ⟨qs, first⟩ := s.settleDisable_eq h q
    obtain ⟨qs', rest⟩ := ih (s.withQueues h qs)
    exact ⟨qs', by rw [List.foldl_cons, first, rest, withQueues_withQueues]⟩

theorem withQueues_other (s : State) {h k : HostId} (hk : k ≠ h) (qs : Vector Queue 4) :
    (s.withQueues h qs).hosts[k] = s.hosts[k] := vmod_other _ _ _ _ hk.symm

theorem withQueues_same (s : State) (h : HostId) (qs : Vector Queue 4) :
    (s.withQueues h qs).hosts[h] = { s.hosts[h] with queues := qs } := vmod_same ..

/-! ### Stopping a host -/

/-- The bursts that the WRITE_RAW and ZERO commands of a host have still to write. -/
def hostBursts (s : State) (h : HostId) : List Nat :=
  (s.cmds.filter fun c => c.iss.host = h && (c.op == 0x12 || c.op == 0x15)).flatMap fun c =>
    (c.todo ++ s.presentedBursts c.id).map (·.addr)

theorem openBursts_mem_hostBursts {s : State} {h : HostId} {c : Cmd} (hc : c ∈ s.cmds) (hh : c.iss.host = h) :
    ∀ a ∈ s.openBursts c, a ∈ s.hostBursts h := by
  intro a ha
  unfold openBursts at ha
  split at ha
  · refine List.mem_flatMap.mpr ⟨c, List.mem_filter.mpr ⟨hc, ?_⟩, ha⟩
    simpa [hh] using ‹c.op = 0x12 ∨ c.op = 0x15›
  · exact absurd ha List.not_mem_nil

/-- Stopping a host takes its commands out of flight, writes no burst but those that they had still to write, and may settle
disables of its queues. -/
theorem stopHost_only {s : State} (hs : s.cmds.Pairwise fun a b => a.id ≠ b.id) (h : HostId) :
    ∃ u qs, s.stopHost h = u.withQueues h qs ∧ StopOnly s u (s.hostBursts h) ∧
      u.cmds = s.cmds.filter fun c => c.iss.host ≠ h := by
  obtain ⟨qs, settled⟩ := foldl_settleDisable_eq (List.finRange 4)
    ((s.cmds.filter fun c => c.iss.host = h).foldl discard s) h
  obtain ⟨stopped, cmds⟩ := foldl_discard hs (hs.filter fun c => c.iss.host = h) fun c hc => (List.mem_filter.mp hc).1
  refine ⟨_, qs, (s.stopHost_eq h).trans settled, stopped.mono fun a ha => ?_, cmds.trans ?_⟩
  · obtain ⟨c, hc, hac⟩ := List.mem_flatMap.mp ha
    rw [List.mem_filter, decide_eq_true_eq] at hc
    exact openBursts_mem_hostBursts hc.1 hc.2 a hac
  · refine List.filter_congr fun c hc => ?_
    by_cases hh : c.iss.host = h
    · have mine : c.id ∈ (s.cmds.filter fun c => c.iss.host = h).map (·.id) :=
        List.mem_map_of_mem (List.mem_filter.mpr ⟨hc, decide_eq_true hh⟩)
      simpa [hh] using mine
    · have theirs : c.id ∉ (s.cmds.filter fun c => c.iss.host = h).map (·.id) := by
        intro hmem
        obtain ⟨x, hx, e⟩ := List.mem_map.mp hmem
        rw [List.mem_filter, decide_eq_true_eq] at hx
        have same := (find_of_mem hs hx.1).symm.trans (e ▸ find_of_mem hs hc)
        exact hh (Option.some.inj same ▸ hx.2)
      simpa [hh] using theirs

section
variable {s t : State} {as : List Nat} (a : StopOnly s t as)
include a

theorem StopOnly.hosts : t.hosts = s.hosts := by rw [a.frame]
theorem StopOnly.role : t.role = s.role := by rw [a.frame]
theorem StopOnly.parts : t.parts = s.parts := by rw [a.frame]
theorem StopOnly.out : t.out = s.out := by rw [a.frame]

end

/-! ### Fencing -/

/-- Logging a fence changes the logs alone. -/
theorem logFence_frame (s : State) (h : HostId) (cause issuer : Nat) (steward : Bool) (cs : List Cmd) :
    ∃ m, s.logFence h cause issuer steward cs = { s with logs := m } := by
  have key {α : Type} (f : State → α → State) (hf : ∀ u x, ∃ l, f u x = { u with logs := l }) (l : List α) (u : State) :
      ∃ m, l.foldl f u = { u with logs := m } := by
    induction l generalizing u with
    | nil => exact ⟨u.logs, rfl⟩
    | cons x l ih =>
      obtain ⟨m, hm⟩ := hf u x
      obtain ⟨m', hm'⟩ := ih (f u x)
      exact ⟨m', by rw [List.foldl_cons, hm', hm]⟩
  exact key _ (fun u i => ⟨_, rfl⟩) _ s

/-- A host is FENCED with its cause, and the role is vacant if it held it (R34, R42). -/
def fencedOff (s : State) (h : HostId) (cause : Fin 4) : State :=
  (s.updHost h fun r => { r with st := .fenced, fenceCause := cause }).vacate h

@[simp] theorem vacate_raster (s : State) (h : HostId) : (s.vacate h).raster = s.raster := by
  unfold vacate
  split <;> rfl

@[simp] theorem vacate_chans (s : State) (h : HostId) : (s.vacate h).chans = s.chans := by
  unfold vacate
  split <;> rfl

@[simp] theorem vacate_writeback (s : State) (h : HostId) : (s.vacate h).writeback = s.writeback := by
  unfold vacate
  split <;> rfl

theorem fence_eq (s : State) (h : HostId) (cause : Fin 4) (issuer : Nat) : s.fence h cause issuer =
    (((s.fencedOff h cause).stopHost h).logFence h cause.val issuer (s.isSteward h)
      (s.cmds.filter fun c => c.iss.host = h)).raiseHost h := rfl

/-- What a host presents and has handed out is read from the channels, the writeback requester and its commands. -/
theorem hostBursts_congr {s t : State} (hch : t.chans = s.chans) (hw : t.writeback = s.writeback) (hc : t.cmds = s.cmds)
    (h : HostId) : t.hostBursts h = s.hostBursts h := by
  have presented (id : Nat) : t.presentedBursts id = s.presentedBursts id := by
    simp only [presentedBursts, transfers, hch, hw]
  simp only [hostBursts, hc, presented]

theorem Raised.cmds {s t : State} (a : Raised s t) : t.cmds = s.cmds := by
  obtain ⟨hs, ev, o, rfl, -⟩ := a
  rfl

/-- A fence stops the host and settles its queues, writes its log and raises the host's source. -/
theorem fence_only {s : State} (hs : s.cmds.Pairwise fun a b => a.id ≠ b.id) (h : HostId) (cause : Fin 4) (issuer : Nat) :
    ∃ u qs l, StopOnly (s.fencedOff h cause) u (s.hostBursts h) ∧ (u.cmds = s.cmds.filter fun c => c.iss.host ≠ h) ∧
      Raised { u.withQueues h qs with logs := l } (s.fence h cause issuer) := by
  have off_cmds : (s.fencedOff h cause).cmds = s.cmds := vacate_cmds ..
  have off_bursts : (s.fencedOff h cause).hostBursts h = s.hostBursts h :=
    hostBursts_congr (vacate_chans ..) (vacate_writeback ..) off_cmds h
  obtain ⟨u, qs, stopped, only, cmds⟩ := stopHost_only (s := s.fencedOff h cause) (off_cmds ▸ hs) h
  obtain ⟨l, logged⟩ := logFence_frame ((s.fencedOff h cause).stopHost h) h cause.val issuer (s.isSteward h)
    (s.cmds.filter fun c => c.iss.host = h)
  refine ⟨u, qs, l, off_bursts ▸ only, off_cmds ▸ cmds, ?_⟩
  rw [fence_eq, logged, stopped]
  exact raised_raiseHost ..

theorem fencedOff_same (s : State) (h : HostId) (cause : Fin 4) :
    (s.fencedOff h cause).hosts[h] = { s.hosts[h] with st := .fenced, fenceCause := cause } := by
  simp [fencedOff]

theorem fencedOff_other (s : State) {h k : HostId} (hk : k ≠ h) (cause : Fin 4) :
    (s.fencedOff h cause).hosts[k] = s.hosts[k] := by
  rw [fencedOff, vacate_hosts]
  exact vmod_other _ _ _ _ hk.symm

end State

theorem fenceStopsHost : Clause.FenceStopsHost := by
  intro s h cause issuer hfresh t writers
  obtain ⟨-, hs⟩ := hfresh
  obtain ⟨u, qs, l, only, cmds, raised⟩ := State.fence_only hs h cause issuer
  have same := raised.sessionOnly
  have role : t.role = (s.fencedOff h cause).role := same.role.trans only.role
  have settled (k : HostId) : t.hosts[k].st = (s.fencedOff h cause).hosts[k].st ∧
      t.hosts[k].fenceCause = (s.fencedOff h cause).hosts[k].fenceCause := by
    have record : (u.withQueues h qs).hosts[k].st = (s.fencedOff h cause).hosts[k].st ∧
        (u.withQueues h qs).hosts[k].fenceCause = (s.fencedOff h cause).hosts[k].fenceCause := by
      rw [← only.hosts]
      by_cases hk : k = h
      · subst hk
        rw [State.withQueues_same]
        exact ⟨rfl, rfl⟩
      · rw [State.withQueues_other _ hk]
        exact ⟨rfl, rfl⟩
    exact ⟨(same.st k).trans record.1, (same.sameHost HostRec.fenceCause (fun _ _ _ _ _ => rfl) k).trans record.2⟩
  refine ⟨?st, ?cause, ?cmds, ?vacant, fun hn => ?role, ?parts, ?writes, fun k hk => ?others⟩
  case st => rw [(settled h).1, State.fencedOff_same]
  case cause => rw [(settled h).2, State.fencedOff_same]
  case cmds => exact raised.cmds.trans cmds
  case vacant => exact role ▸ State.vacate_holder (s.updHost h _) h
  case role =>
    rw [role, State.fencedOff, State.vacate_other (s := s.updHost h _) hn]
    rfl
  case parts => exact (same.parts.trans only.parts).trans (State.vacate_parts ..)
  case writes =>
    intro w hw
    rw [same.raster]
    exact (only.writes w hw).trans (by rw [State.fencedOff, State.vacate_raster]; rfl)
  case others => rw [(settled k).1, State.fencedOff_other s hk]

/-! ### FENCE_HOST -/

theorem exec_fenceHost (i : Issue) (s : State) : exec (.fenceHost i) s = .next (s.submit 0x0A bodyFenceHost i) := rfl

theorem bodyFenceHost_eq {c : Cmd} {h : HostId} (hc : Fin.ofNat 4 (c.f 0 0 2) = h) (s : State) : bodyFenceHost c s =
    if h = c.host then s.finish c.id { status := .invalidField, detail := 0x06 }
    else if s.attached h = false then s.finish c.id { status := .notAttached, detail := 0x07 }
    else (s.fence h 1 c.host.val).succeed c.id (s.hostFlight h) := by
  subst hc
  simp only [bodyFenceHost, Bool.not_eq_true']
  rfl

/-- A packet of another host does not count among a host's commands in flight. -/
theorem begun_hostFlight {s : State} {op : Byte} {i : Issue} {h : HostId} (hh : h ≠ i.host) :
    (s.begun op i).hostFlight h = s.hostFlight h := by
  have flight : (s.begun op i).cmds = s.cmds ++ [{ s.issued op i with prog := .event }] := rfl
  simp [State.hostFlight, flight, State.issued, hh.symm]

theorem fenceHostDecides : Clause.FenceHostDecides := by
  intro s i hr h
  have frame := State.sessionOnly_begun s i (op := 0x0A) (by decide)
  rw [exec_fenceHost, State.submit_runs _ hr, bodyFenceHost_eq (h := h) rfl]
  refine ⟨fun hself => ?self, fun hother hun => ?unattached, fun hother hatt => ?fence⟩
  case self =>
    rw [if_pos (show h = (s.issued 0x0A i).host from hself)]
    exact ⟨_, rfl, State.begun_finish hr (by decide) _⟩
  case unattached =>
    rw [if_neg (show ¬h = (s.issued 0x0A i).host from hother), if_pos ((frame.attached h).trans hun)]
    exact ⟨_, rfl, State.begun_finish hr (by decide) _⟩
  case fence =>
    rw [if_neg (show ¬h = (s.issued 0x0A i).host from hother), if_neg (by rw [frame.attached, hatt]; decide), begun_hostFlight hother]
    rfl

/-- Settles O17: the cases of FENCE_HOST, and what the fence makes of the host, its commands and raster memory. -/
theorem fencing : Obligations.Fencing := ⟨fenceHostDecides, fenceStopsHost⟩

end Sys2Proof.Machine
end

section
/-! SUPPORT. Port resets, links that come up, and heartbeat deadlines (R24, R26, R27, R34, R40, R101, R418). -/

namespace Sys2Proof.Machine

namespace State

/-! ### Raising that does not reach a host -/

/-- Raising has left a host's record alone, and has put out messages only. -/
structure Bypasses (s t : State) (h : HostId) : Prop where
  spared : t.hosts[h.val] = s.hosts[h.val]
  msgs : ∀ o ∈ t.out, o ∈ s.out ∨ ∃ j v, o = .msix j v

theorem Bypasses.refl (s : State) (h : HostId) : Bypasses s s h := ⟨rfl, fun _ => .inl⟩

theorem Bypasses.trans {s t u : State} {h : HostId} (a : Bypasses s t h) (b : Bypasses t u h) : Bypasses s u h :=
  ⟨b.spared.trans a.spared, fun o ho => (b.msgs o ho).elim (a.msgs o) .inr⟩

section
variable {h k : HostId} (hk : k ≠ h)
include hk

theorem bypasses_updHost (s : State) (f : HostRec → HostRec) : Bypasses s (s.updHost k f) h :=
  ⟨vmod_other _ _ _ _ hk, fun _ => .inl⟩

theorem bypasses_sendMsg (s : State) (v : Fin 32) : Bypasses s (s.sendMsg k v) h := by
  unfold sendMsg
  split
  · exact bypasses_updHost hk s _
  · split
    · exact ⟨rfl, fun o ho => (List.mem_cons.mp ho).elim (fun e => .inr ⟨k, v, e⟩) .inl⟩
    · exact Bypasses.refl s h

theorem bypasses_countRaise (s : State) (v : Fin 32) : Bypasses s (s.countRaise k v) h := by
  unfold countRaise
  simp only
  split
  · exact bypasses_sendMsg hk s v
  · split
    · exact (bypasses_sendMsg hk s v).trans (bypasses_updHost hk _ _)
    · split
      · exact (bypasses_sendMsg hk s v).trans (bypasses_updHost hk _ _)
      · exact bypasses_updHost hk s _

theorem bypasses_deliver (s : State) (n : Fin 96) (v : Fin 32) : Bypasses s (s.deliver n k v) h := by
  unfold deliver
  simp only
  split
  · exact bypasses_updHost hk s _
  · exact (bypasses_updHost hk s _).trans (bypasses_countRaise hk _ v)

end

/-- A source of a routed class goes to hosts that are attached or hold the role. -/
theorem routeHost_reach {s : State} {n : Fin 96} {k : HostId} (hr : s.routeHost n = some k) :
    s.attached k = true ∨ s.role.holder = some k := by
  unfold routeHost at hr
  simp only at hr
  split at hr
  · split at hr
    · obtain rfl := Option.some.inj hr
      exact .inl ‹_›
    · exact .inr hr
  · exact .inr hr

/-- Raising a routed source does not reach a host that is not attached and does not hold the role (R414). -/
theorem bypasses_raise {s : State} {n : Fin 96} {h : HostId} (hn : 16 ≤ n.val) (hout : s.attached h = false)
    (hrole : s.role.holder ≠ some h) : Bypasses s (s.raise n) h := by
  unfold raise
  split
  · exact Bypasses.refl s h
  · refine (⟨rfl, fun _ => .inl⟩ : Bypasses s (s.latchPins n) h).trans ?_
    have reach : ∀ k, (s.latchPins n).routeHost n = some k → k ≠ h := by
      rintro k hr rfl
      obtain hatt | hheld := routeHost_reach hr
      · exact Bool.false_ne_true (hout.symm.trans hatt)
      · exact hrole hheld
    have holder : ∀ k, (s.latchPins n).role.holder = some k → k ≠ h := by
      rintro k hheld rfl
      exact hrole hheld
    generalize s.latchPins n = u at reach holder
    have held (x : State) : Bypasses x (x.hold n) h := ⟨rfl, fun _ => .inl⟩
    simp only [show ¬n.val < 16 by omega, dif_neg, not_false_eq_true]
    have dest_reach : ∀ k, (if u.events.routes[n].enable then u.routeHost n else none) = some k → k ≠ h := by
      intro k hr
      split at hr
      · exact reach k hr
      · exact absurd hr nofun
    generalize (if u.events.routes[n].enable then u.routeHost n else none) = dest at dest_reach
    have routed (d : Option HostId) : (∀ k, d = some k → k ≠ h) → Bypasses u (match d with
        | some x => u.deliver n x u.events.routes[n].vector
        | none => if u.events.routes[n].enable then u.hold n else u) h := by
      intro hd
      cases d with
      | some x => exact bypasses_deliver (hd x rfl) u n _
      | none =>
        simp only
        split
        · exact held u
        · exact Bypasses.refl u h
    have faulted (x : State) : Bypasses x (match u.role.holder with
        | some st => if dest = some st then x else x.deliver n st u.events.routes[n].vector
        | none => x.hold n) h := by
      cases hst : u.role.holder with
      | some st =>
        simp only
        split
        · exact Bypasses.refl x h
        · exact bypasses_deliver (holder st hst) x n _
      | none => exact held x
    split
    · exact (routed dest dest_reach).trans (faulted _)
    · exact routed dest dest_reach

/-! ### Port resets -/

/-- Of a host whose commands have been stopped: the role is not its own, its partitions are reserved for it, and its registers are
at their reset values (R26, R27, R34, R418). -/
def portDown (s : State) (h : HostId) : State :=
  let s1 := ((s.vacate h).reserve h).updHost h HostRec.portReset
  { s1 with ks := { s1.ks with cmds := s1.ks.cmds.filter fun x => (s1.findCmd x.1).isSome } }

theorem resetPort_eq (s : State) (h : HostId) : s.resetPort h =
    if s.hosts[h].st = .down then (s.stopHost h).portDown h else ((s.stopHost h).portDown h).raiseHost h := rfl

theorem portDown_same (s : State) (h : HostId) : (s.portDown h).hosts[h] = s.hosts[h].portReset := by
  simp [portDown, reserve]

theorem portDown_queue (s : State) (h : HostId) (q : QueueId) :
    ((s.portDown h).queue h q).enable = false ∧ ((s.portDown h).queue h q).vector.val = q.val := by
  have reset : (s.portDown h).queue h q = resetQueues[q] := by
    rw [queue, portDown_same]
    rfl
  rw [reset]
  simp [resetQueues]

theorem portDown_other (s : State) {h j : HostId} (hj : j ≠ h) : (s.portDown h).hosts[j] = s.hosts[j] := by
  have kept : (s.portDown h).hosts[j] = (s.vacate h).hosts[j] := vmod_other _ _ _ _ hj.symm
  rw [kept, vacate_hosts]

theorem portDown_cmds (s : State) (h : HostId) : (s.portDown h).cmds = s.cmds := vacate_cmds ..

theorem portDown_out (s : State) (h : HostId) : (s.portDown h).out = s.out := vacate_out ..

theorem portDown_raster (s : State) (h : HostId) : (s.portDown h).raster = s.raster := vacate_raster ..

theorem portDown_role (s : State) (h : HostId) : (s.portDown h).role = (s.vacate h).role := rfl

theorem portDown_parts (s : State) (h : HostId) (p : Fin 16) : (s.portDown h).parts[p] =
    if s.parts[p].owner = some h then { s.parts[p] with reserved := some h } else s.parts[p] := by
  have kept := reserve_parts (s.vacate h) h p
  rw [vacate_parts] at kept
  exact kept

/-- The source of a host that is down does not reach it. -/
theorem portDown_raises (s : State) (h : HostId) : Bypasses (s.portDown h) ((s.portDown h).raiseHost h) h := by
  have down : (s.portDown h).attached h = false := by
    rw [attached, portDown_same]
    rfl
  exact bypasses_raise (by simp; omega) down (vacate_holder s h)

/-- A reset of a port stops its host's commands and settles its queues, brings the port down, and raises a source that does not
reach the host. -/
theorem resetPort_only {s : State} (hs : s.cmds.Pairwise fun a b => a.id ≠ b.id) (h : HostId) :
    ∃ u qs, StopOnly s u (s.hostBursts h) ∧ (u.cmds = s.cmds.filter fun c => c.iss.host ≠ h) ∧
      Raised ((u.withQueues h qs).portDown h) (s.resetPort h) ∧
      Bypasses ((u.withQueues h qs).portDown h) (s.resetPort h) h := by
  obtain ⟨u, qs, stopped, only, cmds⟩ := stopHost_only hs h
  refine ⟨u, qs, only, cmds, ?_⟩
  rw [resetPort_eq, stopped]
  split
  · exact ⟨Raised.refl _, Bypasses.refl _ h⟩
  · exact ⟨raised_raiseHost .., portDown_raises ..⟩

end State

theorem exec_portReset (h : HostId) (k : PortResetKind) (s : State) : exec (.portReset h k) s = .next (s.resetPort h) := rfl

theorem portResets : Clause.PortResets := by
  intro s h k hfresh
  obtain ⟨u, qs, only, cmds, raised, bypassed⟩ := State.resetPort_only hfresh.2 h
  rw [exec_portReset]
  refine ⟨_, rfl, ?_⟩
  generalize s.resetPort h = t at raised bypassed ⊢
  have same := raised.sessionOnly
  have record : t.hosts[h] = (u.withQueues h qs).hosts[h].portReset := bypassed.spared.trans (State.portDown_same ..)
  have other (j : HostId) (hj : j ≠ h) : ((u.withQueues h qs).portDown h).hosts[j] = s.hosts[j] := by
    rw [State.portDown_other _ hj, State.withQueues_other u hj, only.hosts]
  have role : t.role = ((u.withQueues h qs).vacate h).role := same.role.trans (State.portDown_role ..)
  have raster : t.raster = u.raster := same.raster.trans (State.portDown_raster ..)
  refine ⟨?st, ?status, ?mask, ?pci, fun q => ?queues, ?cmds, ?vacant, fun hn => ?role, fun p => ?parts,
    ?writes, fun n hn => ?written, fun j hj => ?others, fun o ho => ?outputs⟩
  case st => rw [record]; rfl
  case status => rw [record]; rfl
  case mask => rw [record]; rfl
  case pci => rw [record]; rfl
  case queues =>
    rw [raised.queue]
    exact State.portDown_queue _ h q
  case cmds => exact (raised.cmds.trans (State.portDown_cmds ..)).trans cmds
  case vacant => exact role ▸ State.vacate_holder (u.withQueues h qs) h
  case role =>
    have vacant : (u.withQueues h qs).role.holder ≠ some h := only.role.symm ▸ hn
    rw [role, State.vacate_other vacant]
    exact only.role
  case parts =>
    rw [same.parts, State.portDown_parts _ h p, ← only.parts]
    rfl
  case writes =>
    intro w hw
    rw [raster]
    exact only.writes w hw
  case written => exact only.written n (raster ▸ hn)
  case others => exact ⟨(raised.st j).trans (congrArg HostRec.st (other j hj)),
      (raised.queues j).trans (congrArg HostRec.queues (other j hj))⟩
  case outputs =>
    have kept : ((u.withQueues h qs).portDown h).out = s.out := (State.portDown_out ..).trans only.out
    exact kept ▸ bypassed.msgs o ho

/-! ### Links that come up -/

theorem exec_portLinkUp (h : HostId) (s : State) : exec (.portLinkUp h) s = .next (s.linkPort h) := rfl

theorem portLinks : Clause.PortLinks := by
  intro s h u
  refine ⟨fun hmay hdown => ?_, fun hno => ?_⟩
  · have up : s.linkPort h = u.raiseHost h := by
      rw [State.linkPort, if_pos (by rw [hmay, hdown]; rfl)]
    have raised := State.raised_raiseHost u h
    rw [exec_portLinkUp, up]
    refine ⟨_, rfl, (raised.st h).trans ?_, (raised.ignored h).trans ?_, raised.raisedOnly⟩ <;> simp [u]
  · have refused : ¬(s.portMayLink h && s.hosts[h].st == .down) = true := by
      simp only [Bool.and_eq_true, beq_iff_eq, not_and_or]
      exact hno.imp_left Bool.eq_false_iff.mp
    rw [exec_portLinkUp, State.linkPort, if_neg refused]

/-! ### Heartbeat deadlines -/

namespace State

theorem silent_iff {s : State} {h : HostId} {times : Nat} :
    s.silent h times = true ↔ times * (s.hosts[h].hbTimeout * 160000000) ≤ s.time - s.hosts[h].lastHb := by
  rw [silent, decide_eq_true_eq, Nat.mul_assoc]
  rfl

end State

theorem exec_hbTimeout (h : HostId) (s : State) : exec (.hbTimeout h) s = .next (s.hbTimeout h) := rfl

theorem exec_heartbeatExpiry (h : HostId) (s : State) : exec (.heartbeatExpiry h) s = .next (s.hbExpiry h) := rfl

theorem heartbeatDeadlines : Clause.HeartbeatDeadlines := by
  intro s h age limit
  have first : s.silent h 1 = true ↔ limit ≤ age := by rw [State.silent_iff, Nat.one_mul]
  have second : s.silent h 2 = true ↔ 2 * limit ≤ age := State.silent_iff
  have expires : s.expires h = true ↔ s.hosts[h].autoFence = true ∨ s.isSteward h = true := by simp [State.expires]
  refine ⟨fun hatt hlimit => ?late, fun hno => ?early, fun hlate htwice hexp => ?fenced, fun hno => ?spared⟩
  case late =>
    have due : s.hbTimeout h = s.becomeLate h := by
      rw [State.hbTimeout, if_pos (by rw [hatt, first.mpr hlimit]; rfl)]
    have raised := State.raised_raiseHost (s.updHost h fun r => { r with st := .late }) h
    rw [exec_hbTimeout, due]
    exact ⟨_, rfl, (raised.st h).trans (by simp), raised.raisedOnly⟩
  case early =>
    have undue : ¬(s.hosts[h].st == .attached && s.silent h 1) = true := by
      rw [Bool.and_eq_true, beq_iff_eq, first, not_and_or, not_le]
      exact hno
    rw [exec_hbTimeout, State.hbTimeout, if_neg undue]
  case fenced =>
    have due : (s.hosts[h].st == .late && s.silent h 2 && s.expires h) = true := by
      rw [Bool.and_eq_true, Bool.and_eq_true, beq_iff_eq, second, expires]
      exact ⟨⟨hlate, htwice⟩, hexp⟩
    rw [exec_heartbeatExpiry, State.hbExpiry, if_pos due]
  case spared =>
    have undue : ¬(s.hosts[h].st == .late && s.silent h 2 && s.expires h) = true := by
      rw [Bool.and_eq_true, Bool.and_eq_true, beq_iff_eq, second, expires]
      rintro ⟨⟨hlate, htwice⟩, hexp⟩
      obtain hst | hage | ⟨hauto, hrole⟩ := hno
      · exact hst hlate
      · omega
      · exact hexp.elim (Bool.eq_false_iff.mp hauto) (Bool.eq_false_iff.mp hrole)
    rw [exec_heartbeatExpiry, State.hbExpiry, if_neg undue]

/-- Settles O38: a reset by what stopping the host leaves, a link by whether it may come up, a deadline by whether it has passed. -/
theorem portEvents : Obligations.PortEvents := ⟨portResets, portLinks, heartbeatDeadlines⟩

end Sys2Proof.Machine
end

section
/-! SUPPORT. Data that the device reads from its hosts (R22, R101, R128, R152, R153, R167). -/

namespace Sys2Proof.Machine

namespace State

/-! ### A command that its own change replaces -/

/-- A command that is found has the number that it was looked for by. -/
theorem id_of_find {s : State} {id : Nat} {c : Cmd} (hc : s.findCmd id = some c) : c.id = id :=
  of_decide_eq_true (List.find?_some (p := fun x : Cmd => decide (x.id = id)) hc)

/-- A command in flight that is changed is found changed. -/
theorem find_updCmd {s : State} {id : Nat} {c : Cmd} (hc : s.findCmd id = some c) (f : Cmd → Cmd)
    (hf : ∀ x, x.id = id → (f x).id = id) : (s.updCmd id f).findCmd id = some (f c) := by
  have key (l : List Cmd) (hl : l.find? (fun x => decide (x.id = id)) = some c) :
      (l.map fun x => if x.id = id then f x else x).find? (fun x => decide (x.id = id)) = some (f c) := by
    induction l with
    | nil => exact absurd hl nofun
    | cons x l ih =>
      by_cases hx : x.id = id
      · rw [List.find?_cons_of_pos (by simpa using hx)] at hl
        obtain rfl := Option.some.inj hl
        rw [List.map_cons, if_pos hx, List.find?_cons_of_pos (by simpa using hf x hx)]
      · rw [List.find?_cons_of_neg (by simpa using hx)] at hl
        rw [List.map_cons, if_neg hx, List.find?_cons_of_neg (by simpa using hx)]
        exact ih hl
  exact key s.cmds hc

theorem sessionOnly_updCmd (s : State) (id : Nat) (f : Cmd → Cmd) : SessionOnly s (s.updCmd id f) :=
  ⟨rfl, fun _ => rfl, [], rfl⟩

theorem find_of_reading {s : State} {h : HostId} {id : Nat} {c : Cmd} (hr : s.reading h id = some c) :
    s.findCmd id = some c :=
  (Option.filter_eq_some_iff.mp hr).1

/-! ### Data that come -/

/-- A command with the data that have come, up to what it reads. -/
def withData (s : State) (c : Cmd) (data : List Byte) : Cmd :=
  { c with buf := c.buf ++ data.take (s.readNeed c - c.buf.length) }

/-- The state once a command has its data. -/
def given (s : State) (id : Nat) (d : Cmd) : State := s.updCmd id fun _ => d

theorem hostData_none {s : State} {h : HostId} {id : Nat} (hr : s.reading h id = none) (data : List Byte) :
    s.hostData h id data = s := by
  rw [hostData, hr]

theorem hostData_some {s : State} {h : HostId} {id : Nat} {c : Cmd} (hr : s.reading h id = some c) (data : List Byte) :
    s.hostData h id data = (s.given id (s.withData c data)).sourced (s.withData c data) := by
  rw [hostData, hr]
  rfl

theorem find_given {s : State} {id : Nat} {c : Cmd} (hc : s.findCmd id = some c) (data : List Byte) :
    (s.given id (s.withData c data)).findCmd id = some (s.withData c data) :=
  find_updCmd hc (fun _ => s.withData c data) fun _ _ => (id_of_find hc : c.id = id)

/-- What a command reads does not depend on the data that it has. -/
theorem readNeed_given (s : State) (id : Nat) (c : Cmd) (data : List Byte) :
    (s.given id (s.withData c data)).readNeed (s.withData c data) = s.readNeed c := rfl

/-- A command that acts on all of its source alone waits for the rest of it. -/
theorem sourced_waits {s : State} {c : Cmd} (hw : c.op ≠ 0x12) (hraw : c.op ≠ 0x50) (hcomp : c.op ≠ 0x13)
    (hshort : c.buf.length < s.readNeed c) : s.sourced c = s := by
  rw [sourced, if_neg (not_or.mpr ⟨hw, hraw⟩), if_neg hcomp, if_pos hshort]

/-- LOAD_COURSE acts on its table once it has come whole. -/
theorem sourced_loadCourse {s : State} {c : Cmd} (hop : c.op = 0x20) (hall : s.readNeed c ≤ c.buf.length) :
    s.sourced c = s.loadTable c := by
  simp only [sourced, hop, Nat.not_lt.mpr hall, if_false]
  rfl

/-- PAGE_QUEUE acts on its descriptors once they have come whole. -/
theorem sourced_pageQueue {s : State} {c : Cmd} (hop : c.op = 0x22) (hall : s.readNeed c ≤ c.buf.length) :
    s.sourced c = s.queuePages c := by
  simp only [sourced, hop, Nat.not_lt.mpr hall, if_false]
  rfl

theorem sourced_compress {s : State} {c : Cmd} (hop : c.op = 0x13) : s.sourced c = s.compressInput c.id := by
  simp only [sourced, hop]
  rfl

theorem compressInput_held {s : State} {id : Nat} {n : Fin 8} {c : Cmd}
    (hn : ((List.finRange 8).find? fun n => s.comps[n].job == some id) = some n) (hc : s.findCmd id = some c) :
    s.compressInput id = compressLoop n id (c.f 2 0 16) s := by
  rw [compressInput, hn, hc]

/-- An engine whose next line has not come does nothing. -/
theorem compressLoop_short {s : State} {n : Fin 8} {id fuel : Nat} {c : Cmd} (hc : s.findCmd id = some c)
    (hshort : c.buf.length < (c.out.ends.length + 1) * lineBytes (c.f 3 0 11)) : compressLoop n id fuel s = s := by
  cases fuel with
  | zero => rfl
  | succ fuel => simp only [compressLoop, hc, hshort, or_true, if_true]

/-- A line that an engine makes wrong is a fault of it (R128). -/
theorem compressLoop_fault {s : State} {n : Fin 8} {id fuel : Nat} {c : Cmd} (hf : 0 < fuel) (hc : s.findCmd id = some c)
    (hmore : c.out.ends.length < c.f 2 0 16)
    (hcome : (c.out.ends.length + 1) * lineBytes (c.f 3 0 11) ≤ c.buf.length)
    (hline : c.out.line (c.f 3 12 2) (max 1 (16384 / lineBytes (c.f 3 0 11))) (c.out.ends.length + 1 == c.f 2 0 16)
      (c.inputLine c.out.ends.length) = none) :
    compressLoop n id fuel s = s.compFault n 1 (2 ^ 64 - 1) := by
  cases fuel with
  | zero => exact absurd hf (by decide)
  | succ fuel =>
    simp only [compressLoop, hc, Nat.not_le.mpr hmore, Nat.not_lt.mpr hcome, or_self, if_false, hline]

/-! ### Tables and pages -/

/-- The entries of a table in the bytes of its command. -/
def tableWords (c : Cmd) : List (BitVec 64) :=
  (List.range (c.f 3 0 11)).map fun k => BitVec.ofNat 64 (leNat ((c.buf.drop (8 * k)).take 8))

/-- The bank that LOAD_COURSE makes of its table. -/
def loadedBank (c : Cmd) : Bank where
  entries := tableWords c
  tableId := BitVec.ofNat 32 (c.p 4)
  slots := c.f 5 0 12
  loaded := true

section
variable {s : State} {c : Cmd} (hb : s.bankActive (Fin.ofNat 2 (c.f 0 0 1)) (Fin.ofNat 2 (c.f 0 8 1)) = false)
include hb

theorem loadTable_valid (hv : validate (s.fit (Fin.ofNat 2 (c.f 0 0 1))) (BitVec.ofNat 32 (c.p 4)) (c.f 5 0 12)
      ((tableWords c).map Entry.of) = none) :
    s.loadTable c = (s.updChan (Fin.ofNat 2 (c.f 0 0 1)) fun k =>
      { k with banks := vset k.banks (Fin.ofNat 2 (c.f 0 8 1)) (loadedBank c) }).succeed c.id := by
  rw [tableWords] at hv
  simp only [loadTable, hb, Bool.false_eq_true, if_false, hv]
  rfl

theorem loadTable_invalid {x : Broken} (hv : validate (s.fit (Fin.ofNat 2 (c.f 0 0 1))) (BitVec.ofNat 32 (c.p 4)) (c.f 5 0 12)
      ((tableWords c).map Entry.of) = some x) :
    ∃ l, s.loadTable c = { s with logs := l }.finish c.id
      { status := .tableRejected, detail := x.rule, r0 := x.idx.getD 0xFFFFFFFF } := by
  rw [tableWords] at hv
  simp only [loadTable, hb, Bool.false_eq_true, if_false, hv]
  exact ⟨_, rfl⟩

end

/-- The pages read are as many as their descriptors, after those before. -/
theorem readPages_length {s : State} {ds : List (List Byte)} {acc ps : List Page} (h : s.readPages ds acc = .ok ps) :
    ps.length = acc.length + ds.length := by
  induction ds generalizing acc with
  | nil =>
    obtain rfl := Except.ok.inj h
    rfl
  | cons d ds ih =>
    rw [readPages] at h
    split at h
    · exact absurd h nofun
    · rw [ih h, List.length_append, List.length_cons, List.length_cons, List.length_nil]
      omega

/-- The descriptors of a PAGE_QUEUE are taken all or none (R167). -/
theorem queuePages_all_or_none (s : State) (c : Cmd) :
    ((s.queuePages c).seq = s.seq ∨ ∃ ps, ps.length = c.f 2 0 5 ∧ (s.queuePages c).seq = { s.seq with pages := s.seq.pages ++ ps }) ∧
      ({ s with seq := (s.queuePages c).seq } : State).SessionOnly (s.queuePages c) := by
  have seq_kept (u : State) (a : Answer) : (u.finish c.id a).seq = u.seq :=
    (finish_sessionOnly u c.id a).same State.seq fun _ _ _ _ _ _ => rfl
  unfold queuePages
  simp only
  split
  · rw [seq_kept]
    exact ⟨.inl rfl, finish_sessionOnly ..⟩
  · rename_i ps hps
    have count := readPages_length hps
    rw [List.length_map, List.length_range, List.length_nil, Nat.zero_add] at count
    rw [succeed, seq_kept]
    exact ⟨.inr ⟨ps, count, rfl⟩, finish_sessionOnly ..⟩

end State

theorem exec_hostReadCompletion (h : HostId) (id : Nat) (data : List Byte) (s : State) :
    exec (.hostReadCompletion h id data) s = .next (s.hostData h id data) := rfl

/-- A completion on a state reaches its host from any state with the same queue and outputs. -/
theorem sent_finish {s u : State} {id : Nat} {c : Cmd} (hc : u.findCmd id = some c) (hh : u.hosts = s.hosts)
    (ho : u.out = s.out) (a : Answer) :
    s.Sent (u.finish id a) (.completion c.iss.host c.iss.queue (s.queue c.iss.host c.iss.queue).cqTail
      (completionEntry c.iss.tag a (s.queue c.iss.host c.iss.queue).phase c.iss.queue
        (s.queue c.iss.host c.iss.queue).sqHead)) := by
  obtain ⟨o, out, -⟩ := State.finish_found a hc
  have queue : u.queue c.iss.host c.iss.queue = s.queue c.iss.host c.iss.queue := by simp only [State.queue, hh]
  rw [queue, ho] at out
  exact ⟨_, out, by simp⟩

theorem hostDataComes : Clause.HostDataComes := by
  intro s h id data
  rw [exec_hostReadCompletion]
  refine ⟨fun hr => by rw [State.hostData_none hr], fun c hr => ?_⟩
  have hc := State.find_of_reading hr
  have found := State.find_given hc data
  have mine : (s.withData c data).id = id := (State.id_of_find hc : c.id = id)
  rw [State.hostData_some hr]
  have input (hop : c.op = 0x13) {n : Fin 8} (hn : ((List.finRange 8).find? fun n => s.comps[n].job == some id) = some n) :
      (s.given id (s.withData c data)).sourced (s.withData c data) =
        State.compressLoop n id (c.f 2 0 16) (s.given id (s.withData c data)) := by
    rw [State.sourced_compress (c := s.withData c data) hop, mine]
    exact State.compressInput_held (c := s.withData c data) hn found
  have whole (hprog : c.prog = .source (s.withData c data).buf.length) :
      (s.given id (s.withData c data)).readNeed (s.withData c data) ≤ (s.withData c data).buf.length := by
    rw [State.readNeed_given, State.readNeed, hprog]
  refine ⟨rfl, fun hw hraw hcomp hshort => ?waits, fun hop n hn => ⟨fun hshort => ?short, fun hmore hcome hline => ?fault⟩,
    fun hop hprog => ?table, fun hop hprog => ?pages⟩
  case waits =>
    exact congrArg _ (State.sourced_waits (s := s.given id (s.withData c data)) (c := s.withData c data) hw hraw hcomp hshort)
  case short =>
    rw [input hop hn]
    exact congrArg _ (State.compressLoop_short found hshort)
  case fault =>
    rw [input hop hn]
    exact congrArg _ (State.compressLoop_fault (Nat.zero_lt_of_lt hmore) found hmore hcome hline)
  case table =>
    intro ch b ws hb
    rw [State.sourced_loadCourse (c := s.withData c data) hop (whole hprog)]
    refine ⟨fun hv => ?valid, fun x hv => ?invalid⟩
    case valid =>
      rw [State.loadTable_valid (s := s.given id (s.withData c data)) (c := s.withData c data) hb hv, mine]
      rfl
    case invalid =>
      obtain ⟨l, rejected⟩ := State.loadTable_invalid (s := s.given id (s.withData c data)) (c := s.withData c data) hb hv
      rw [rejected, mine]
      refine ⟨_, rfl, (State.finish_sessionOnly _ id _).chans, ?_⟩
      exact sent_finish (u := { s.given id (s.withData c data) with logs := l }) found rfl rfl _
  case pages =>
    rw [State.sourced_pageQueue (c := s.withData c data) hop (whole hprog)]
    obtain ⟨taken, only⟩ := State.queuePages_all_or_none (s.given id (s.withData c data)) (s.withData c data)
    have before := State.sessionOnly_updCmd { s with
      seq := ((s.given id (s.withData c data)).queuePages (s.withData c data)).seq } id fun _ => s.withData c data
    exact ⟨_, rfl, taken, before.trans only⟩

/-! ### Reads that fail -/

namespace State

/-- What freeing an engine can change: the engines with their shares, staging, a test that waited with its free value, log entry and
source, and commands that leave flight. -/
structure EngineOnly (s t : State) : Prop where
  frame : t = { s with comps := t.comps, shares := t.shares, staging := t.staging, free := t.free, logs := t.logs
                       hosts := t.hosts, events := t.events, cmds := t.cmds, out := t.out }
  cmds : t.cmds.Sublist s.cmds
  out : ∃ o, t.out = o ++ s.out

theorem EngineOnly.refl (s : State) : EngineOnly s s := ⟨rfl, List.Sublist.refl _, [], rfl⟩

theorem EngineOnly.trans {s t u : State} (a : EngineOnly s t) (b : EngineOnly t u) : EngineOnly s u where
  frame := by rw [b.frame, a.frame]
  cmds := b.cmds.trans a.cmds
  out := by
    obtain ⟨o, ho⟩ := a.out
    obtain ⟨o', ho'⟩ := b.out
    exact ⟨o' ++ o, by rw [ho', ho, List.append_assoc]⟩

theorem EngineOnly.raster {s t : State} (a : EngineOnly s t) : t.raster = s.raster := by rw [a.frame]

theorem Finished.engineOnly {s t : State} (a : Finished s t) : EngineOnly s t := by
  obtain ⟨hs, ev, o, cs, rfl, -, hc⟩ := a
  exact ⟨rfl, hc, o, rfl⟩

theorem engineShares_engineOnly (s : State) : EngineOnly s s.engineShares := ⟨rfl, List.Sublist.refl _, [], rfl⟩

theorem settlePool_engineOnly (s : State) : EngineOnly s s.settlePool :=
  (⟨rfl, List.Sublist.refl _, [], rfl⟩ : EngineOnly s { s with shares := s.settlePool.shares, staging := s.settlePool.staging }).trans
    (engineShares_engineOnly _)

theorem updComp_engineOnly (s : State) (n : Fin 8) (f : Compressor → Compressor) : EngineOnly s (s.updComp n f) :=
  ⟨rfl, List.Sublist.refl _, [], rfl⟩

theorem useFree_engineOnly (s : State) : EngineOnly s s.useFree := ⟨rfl, List.Sublist.refl _, [], rfl⟩

theorem logComp_engineOnly (s : State) (type : Nat) (n : Fin 8) (c : Cmd) (what strip value addr : Nat) :
    EngineOnly s (s.logComp type n c what strip value addr) := ⟨rfl, List.Sublist.refl _, [], rfl⟩

/-- The state once an engine has been tested: whether it stays in service is a free value (R129). -/
def testRan (s : State) (n : Fin 8) (c : Cmd) : State :=
  let step := Config.selfTestStep s.free
  ((s.useFree.updComp n fun e => { e with broken := step != 0, test := none }).engineShares).logComp 0x0502 n c
    (if step = 0 then 0 else 1) 0 step (if step = 0 then 2 ^ 64 - 1 else (Config.openDword s.free).toNat)

theorem testRan_engineOnly (s : State) (n : Fin 8) (c : Cmd) : EngineOnly s (s.testRan n c) :=
  (((useFree_engineOnly s).trans (updComp_engineOnly ..)).trans (engineShares_engineOnly _)).trans (logComp_engineOnly ..)

theorem testComp_found {s : State} {id : Nat} {c : Cmd} (hc : s.findCmd id = some c) (n : Fin 8) :
    s.testComp n id = (if Config.selfTestStep s.free = 0 then (s.testRan n c).raise ⟨48 + n.val, by omega⟩ else
      s.testRan n c).succeed id (if Config.selfTestStep s.free = 0 then 1 else 0) (Config.selfTestStep s.free) := by
  rw [testComp, hc]
  rfl

theorem testComp_engineOnly (s : State) (n : Fin 8) (id : Nat) : EngineOnly s (s.testComp n id) := by
  cases hc : s.findCmd id with
  | none =>
    rw [testComp, hc]
    exact EngineOnly.refl s
  | some c =>
    rw [testComp_found hc]
    refine EngineOnly.trans ?_ (finished_finish ..).engineOnly
    split
    · exact (s.testRan_engineOnly n c).trans (raised_raise ..).finished.engineOnly
    · exact s.testRan_engineOnly n c

theorem engineFree_engineOnly (s : State) (n : Fin 8) : EngineOnly s (s.engineFree n) := by
  have freed := (updComp_engineOnly s n fun e => { e with job := none }).trans (settlePool_engineOnly _)
  unfold engineFree
  simp only
  split
  · exact freed.trans (testComp_engineOnly ..)
  · exact freed

theorem levelWrites_other {s : State} {c : Cmd} (hw : c.op ≠ 0x12) (hz : c.op ≠ 0x15) : s.levelWrites c = s := by
  rw [levelWrites, if_neg (not_or.mpr ⟨hw, hz⟩)]

/-- Stopping a command that does not write leaves every stored word. -/
theorem release_dram {s : State} {id : Nat} {c : Cmd} (hc : s.findCmd id = some c) (hw : c.op ≠ 0x12) (hz : c.op ≠ 0x15) :
    (s.release id).raster.dram = s.raster.dram := by
  rw [release_found hc, levelWrites_other hw hz]
  rfl

/-- A read that fails aborts its command, and then the engines settle. -/
theorem readFails_some {s : State} {h : HostId} {id : Nat} {c : Cmd} (hr : s.reading h id = some c) (a : Answer) :
    EngineOnly (s.abort id a) (s.readFails h id a) := by
  rw [readFails, hr]
  simp only
  split
  · exact engineFree_engineOnly ..
  · exact settlePool_engineOnly ..

theorem readFails_none {s : State} {h : HostId} {id : Nat} (hr : s.reading h id = none) (a : Answer) :
    s.readFails h id a = s := by
  rw [readFails, hr]

/-- A command that a failed read stops is in flight no more, writes no burst but those that it had still to write, and answers. -/
theorem readFails_stops {s : State} {h : HostId} {id : Nat} {c : Cmd} (hr : s.reading h id = some c) (a : Answer) :
    let t := s.readFails h id a
    (∀ k ∈ t.cmds, k.id ≠ id) ∧ (c.op ≠ 0x12 → c.op ≠ 0x15 → t.raster.dram = s.raster.dram) ∧
      s.WritesOnly t ((c.todo ++ s.presentedBursts id).map (·.addr)) ∧
      s.Sent t (.completion c.iss.host c.iss.queue (s.queue c.iss.host c.iss.queue).cqTail
        (completionEntry c.iss.tag a (s.queue c.iss.host c.iss.queue).phase c.iss.queue
          (s.queue c.iss.host c.iss.queue).sqHead)) := by
  intro t
  have hc := find_of_reading hr
  have mine := id_of_find hc
  have stopped := release_stopOnly hc
  have found : (s.release id).findCmd id = some c := by rw [findCmd, release_cmds]; exact hc
  have raster : t.raster = (s.release id).raster :=
    (readFails_some hr a).raster.trans (finish_sessionOnly (s.release id) id a).raster
  refine ⟨fun k hk => ?_, fun hw hz => ?_, ?_, ?_⟩
  · obtain ⟨-, -, cmds⟩ := finish_found a found
    have left := (readFails_some hr a).cmds.subset hk
    rw [abort, cmds] at left
    simpa using (List.mem_filter.mp left).2
  · rw [raster, release_dram hc hw hz]
  · intro w hw
    rw [raster]
    refine stopped.writes w fun b hb => hw b ?_
    unfold openBursts at hb
    split at hb
    · exact mine ▸ hb
    · exact absurd hb List.not_mem_nil
  · obtain ⟨o, out, sent⟩ := sent_finish found stopped.hosts stopped.out a
    obtain ⟨o', ho'⟩ := (readFails_some hr a).out
    exact ⟨o' ++ o, by rw [ho', abort, out, List.append_assoc], List.mem_append_right _ sent⟩

end State

theorem exec_hostDataBad (h : HostId) (id : Nat) (s : State) :
    exec (.hostDataBad h id) s = .next (s.readFails h id { status := .aborted, detail := 0x13 }) := rfl

theorem exec_completionTimeout (h : HostId) (id : Nat) (s : State) :
    exec (.completionTimeout h id) s = .next (s.readFails h id { status := .timeout }) := rfl

theorem hostDataFails : Clause.HostDataFails := by
  intro s h id stops
  have fails (x : Instr) (a : Answer) (hx : exec x s = .next (s.readFails h id a)) : stops x a :=
    ⟨fun hr => hx.trans (congrArg _ (State.readFails_none hr a)), fun c hr => ⟨_, hx, State.readFails_stops hr a⟩⟩
  exact ⟨fails _ _ (exec_hostDataBad h id s), fails _ _ (exec_completionTimeout h id s)⟩

/-- Settles O39: data that come by what their command does with them, data that fail by what stopping it leaves. -/
theorem hostReads : Obligations.HostReads := ⟨hostDataComes, hostDataFails⟩

end Sys2Proof.Machine
end

section
/-! SUPPORT. The steward's registers RANK_HEALTH.CLEAR, MAP_CONTROL.APPLY, GO_MEM and GO_CORE (R29, R96, R349, R382, R383). -/

namespace Sys2Proof.Machine

namespace State

theorem getElem_vmod {α : Type} {n : Nat} (v : Vector α n) (i j : Fin n) (f : α → α) :
    (vmod v i f)[j] = if i = j then f v[j] else v[j] := by
  by_cases h : i = j
  · subst h
    rw [if_pos rfl]
    exact vmod_same ..
  · rw [if_neg h]
    exact vmod_other _ _ _ _ h

theorem updChan_at (s : State) (c d : ChanId) (f : Chan → Chan) :
    (s.updChan c f).chans[d] = if c = d then f s.chans[d] else s.chans[d] :=
  getElem_vmod ..

/-! ### RANK_HEALTH.CLEAR -/

/-- A rank that is GOOD, with its counts at 0. -/
def goodRank (k : Rank) : Rank := { k with health := .good, ceHour := 0, ueDay := 0, ueTen := 0, ceRaised := false }

/-- A rank whose health CLEAR takes back: it carries data, and is not the source of a running migration. -/
def clears (s : State) (c : ChanId) (r : RankId) : Bool :=
  let st := s.chans[c].ranks[r].st
  decide ((st = .inService ∨ st = .degraded) ∧ !(s.migrating c && s.chans[c].mig.source == r))

theorem clearHealth_ranks (s : State) (c d : ChanId) (r k : RankId) :
    (s.clearHealth c r).chans[d].ranks[k] =
      if c = d ∧ r = k then goodRank s.chans[d].ranks[k] else s.chans[d].ranks[k] := by
  unfold clearHealth updRank
  rw [updChan_at, updChan_at]
  by_cases hc : c = d
  · simp only [if_pos hc]
    rw [getElem_vmod]
    simp only [hc, true_and]
    rfl
  · simp only [hc, false_and, if_false]

theorem clearHealth_frame (s : State) (c : ChanId) (r : RankId) :
    s.clearHealth c r = { s with chans := (s.clearHealth c r).chans } := rfl

/-- The folds of CLEAR over ranks keep everything but the channels. -/
theorem foldl_chans {α : Type} (f : State → α → State) (hf : ∀ s x, f s x = { s with chans := (f s x).chans }) (l : List α)
    (s : State) : l.foldl f s = { s with chans := (l.foldl f s).chans } := by
  induction l generalizing s with
  | nil => rfl
  | cons x l ih =>
    rw [List.foldl_cons]
    have h := ih (f s x)
    rw [hf s x] at h ⊢
    exact h

theorem goodRank_goodRank (k : Rank) : goodRank (goodRank k) = goodRank k := rfl

/-- One step of CLEAR, by the state in which it is written. -/
def clearOne (s : State) (c : ChanId) (t : State) (r : RankId) : State :=
  if s.clears c r then t.clearHealth c r else t

theorem clearOne_frame (s : State) (c : ChanId) (t : State) (r : RankId) :
    s.clearOne c t r = { t with chans := (s.clearOne c t r).chans } := by
  unfold clearOne
  split
  · exact clearHealth_frame ..
  · rfl

theorem clearOne_ranks (s : State) (c d : ChanId) (t : State) (r k : RankId) :
    (s.clearOne c t r).chans[d].ranks[k] =
      if c = d ∧ r = k ∧ s.clears d k = true then goodRank t.chans[d].ranks[k] else t.chans[d].ranks[k] := by
  unfold clearOne
  by_cases hck : c = d ∧ r = k
  · obtain ⟨rfl, rfl⟩ := hck
    cases s.clears c r with
    | true => rw [if_pos rfl, clearHealth_ranks, if_pos ⟨rfl, rfl⟩, if_pos ⟨rfl, rfl, rfl⟩]
    | false => simp
  · rw [if_neg (c := c = d ∧ r = k ∧ _) fun hx => hck ⟨hx.1, hx.2.1⟩]
    cases s.clears c r with
    | true => rw [if_pos rfl, clearHealth_ranks, if_neg hck]
    | false => rfl

/-- Clearing a list of ranks of a channel makes good those of them that CLEAR takes. -/
theorem clearRanks_ranks (s : State) (c d : ChanId) (rs : List RankId) (t : State) (k : RankId) :
    (rs.foldl (s.clearOne c) t).chans[d].ranks[k] =
      if c = d ∧ k ∈ rs ∧ s.clears d k = true then goodRank t.chans[d].ranks[k] else t.chans[d].ranks[k] := by
  induction rs generalizing t with
  | nil => rw [if_neg fun hx => absurd hx.2.1 List.not_mem_nil]; rfl
  | cons r rs ih =>
    rw [List.foldl_cons, ih, clearOne_ranks]
    by_cases hc : c = d ∧ s.clears d k = true
    · obtain ⟨rfl, hc⟩ := hc
      by_cases hm : k ∈ rs
      · by_cases hr : r = k <;> simp [hc, hr, hm, goodRank_goodRank]
      · simp [hc, hm, eq_comm]
    · rw [if_neg fun hx => hc ⟨hx.1, hx.2.2⟩, if_neg fun hx => hc ⟨hx.1, hx.2.2⟩, if_neg fun hx => hc ⟨hx.1, hx.2.2⟩]

theorem clearAll_eq (s : State) :
    s.clearAll = (List.finRange 4).foldl (s.clearOne 1) ((List.finRange 4).foldl (s.clearOne 0) s) := by
  have hf (c : ChanId) : s.clearOne c = fun t r =>
      let st := s.chans[c].ranks[r].st
      if (st = .inService ∨ st = .degraded) ∧ !(s.migrating c && s.chans[c].mig.source == r) then t.clearHealth c r
      else t := by
    funext t r
    simp only [clearOne, clears, decide_eq_true_eq]
  rw [hf 0, hf 1]
  rfl

theorem clearAll_ranks (s : State) (d : ChanId) (k : RankId) :
    s.clearAll.chans[d].ranks[k] = if s.clears d k = true then goodRank s.chans[d].ranks[k] else s.chans[d].ranks[k] := by
  have hk : k ∈ List.finRange 4 := List.mem_finRange k
  rw [clearAll_eq, clearRanks_ranks, clearRanks_ranks]
  match d with
  | 0 => simp [hk]
  | 1 => simp [hk]

theorem clearAll_frame (s : State) : s.clearAll = { s with chans := s.clearAll.chans } := by
  rw [clearAll_eq, foldl_chans _ (s.clearOne_frame 1), foldl_chans _ (s.clearOne_frame 0)]

theorem clears_iff {s : State} {c : ChanId} {r : RankId} : s.clears c r = true ↔
    (s.chans[c].ranks[r].st = .inService ∨ s.chans[c].ranks[r].st = .degraded) ∧
      ¬(s.migrating c = true ∧ s.chans[c].mig.source = r) := by
  simp only [clears, decide_eq_true_eq, Bool.not_eq_true', Bool.and_eq_false_iff, not_and_or, beq_eq_false_iff_ne, ne_eq,
    Bool.not_eq_true]

end State

theorem exec_clear {s : State} {h : HostId} (ht : s.takesWrite h = true) (v : Dword) :
    exec (.clear h v) s = .next (if s.isSteward h then s.clearAll else s) := by
  have hx : exec (.clear h v) s = .next (s.writeAs h fun t => if t.isSteward h then t.clearAll else t) := rfl
  rw [hx, State.writeAs_taken ht]

theorem clearMakesGood : Clause.ClearMakesGood := by
  intro s h v ht
  refine ⟨fun hs => by rw [exec_clear ht, hs]; rfl, fun hs => ⟨s.clearAll, ?_, s.clearAll_frame, fun c r => ?_⟩⟩
  · rw [exec_clear ht, hs, if_pos rfl]
  · have hr := s.clearAll_ranks c r
    dsimp only
    refine ⟨fun hk => ?_, fun hk => ?_⟩
    · rw [hr, if_pos (State.clears_iff.mpr hk)]
      rfl
    · rw [hr, if_neg fun hx => hk (State.clears_iff.mp hx)]

end Sys2Proof.Machine
end

section
/-! SUPPORT. MAP_CONTROL.APPLY and the GO bits of CLK_CHANGE (R29, R96, R382, R383). -/

namespace Sys2Proof.Machine

namespace State

/-! ### MAP_CONTROL.APPLY -/

/-- Only ranks of channels, their rows and the commands that go to them have changed. -/
structure RanksOnly (s t : State) : Prop where
  frame : t = { s with chans := t.chans, out := t.out }
  chan : ∀ c : ChanId, t.chans[c] =
    { s.chans[c] with ranks := t.chans[c].ranks, rows := t.chans[c].rows, subs := t.chans[c].subs }

theorem RanksOnly.refl (s : State) : RanksOnly s s := ⟨rfl, fun _ => rfl⟩

theorem RanksOnly.trans {s t u : State} (a : RanksOnly s t) (b : RanksOnly t u) : RanksOnly s u := by
  refine ⟨?_, fun c => ?_⟩
  · have h := b.frame
    rw [a.frame] at h
    exact h
  · have h := b.chan c
    rw [a.chan c] at h
    exact h

theorem ranksOnly_foldl {α : Type} (f : State → α → State) (hf : ∀ s x, RanksOnly s (f s x)) (l : List α) (s : State) :
    RanksOnly s (l.foldl f s) := by
  induction l generalizing s with
  | nil => exact .refl s
  | cons x l ih => exact (hf s x).trans (ih (f s x))

theorem ranksOnly_emit (s : State) (o : Out) : RanksOnly s (s.emit o) := ⟨rfl, fun _ => rfl⟩

theorem ranksOnly_updChan (s : State) (c : ChanId) (f : Chan → Chan)
    (hf : ∀ ch, f ch = { ch with ranks := (f ch).ranks, rows := (f ch).rows, subs := (f ch).subs }) :
    RanksOnly s (s.updChan c f) := by
  refine ⟨rfl, fun d => ?_⟩
  rw [updChan_at]
  split
  · exact hf _
  · rfl

theorem ranksOnly_updRank (s : State) (c : ChanId) (r : RankId) (f : Rank → Rank) : RanksOnly s (s.updRank c r f) :=
  ranksOnly_updChan _ _ _ fun _ => rfl

theorem ranksOnly_issue (s : State) (c : ChanId) (code : Nat) (r : RankId) (u : SubId) (g b : Nat) (w : By) :
    RanksOnly s (s.issue c code r u g b w) :=
  (ranksOnly_updChan s c _ fun _ => rfl).trans (ranksOnly_emit ..)

theorem ranksOnly_issueBoth (s : State) (c : ChanId) (code : Nat) (r : RankId) (w : By) :
    RanksOnly s (s.issueBoth c code r w) :=
  (ranksOnly_issue ..).trans (ranksOnly_issue ..)

theorem ranksOnly_closeRank (s : State) (c : ChanId) (r : RankId) (u : SubId) (w : By) :
    RanksOnly s (s.closeRank c r u w) := by
  refine RanksOnly.trans ?_ (ranksOnly_updChan _ _ _ fun _ => rfl)
  split
  · exact ranksOnly_issue ..
  · exact .refl s

theorem ranksOnly_closeBoth (s : State) (c : ChanId) (r : RankId) (w : By) : RanksOnly s (s.closeBoth c r w) :=
  (ranksOnly_closeRank ..).trans (ranksOnly_closeRank ..)

theorem ranksOnly_pdeRank (s : State) (c : ChanId) (r : RankId) : RanksOnly s (s.pdeRank c r) :=
  (ranksOnly_issueBoth ..).trans (ranksOnly_updRank ..)

theorem ranksOnly_useRank (s : State) (c : ChanId) (r : RankId) (w : By) : RanksOnly s (s.useRank c r w) := by
  refine RanksOnly.trans ?_ (ranksOnly_updRank ..)
  split
  · exact ranksOnly_issueBoth ..
  · exact .refl s

theorem ranksOnly_applyRank (new : Raster) (c : ChanId) (s : State) (r : RankId) :
    RanksOnly s (applyRank new c s r) := by
  unfold applyRank
  dsimp only
  split
  · exact .refl s
  · split
    · refine RanksOnly.trans ?_ (ranksOnly_updRank ..)
      split
      · exact ranksOnly_useRank ..
      · exact .refl s
    · refine RanksOnly.trans ?_ (ranksOnly_updRank ..)
      split
      · exact .refl s
      · exact (ranksOnly_closeBoth ..).trans (ranksOnly_pdeRank ..)

/-- The state once an APPLY has given every rank its part. -/
def ranksApplied (s : State) : State :=
  s.chansInUse.foldl (fun acc c => (s.applyRanks c).foldl (applyRank s.appliedRaster c) acc) s

theorem ranksOnly_ranksApplied (s : State) : RanksOnly s s.ranksApplied :=
  ranksOnly_foldl _ (fun t c => ranksOnly_foldl _ (ranksOnly_applyRank _ c) _ t) _ s

theorem applyMap_refused {s : State} (h : s.applyRefusal ≠ 0) :
    s.applyMap = s.updRaster fun x => { x with refused := true, reason := s.applyRefusal } := by
  unfold applyMap
  split
  · next h0 => exact absurd h0 h
  · next => rfl

theorem applyMap_applied {s : State} (h : s.applyRefusal = 0) :
    s.applyMap = { s.ranksApplied with raster := s.appliedRaster } := by
  unfold applyMap
  rw [h]
  rfl

/-- A write of MAP_CONTROL first clears the refusal shown, when its bit 9 is set. -/
def refusalRead (s : State) (v : Dword) : State :=
  s.updRaster fun r => { r with refused := r.refused && !v.getLsbD 9 }

theorem writeMap_apply (s : State) (v : Dword) :
    s.writeMap 0x441C (v ||| 0x80000000) = (s.refusalRead (v ||| 0x80000000)).applyMap := by
  have hv : (v ||| 0x80000000).getLsbD 31 = true := by simp
  unfold writeMap
  simp only [hv]
  rfl

end State

theorem exec_apply {s : State} {h : HostId} (ht : s.takesWrite h = true) (v : Dword) :
    exec (.apply h v) s =
      .next (if s.isSteward h then (s.refusalRead (v ||| 0x80000000)).applyMap else s) := by
  have hx : exec (.apply h v) s =
    .next (s.writeAs h fun t => if t.isSteward h then t.writeMap 0x441C (v ||| 0x80000000) else t) := rfl
  rw [hx, State.writeAs_taken ht, State.writeMap_apply]

theorem applyTakesMap : Clause.ApplyTakesMap := by
  intro s h v ht
  refine ⟨fun hs => by rw [exec_apply ht, hs]; rfl, fun hs => ⟨fun hr => ?_, fun hr => ?_⟩⟩
  · rw [exec_apply ht, hs, if_pos rfl, State.applyMap_refused (s := s.refusalRead _) hr]
    rfl
  · refine ⟨_, by rw [exec_apply ht, hs, if_pos rfl], ?_⟩
    rw [State.applyMap_applied (s := s.refusalRead _) hr]
    obtain ⟨hf, hc⟩ := State.ranksOnly_ranksApplied (s.refusalRead (v ||| 0x80000000))
    refine ⟨?_, rfl, hc⟩
    rw [hf]
    rfl

namespace State

/-! ### The GO bits of CLK_CHANGE -/

theorem raise_clk (s : State) (n : Fin 96) : (s.raise n).clk = s.clk :=
  (raised_raise s n).sessionOnly.same State.clk fun _ _ _ _ _ _ => rfl

theorem raise_raster (s : State) (n : Fin 96) : (s.raise n).raster = s.raster := (raised_raise s n).sessionOnly.raster

/-- A loop that changes its state keeps the change under way, the settings in force, and raster memory. -/
theorem setLoop_keeps (s : State) (l : LoopId) (st : LoopState) (cause : Nat) :
    (s.setLoop l st cause).clk.change = s.clk.change ∧ (s.setLoop l st cause).clk.force = s.clk.force ∧
      (s.setLoop l st cause).raster = s.raster := by
  unfold setLoop
  dsimp only
  split
  · exact ⟨rfl, rfl, rfl⟩
  · rw [raise_clk, raise_raster]
    exact ⟨rfl, rfl, rfl⟩

theorem enterRelock_keeps {s : State} {ch : Change} (hc : s.clk.change = some ch) :
    s.enterRelock.clk.change = some { ch with start := s.time } ∧ s.enterRelock.clk.force = s.clk.force ∧
      s.enterRelock.raster = s.raster := by
  unfold enterRelock
  rw [hc]
  exact setLoop_keeps (s.updClk fun k => { k with change := some { ch with start := s.time } }) ch.loop .relock 0

/-- The change that a GO of a loop begins. -/
def wantedChange (s : State) (l : LoopId) : Change :=
  { loop := l, former := s.clk.force, target := s.clk.force.take s.clk.plan l, start := s.time }

/-- The state in which a change is under way. -/
def withChange (s : State) (l : LoopId) : State :=
  { s with clk := { s.clk with change := some (s.wantedChange l) }, sr := { s.sr with idle := false, wanted := false } }

theorem goChange_starts {s : State} {l : LoopId} (h : s.changeRefusal = 0) :
    s.goChange l = if (s.withChange l).allResting then (s.withChange l).enterRelock else (s.withChange l).steer := by
  unfold goChange
  dsimp only
  rw [h]
  rfl

theorem goChange_change {s : State} {l : LoopId} (h : s.changeRefusal = 0) :
    (s.goChange l).clk.change = some (s.wantedChange l) ∧ (s.goChange l).clk.force = s.clk.force ∧
      (s.goChange l).raster = s.raster := by
  rw [goChange_starts h]
  split
  · exact enterRelock_keeps (s := s.withChange l) (ch := s.wantedChange l) rfl
  · exact ⟨rfl, rfl, rfl⟩

theorem goChange_refused {s : State} {l : LoopId} (h : s.changeRefusal ≠ 0) :
    s.goChange l = (s.updClk fun x => { x with refused := true, reason := s.changeRefusal }).logClk 0x0E03 l
      s.clk.loops[l].st.code s.clk.loops[l].st.code s.changeRefusal 0 s.clk.force.memRate s.clk.force.memRate := by
  unfold goChange
  dsimp only
  split
  · next h0 => exact absurd h0 h
  · rfl

/-- A write of CLK_CHANGE first clears the refusal shown, when its bit 0 is set. -/
def goRead (s : State) (v : Dword) : State := s.updClk fun k => { k with refused := k.refused && !v.getLsbD 0 }

/-- A GO of one loop alone is its change. -/
theorem writeClk_go (s : State) (v : Dword) :
    (v.getLsbD 31 = true → v.getLsbD 30 = false → s.writeClk 0x4E08 v = (s.goRead v).goChange 1) ∧
      (v.getLsbD 31 = false → v.getLsbD 30 = true → s.writeClk 0x4E08 v = (s.goRead v).goChange 0) := by
  unfold writeClk
  refine ⟨fun h1 h0 => ?_, fun h1 h0 => ?_⟩
  all_goals
    simp only [h1, h0]
    rfl

end State

theorem exec_goMem {s : State} {h : HostId} (ht : s.takesWrite h = true) (v : Dword) :
    exec (.goMem h v) s = .next (if s.isSteward h then s.writeClk 0x4E08 (v ||| 0x80000000) else s) := by
  have hx : exec (.goMem h v) s =
    .next (s.writeAs h fun t => if t.isSteward h then t.writeClk 0x4E08 (v ||| 0x80000000) else t) := rfl
  rw [hx, State.writeAs_taken ht]

theorem exec_goCore {s : State} {h : HostId} (ht : s.takesWrite h = true) (v : Dword) :
    exec (.goCore h v) s = .next (if s.isSteward h then s.writeClk 0x4E08 (v ||| 0x40000000) else s) := by
  have hx : exec (.goCore h v) s =
    .next (s.writeAs h fun t => if t.isSteward h then t.writeClk 0x4E08 (v ||| 0x40000000) else t) := rfl
  rw [hx, State.writeAs_taken ht]

/-- A GO of one loop, with the other GO bit at 0, is a change of that loop after the refusal shown has been read. -/
theorem exec_go {s : State} {h : HostId} {v : Dword} (ht : s.takesWrite h = true) (hs : s.isSteward h = true)
    {l : LoopId} {x : Instr}
    (hx : (l = 1 ∧ x = .goMem h v ∧ v.getLsbD 30 = false) ∨ (l = 0 ∧ x = .goCore h v ∧ v.getLsbD 31 = false)) :
    ∃ w, exec x s = .next ((s.goRead w).goChange l) := by
  obtain ⟨rfl, rfl, hv⟩ | ⟨rfl, rfl, hv⟩ := hx
  · refine ⟨v ||| 0x80000000, ?_⟩
    rw [exec_goMem ht, hs, if_pos rfl, (State.writeClk_go ..).1 (by simp) (by simpa using hv)]
  · refine ⟨v ||| 0x40000000, ?_⟩
    rw [exec_goCore ht, hs, if_pos rfl, (State.writeClk_go ..).2 (by simpa using hv) (by simp)]

theorem goStartsChange : Clause.GoStartsChange := by
  intro s h v ht
  refine ⟨fun hs => ⟨by rw [exec_goMem ht, hs]; rfl, by rw [exec_goCore ht, hs]; rfl⟩, fun hs l x hx => ?_⟩
  obtain ⟨w, hw⟩ := exec_go ht hs hx
  refine ⟨fun hr => ⟨_, hw, ?_⟩, fun hr => ⟨_, (s.goRead w).wantedChange l, hw, ?_⟩⟩
  · rw [State.goChange_refused (s := s.goRead w) hr]
    exact ⟨rfl, rfl⟩
  · obtain ⟨hc, hf, hm⟩ := State.goChange_change (s := s.goRead w) (l := l) hr
    exact ⟨hc, rfl, rfl, rfl, hf, hm⟩

end Sys2Proof.Machine
end

section
/-! SUPPORT. What links, the web loop and the forge pool leave alone when settings take force: the settings, raster memory
and the state of self-refresh; with it KEYSTONE by its register (R29, R175, R176). -/

namespace Sys2Proof.Machine

namespace State

/-- The settings in force and the number and outcome of the last keystone, raster memory, and the state of self-refresh. -/
def keyView (s : State) : Ks × Nat × Fin 4 × Raster × SelfRef := (s.ks.force, s.ks.seq, s.ks.outcome, s.raster, s.sr)

theorem SessionOnly.keyView {s t : State} (a : SessionOnly s t) : t.keyView = s.keyView :=
  a.same State.keyView fun _ _ _ _ _ _ => rfl

theorem foldl_keyView {α : Type} (f : State → α → State) (hf : ∀ s x, (f s x).keyView = s.keyView) (l : List α) (s : State) :
    (l.foldl f s).keyView = s.keyView :=
  foldl_same State.keyView f hf l s

/-! ### Changes of other parts -/

@[simp] theorem keyView_raise (s : State) (n : Fin 96) : (s.raise n).keyView = s.keyView := (raised_raise s n).sessionOnly.keyView

@[simp] theorem keyView_finish (s : State) (id : Nat) (a : Answer) : (s.finish id a).keyView = s.keyView :=
  (finish_sessionOnly s id a).keyView

@[simp] theorem keyView_succeed (s : State) (id r0 r1 : Nat) : (s.succeed id r0 r1).keyView = s.keyView := keyView_finish ..

@[simp] theorem keyView_fail (s : State) (id : Nat) (st : Status) (d r0 r1 : Nat) :
    (s.fail id st d r0 r1).keyView = s.keyView :=
  keyView_finish ..

@[simp] theorem keyView_updCmd (s : State) (id : Nat) (f : Cmd → Cmd) : (s.updCmd id f).keyView = s.keyView := rfl
@[simp] theorem keyView_updLink (s : State) (n : LinkId) (f : Link → Link) : (s.updLink n f).keyView = s.keyView := rfl
@[simp] theorem keyView_updSeq (s : State) (f : Seq → Seq) : (s.updSeq f).keyView = s.keyView := rfl
@[simp] theorem keyView_updWeb (s : State) (f : Web → Web) : (s.updWeb f).keyView = s.keyView := rfl
@[simp] theorem keyView_updChan (s : State) (c : ChanId) (f : Chan → Chan) : (s.updChan c f).keyView = s.keyView := rfl
@[simp] theorem keyView_updRank (s : State) (c : ChanId) (r : RankId) (f : Rank → Rank) :
    (s.updRank c r f).keyView = s.keyView := rfl
@[simp] theorem keyView_logErr (s : State) (type host : Nat) (fs : List Nat) : (s.logErr type host fs).keyView = s.keyView := rfl
@[simp] theorem keyView_logLinkRun (s : State) (type : Nat) (fs : List Nat) : (s.logLinkRun type fs).keyView = s.keyView := rfl
@[simp] theorem keyView_logCourse (s : State) (type ch sub rank bank slot idx value tid : Nat) :
    (s.logCourse type ch sub rank bank slot idx value tid).keyView = s.keyView := rfl

/-! ### Links -/

@[simp] theorem keyView_setLink (s : State) (n : LinkId) (st : LinkState) : (s.setLink n st).keyView = s.keyView := by
  unfold setLink raiseLink
  split
  · rfl
  · rw [keyView_raise, keyView_updLink]

@[simp] theorem keyView_goDown (s : State) (n : LinkId) (cause : Nat) : (s.goDown n cause).keyView = s.keyView := by
  unfold goDown
  split
  · rfl
  · rw [keyView_setLink, keyView_updLink, keyView_logLinkRun]

@[simp] theorem keyView_settleTrain (s : State) (id : Nat) : (s.settleTrain id).keyView = s.keyView := by
  unfold settleTrain
  split
  · rfl
  · next c _ =>
    have hr (links : List LinkId) : (links.foldl (fun acc n => acc.raiseLink n) s).keyView = s.keyView :=
      foldl_keyView _ (fun _ _ => keyView_raise ..) _ _
    split
    · rfl
    · dsimp only
      split
      · rw [keyView_fail, hr]
      · rw [keyView_succeed, hr]

@[simp] theorem keyView_trainEnd (s : State) (n : LinkId) (ok silent : Bool) :
    (s.trainEnd n ok silent).keyView = s.keyView := by
  unfold trainEnd
  dsimp only
  split
  · rw [keyView_updLink]
  · rw [keyView_settleTrain, keyView_updCmd, keyView_updLink]

@[simp] theorem keyView_trainStop (s : State) (n : LinkId) : (s.trainStop n).keyView = s.keyView := by
  unfold trainStop
  split
  · exact keyView_trainEnd ..
  · rfl

/-- A link that stops its training, and falls to DOWN under lines. -/
theorem keyView_fall (s : State) (n : LinkId) :
    (if (s.trainStop n).carriesLines n then (s.trainStop n).goDown n 7 else s.trainStop n).keyView = s.keyView := by
  split
  · rw [keyView_goDown, keyView_trainStop]
  · exact keyView_trainStop ..

@[simp] theorem keyView_disableLink (s : State) (n : LinkId) : (s.disableLink n).keyView = s.keyView := by
  have off (t : State) : (if t.links[n].st = .disabled then t
      else (t.updLink n fun l => { l with rate := 3 }).setLink n .disabled).keyView = t.keyView := by
    split
    · rfl
    · rw [keyView_setLink, keyView_updLink]
  exact (off _).trans (keyView_fall s n)

@[simp] theorem keyView_enableLink (s : State) (n : LinkId) (rate : Fin 3) : (s.enableLink n rate).keyView = s.keyView := by
  unfold enableLink
  rw [keyView_setLink, keyView_updLink]

@[simp] theorem keyView_applyLink (s : State) (n : LinkId) (old new : LinkCfg) :
    (s.applyLink n old new).keyView = s.keyView := by
  unfold applyLink
  dsimp only
  split
  · rfl
  · split
    · exact keyView_disableLink ..
    · split
      · rfl
      · split
        · exact keyView_enableLink ..
        · split
          · rw [keyView_enableLink, keyView_fall]
          · rfl

/-! ### The web loop and its pages -/

@[simp] theorem keyView_moveWeb (s : State) (f : Web → Web) : (s.moveWeb f).keyView = s.keyView := rfl

@[simp] theorem keyView_logWeb (s : State) (type link cause before after : Nat) (value : Int) (page : Nat) :
    (s.logWeb type link cause before after value page).keyView = s.keyView := rfl

@[simp] theorem keyView_setWeb (s : State) (st : WebState) : (s.setWeb st).keyView = s.keyView := by
  unfold setWeb
  split
  · rfl
  · rw [keyView_raise, keyView_logWeb, keyView_moveWeb]

@[simp] theorem keyView_acquire (s : State) : s.acquire.keyView = s.keyView := by
  unfold acquire
  rw [keyView_moveWeb, keyView_setWeb]

@[simp] theorem keyView_rebase (s : State) : s.rebase.keyView = s.keyView := rfl

@[simp] theorem keyView_commitWeb (s : State) (c : WebCfg) : (s.commitWeb c).keyView = s.keyView := by
  unfold commitWeb
  split
  · rw [keyView_acquire, keyView_updWeb]
  · dsimp only
    split
    · rw [keyView_acquire, keyView_rebase, keyView_updWeb]
    · rfl

@[simp] theorem keyView_cancelPages (s : State) (which : Page → Bool) : (s.cancelPages which).keyView = s.keyView := rfl

@[simp] theorem keyView_ratioInForce (s : State) (c : WebCfg) : (s.ratioInForce c).keyView = s.keyView := by
  unfold ratioInForce
  dsimp only
  split
  · split
    · rfl
    · rw [keyView_raise, keyView_cancelPages]
      exact foldl_keyView _ (fun _ _ => keyView_logCourse ..) _ _
  · split <;> rfl

@[simp] theorem keyView_settleWeb (s : State) : s.settleWeb.keyView = s.keyView := by
  unfold settleWeb
  split
  · split
    · exact keyView_ratioInForce ..
    · rfl
  · rfl

@[simp] theorem keyView_checkFloor (s : State) : s.checkFloor.keyView = s.keyView := by
  unfold checkFloor
  dsimp only
  split
  · split
    · rw [keyView_raise, keyView_updSeq, keyView_updSeq]
    · rfl
  · rfl

/-! ### The forge pool -/

@[simp] theorem keyView_settlePool (s : State) : s.settlePool.keyView = s.keyView := rfl

@[simp] theorem keyView_cutAnvil (s : State) : s.cutAnvil.keyView = s.keyView := by
  unfold cutAnvil
  dsimp only
  split <;> rfl

@[simp] theorem keyView_settleHalted (s : State) : s.settleHalted.keyView = s.keyView := by
  unfold settleHalted
  split
  · rw [keyView_cutAnvil, keyView_settleWeb]
  · rfl

@[simp] theorem keyView_completeKeys (s : State) (course : Nat) : (s.completeKeys course).keyView = s.keyView := by
  unfold completeKeys
  exact foldl_keyView _ (fun _ _ => keyView_succeed ..) _ _

/-! ### Settings that take force -/

/-- The accepted settings are in force, before what follows from them. -/
def inForce (s : State) (new : Ks) : State :=
  let s1 := (((s.noteDisabled new).freshWaves new).settleBuckets s.ks.force new).holdClkouts s.ks.force new
  { s1 with ks := { s1.ks with force := new, accepted := none, outcome := if s.ks.outcome = 1 then 2 else s.ks.outcome } }

theorem takeForce_none {s : State} (h : s.ks.accepted = none) (course : Nat) : s.takeForce course = s := by
  unfold takeForce
  rw [h]

/-- Raster memory, the state of self-refresh, and the number of the last keystone. -/
def memView (s : State) : Raster × SelfRef × Nat := (s.raster, s.sr, s.ks.seq)

theorem memView_noteDisabled (s : State) (new : Ks) : (s.noteDisabled new).memView = s.memView := by dsimp only [memView, noteDisabled]
theorem memView_freshWaves (s : State) (new : Ks) : (s.freshWaves new).memView = s.memView := by dsimp only [memView, freshWaves]
theorem memView_settleBuckets (s : State) (old new : Ks) : (s.settleBuckets old new).memView = s.memView := by
  dsimp only [memView, settleBuckets]
theorem memView_holdClkouts (s : State) (old new : Ks) : (s.holdClkouts old new).memView = s.memView := by
  dsimp only [memView, holdClkouts, updClk]

theorem inForce_keyView (s : State) (new : Ks) : (s.inForce new).keyView =
    (new, s.ks.seq, if s.ks.outcome = 1 then 2 else s.ks.outcome, s.raster, s.sr) := by
  have hm : ((((s.noteDisabled new).freshWaves new).settleBuckets s.ks.force new).holdClkouts s.ks.force new).memView =
      s.memView := by
    rw [memView_holdClkouts, memView_settleBuckets, memView_freshWaves, memView_noteDisabled]
  obtain ⟨hraster, hsr, hseq⟩ := by simpa only [memView, Prod.mk.injEq] using hm
  simp only [inForce, keyView, hraster, hsr, hseq]

theorem takeForce_keyView {s : State} {new : Ks} (h : s.ks.accepted = some new) (course : Nat) :
    (s.takeForce course).keyView = (s.inForce new).keyView := by
  have links (u : State) (l : List LinkId) :
      (l.foldl (fun acc n => acc.applyLink n s.ks.force.link[n] new.link[n]) u).keyView = u.keyView :=
    foldl_keyView _ (fun _ _ => keyView_applyLink ..) _ _
  unfold takeForce
  rw [h]
  dsimp only
  rw [keyView_completeKeys, keyView_checkFloor, keyView_settlePool]
  split
  · rw [keyView_commitWeb, links]
    rfl
  · rw [links]
    rfl

/-! ### Acceptance by the register -/

/-- A keystone of the present shadows is accepted, with no command and with none waiting. -/
def accepting (s : State) : State :=
  { s with ks := { s.ks with
    accepted := some s.ks.shadow
    shadow := { s.ks.shadow with webSet := false, waveSet := 0 }
    banks := #v[s.ks.banks[0] || s.bankQualifies 0, s.ks.banks[1] || s.bankQualifies 1]
    seq := s.ks.seq + 1, outcome := 1 } }

theorem acceptKey_resting {s : State} (ha : s.ks.accepted = none) (hc : s.coursesRun = false) :
    s.acceptKey none = (s.accepting.takeForce s.seq.number).settleHalted := by
  unfold acceptKey
  dsimp only
  rw [ha, hc]
  simp only [Bool.or_false, BitVec.ofNat_eq_ofNat, BitVec.or_zero, Bool.false_eq_true, if_false]
  rfl

theorem accepting_ks (s : State) : s.accepting.ks.seq = s.ks.seq + 1 ∧ s.accepting.ks.outcome = 1 := ⟨rfl, rfl⟩

theorem accepting_inForce (s : State) :
    (s.accepting.inForce s.ks.shadow).keyView = (s.ks.shadow, s.ks.seq + 1, 2, s.raster, s.sr) := by
  rw [inForce_keyView, s.accepting_ks.1, s.accepting_ks.2, if_pos rfl]
  rfl

theorem acceptKey_keyView {s : State} (ha : s.ks.accepted = none) (hc : s.coursesRun = false) :
    (s.acceptKey none).keyView = (s.ks.shadow, s.ks.seq + 1, 2, s.raster, s.sr) := by
  rw [acceptKey_resting ha hc, keyView_settleHalted, takeForce_keyView (new := s.ks.shadow) rfl, accepting_inForce]

theorem acceptKey_running {s : State} (hc : s.coursesRun = true) :
    s.acceptKey none = { s with ks := (s.acceptKey none).ks } ∧ (s.acceptKey none).ks.seq = s.ks.seq + 1 ∧
      (s.acceptKey none).ks.outcome = 1 ∧ (s.acceptKey none).ks.force = s.ks.force ∧
      (s.acceptKey none).ks.cmds = s.ks.cmds := by
  unfold acceptKey
  rw [hc]
  exact ⟨rfl, rfl, rfl, rfl, rfl⟩

theorem writeKeystone_refused {s : State} {d : Nat} (hd : s.keyRefusal = some d) :
    s.writeKeystone = { s with ks := { s.ks with outcome := 3, detail := d } } := by
  unfold writeKeystone
  rw [hd]
  rfl

theorem writeKeystone_accepted {s : State} (hd : s.keyRefusal = none) : s.writeKeystone = s.acceptKey none := by
  unfold writeKeystone
  rw [hd]

end State

theorem exec_keystoneRegisterWrite {s : State} {h : HostId} (ht : s.takesWrite h = true) (v : Dword) :
    exec (.keystoneRegisterWrite h v) s = .next (if s.isSteward h then s.writeKeystone else s) := by
  have hx : exec (.keystoneRegisterWrite h v) s =
    .next (s.writeAs h fun t => if t.isSteward h then t.writeKeystone else t) := rfl
  rw [hx, State.writeAs_taken ht]

theorem keystoneWrite : Clause.KeystoneWrite := by
  intro s h v ht
  have hx := exec_keystoneRegisterWrite ht v
  refine ⟨fun hs => by rw [hx, hs]; rfl, fun hs => ?_⟩
  rw [hs, if_pos rfl] at hx
  refine ⟨fun d hd => by rw [hx, State.writeKeystone_refused hd], fun hd hc => ?_, fun hd hc ha => ?_⟩
  · rw [State.writeKeystone_accepted hd] at hx
    exact ⟨_, hx, State.acceptKey_running hc⟩
  · rw [State.writeKeystone_accepted hd] at hx
    refine ⟨_, hx, ?_⟩
    have hv := State.acceptKey_keyView ha hc
    exact ⟨congrArg (·.1) hv, congrArg (·.2.1) hv, congrArg (·.2.2.1) hv, congrArg (·.2.2.2.1) hv⟩

/-- Settles O36, by what each of the registers writes: KEYSTONE, APPLY, CLEAR and the GO bits. -/
theorem stewardRegisters : Obligations.StewardRegisters :=
  ⟨keystoneWrite, applyTakesMap, clearMakesGood, goStartsChange⟩

end Sys2Proof.Machine
end

section
/-! SUPPORT. The rows of ports, their hosts and the data that the device reads, in states in which their time has come (R24, R27,
R40, R101). -/

namespace Sys2Proof.Machine

namespace State

theorem release_hosts (s : State) (id : Nat) : (s.release id).hosts = s.hosts := by
  cases hc : s.findCmd id with
  | none => rw [release, hc]
  | some c => exact (release_stopOnly hc).hosts

theorem discard_hosts (s : State) (c : Cmd) : (s.discard c).hosts = s.hosts := release_hosts s c.id

/-- Stopping a host's commands leaves the states of all hosts. -/
theorem stopHost_st (s : State) (h k : HostId) : (s.stopHost h).hosts[k].st = s.hosts[k].st := by
  obtain ⟨qs, settled⟩ := foldl_settleDisable_eq (List.finRange 4)
    ((s.cmds.filter fun c => c.iss.host = h).foldl discard s) h
  have hosts : ((s.cmds.filter fun c => c.iss.host = h).foldl discard s).hosts = s.hosts :=
    foldl_same State.hosts discard discard_hosts _ s
  rw [stopHost_eq, settled]
  by_cases hk : k = h
  · subst hk
    rw [withQueues_same, hosts]
  · rw [withQueues_other _ hk, hosts]

theorem fence_st (s : State) (h : HostId) (cause : Fin 4) (issuer : Nat) : (s.fence h cause issuer).hosts[h].st = .fenced := by
  obtain ⟨m, logged⟩ := logFence_frame ((s.fencedOff h cause).stopHost h) h cause.val issuer (s.isSteward h)
    (s.cmds.filter fun c => c.iss.host = h)
  have stopped : ((s.fencedOff h cause).stopHost h).hosts[h].st = .fenced :=
    (stopHost_st ..).trans (congrArg HostRec.st (fencedOff_same ..))
  rw [fence_eq, logged, (raised_raiseHost _ h).sessionOnly.st]
  dsimp only
  exact stopped

theorem resetPort_st (s : State) (h : HostId) : (s.resetPort h).hosts[h].st = .down := by
  have down : ((s.stopHost h).portDown h).hosts[h].st = .down := congrArg HostRec.st (portDown_same ..)
  rw [resetPort_eq]
  split
  · exact down
  · rw [(raised_raiseHost _ h).sessionOnly.st]
    exact down

end State

/-- PORT_RESET, PORT_LINK_UP, HB_TIMEOUT and HEARTBEAT_EXPIRY complete. -/
theorem portRows_complete (s : State) (h : HostId) :
    (∀ k, ∃ t, exec (.portReset h k) s = .next t ∧ t.hosts[h].st = .down) ∧
    (s.portMayLink h = true → s.hosts[h].st = .down → ∃ t, exec (.portLinkUp h) s = .next t ∧ t.hosts[h].st = .linked) ∧
    (s.hosts[h].st = .attached → s.hosts[h].hbTimeout * 160000000 ≤ s.time - s.hosts[h].lastHb → ∃ t,
      exec (.hbTimeout h) s = .next t ∧ t.hosts[h].st = .late) ∧
    (s.hosts[h].st = .late → 2 * (s.hosts[h].hbTimeout * 160000000) ≤ s.time - s.hosts[h].lastHb → s.hosts[h].autoFence = true →
      ∃ t, exec (.heartbeatExpiry h) s = .next t ∧ t.hosts[h].st = .fenced) := by
  obtain ⟨late, -, expired, -⟩ := heartbeatDeadlines s h
  refine ⟨fun k => ?_, fun hmay hdown => ?_, fun hatt hage => ?_, fun hlate hage hauto => ?_⟩
  · rw [exec_portReset]
    exact ⟨_, rfl, s.resetPort_st h⟩
  · obtain ⟨t, hx, hst, -⟩ := (portLinks s h).1 hmay hdown
    exact ⟨t, hx, hst⟩
  · obtain ⟨t, hx, hst, -⟩ := late hatt hage
    exact ⟨t, hx, hst⟩
  · rw [expired hlate hage (.inl hauto)]
    exact ⟨_, rfl, s.fence_st h ..⟩

/-- HOST_READ_COMPLETION, HOST_DATA_BAD and COMPLETION_TIMEOUT complete. -/
theorem readRows_complete {s : State} {h : HostId} {id : Nat} {c : Cmd} (hr : s.reading h id = some c) :
    (∀ data, let d : Cmd := { c with buf := c.buf ++ data.take (s.readNeed c - c.buf.length) }
      exec (.hostReadCompletion h id data) s = .next ((s.updCmd id fun _ => d).sourced d)) ∧
    (∃ t, exec (.hostDataBad h id) s = .next t ∧ ∀ k ∈ t.cmds, k.id ≠ id) ∧
    ∃ t, exec (.completionTimeout h id) s = .next t ∧ ∀ k ∈ t.cmds, k.id ≠ id := by
  refine ⟨fun data => ?_, ?_, ?_⟩
  · rw [exec_hostReadCompletion, State.hostData_some hr]
    rfl
  · rw [exec_hostDataBad]
    exact ⟨_, rfl, (State.readFails_stops hr _).1⟩
  · rw [exec_completionTimeout]
    exact ⟨_, rfl, (State.readFails_stops hr _).1⟩

end Sys2Proof.Machine
end

section
/-! SUPPORT. The rows of compressor engines, in states in which their time has come (R118, R126, R128). -/

namespace Sys2Proof.Machine

namespace State

/-! ### Dispatch -/

/-- A free engine that has a share takes the next command, when nothing of its strip refuses it. -/
theorem dispatch_takes {s : State} {n : Fin 8} {c : Cmd} (hin : s.comps[n].inService = true) (hjob : s.comps[n].job = none)
    (htest : s.comps[n].test = none) (hshare : n.val < min (poolShares s.ks.force.pool) s.shares)
    (hnext : s.nextCompress = some c) (hcheck : s.compressCheck c = none) (stream : List Byte) (bits : Nat) :
    (s.dispatch n stream bits).comps[n].job = some c.id := by
  have free : ¬(!s.comps[n].inService || s.comps[n].job.isSome || s.comps[n].test.isSome ||
      decide (min (poolShares s.ks.force.pool) s.shares ≤ n.val)) = true := by
    rw [hin, hjob, htest, decide_eq_false (Nat.not_le.mpr hshare)]
    decide
  have hcheck' : ({ s with compTurn := c.host } : State).compressCheck c = none := hcheck
  unfold dispatch
  dsimp only
  rw [if_neg free, hnext]
  dsimp only
  rw [hcheck']
  exact congrArg Compressor.job (vmod_same ..)

/-! ### Completion -/

theorem compressDone_keeps {s : State} {n : Fin 8} {c : Cmd} {t : Strip} (hjob : s.comps[n].job.bind s.findCmd = some c)
    (hend : c.out.ended = true) (hmoved : s.moved c = true) (hstrip : s.findStrip (c.p 5) = some t)
    (hgain : c.out.size ≤ c.gainLimit) :
    s.compressDone n = ((s.putStrip (Output.strip c.out t)).succeed c.id t.handle c.out.size).engineFree n := by
  have moved : ¬(!c.out.ended || !s.moved c) = true := by
    rw [hend, hmoved]
    decide
  unfold compressDone
  rw [hjob]
  dsimp only
  rw [if_neg moved, if_neg (Nat.not_lt.mpr hgain), hstrip]

/-! ### Faults -/

theorem storeBurst_comps (s : State) (a : Nat) (ws : List (BitVec 80)) : (s.storeBurst a ws).comps = s.comps := by
  unfold storeBurst
  dsimp only
  repeat' split
  all_goals rfl

theorem levelWrites_comps (s : State) (c : Cmd) : (s.levelWrites c).comps = s.comps := by
  unfold levelWrites
  split
  · dsimp only
    split
    · rfl
    · exact foldl_same State.comps _ (fun _ _ => storeBurst_comps ..) _ s
  · rfl

/-- Stopping a command leaves which engines are broken, and puts no engine under test. -/
theorem release_comps {s : State} {id : Nat} {c : Cmd} (hc : s.findCmd id = some c) (n : Fin 8) :
    (s.release id).comps[n].broken = s.comps[n].broken ∧
      (s.comps[n].test = none → (s.release id).comps[n].test = none) := by
  have freed (u : State) : (u.freed id).comps[n].broken = u.comps[n].broken ∧
      (u.comps[n].test = none → (u.freed id).comps[n].test = none) := by
    have mapped : (u.freed id).comps[n] = { u.comps[n] with
        job := if u.comps[n].job = some id then none else u.comps[n].job
        test := if u.comps[n].test = some id then none else u.comps[n].test } := Vector.getElem_map ..
    rw [mapped]
    exact ⟨rfl, fun h => by rw [h]; rfl⟩
  have kept : (((s.levelWrites c).orphanFills c).withdraw id).comps = s.comps := s.levelWrites_comps c
  rw [release_found hc, ← kept]
  exact freed _

/-- Aborting a command leaves which engines are broken, puts none under test, and takes the command out of flight. -/
theorem abort_engines {s : State} {id : Nat} {c : Cmd} (hc : s.findCmd id = some c) (a : Answer) (n : Fin 8) :
    (s.abort id a).comps[n].broken = s.comps[n].broken ∧
      (s.comps[n].test = none → (s.abort id a).comps[n].test = none) ∧ ∀ k ∈ (s.abort id a).cmds, k.id ≠ id := by
  have found : (s.release id).findCmd id = some c := by rw [findCmd, release_cmds]; exact hc
  have comps : (s.abort id a).comps = (s.release id).comps :=
    (finish_sessionOnly (s.release id) id a).same State.comps fun _ _ _ _ _ _ => rfl
  obtain ⟨broken, test⟩ := release_comps hc n
  obtain ⟨-, -, cmds⟩ := finish_found a found
  rw [comps]
  refine ⟨broken, test, fun k hk => ?_⟩
  rw [abort, cmds] at hk
  simpa using (List.mem_filter.mp hk).2

/-- A broken engine with no test that waits is out of service once it is free. -/
theorem engineFree_broken {s : State} {n : Fin 8} (hb : s.comps[n].broken = true) (ht : s.comps[n].test = none) :
    (s.engineFree n).comps[n].inService = false ∧ (s.engineFree n).cmds = s.cmds := by
  have shares (u : State) : (u.engineShares).comps[n] = { u.comps[n] with
      inService := decide (n.val < u.part.compressors) && !u.comps[n].broken &&
        (decide (n.val < min (poolShares u.ks.force.pool) u.shares) || u.comps[n].job.isSome) } := Vector.getElem_ofFn ..
  have settled (u : State) : u.settlePool.comps[n].test = u.comps[n].test ∧
      (u.comps[n].broken = true → u.settlePool.comps[n].inService = false) := by
    unfold settlePool
    dsimp only
    rw [shares]
    exact ⟨rfl, fun h => by simp [show u.comps[n.val].broken = true from h]⟩
  have left : (s.updComp n fun e => { e with job := none }).comps[n] = { s.comps[n] with job := none } := vmod_same ..
  obtain ⟨test, out⟩ := settled (s.updComp n fun e => { e with job := none })
  rw [left] at test out
  unfold engineFree
  dsimp only
  rw [test, ht]
  exact ⟨out hb, rfl⟩

/-- The state in which a fault has been logged, its engine is broken and its source has been raised. -/
def faulted (s : State) (n : Fin 8) (c : Cmd) (cause addr : Nat) : State :=
  ((s.logComp 0x0501 n c cause (c.p 5) c.out.ends.length addr).updComp n fun e => { e with broken := true }).raise
    ⟨48 + n.val, by omega⟩

theorem compFault_found {s : State} {n : Fin 8} {id : Nat} {c : Cmd} (hjob : s.comps[n].job = some id)
    (hc : s.findCmd id = some c) (cause addr : Nat) : s.compFault n cause addr =
      ((s.faulted n c cause addr).abort id { status := .aborted, detail := 0x14 }).engineFree n := by
  obtain rfl := id_of_find hc
  have held : s.comps[n].job.bind s.findCmd = some c := by
    rw [hjob]
    exact hc
  unfold compFault
  rw [held]
  rfl

theorem faulted_comps (s : State) (n : Fin 8) (c : Cmd) (cause addr : Nat) :
    (s.faulted n c cause addr).comps[n] = { s.comps[n] with broken := true } := by
  have raised : (s.faulted n c cause addr).comps =
      ((s.logComp 0x0501 n c cause (c.p 5) c.out.ends.length addr).updComp n fun e => { e with broken := true }).comps :=
    (raised_raise _ _).sessionOnly.same State.comps fun _ _ _ _ _ _ => rfl
  rw [raised]
  exact vmod_same ..

/-- A fault takes its engine out of service and its command out of flight (R128). -/
theorem compFault_ends {s : State} {n : Fin 8} {id : Nat} {c : Cmd} (hjob : s.comps[n].job = some id)
    (hc : s.findCmd id = some c) (htest : s.comps[n].test = none) (cause addr : Nat) :
    (s.compFault n cause addr).comps[n].inService = false ∧ ∀ k ∈ (s.compFault n cause addr).cmds, k.id ≠ id := by
  have found : (s.faulted n c cause addr).findCmd id = some c := by
    rw [findCmd, faulted, (raised_raise _ _).cmds]
    exact hc
  obtain ⟨broken, test, cmds⟩ := abort_engines found { status := .aborted, detail := 0x14 } n
  rw [faulted_comps] at broken test
  obtain ⟨out, kept⟩ := engineFree_broken broken (test htest)
  rw [compFault_found hjob hc]
  exact ⟨out, kept ▸ cmds⟩

end State

/-- COMPRESSOR_DISPATCH, WRITE_COMPRESS_DONE and COMPRESSOR_FAULT complete. -/
theorem engineRows_complete (s : State) (n : Fin 8) :
    (s.comps[n].inService = true → s.comps[n].job = none → s.comps[n].test = none →
      n.val < min (poolShares s.ks.force.pool) s.shares → ∀ c stream bits, s.nextCompress = some c → s.compressCheck c = none →
        ∃ t, exec (.compressorDispatch n stream bits) s = .next t ∧ t.comps[n].job = some c.id) ∧
    (∀ c t, s.comps[n].job.bind s.findCmd = some c → c.out.ended = true → s.moved c = true → s.findStrip (c.p 5) = some t →
      let size := ceilDiv (c.out.tail + c.out.bits) 8 - ceilDiv c.out.tail 8 + 8 * c.out.ends.length
      size ≤ c.f 2 0 16 * lineBytes (c.f 3 0 11) * (256 - c.f 4 0 8) / 256 →
        exec (.writeCompressDone n) s =
          .next (((s.putStrip (State.Output.strip c.out t)).succeed c.id t.handle size).engineFree n)) ∧
    ∀ cause addr id c, cause ≠ 0 → s.comps[n].job = some id → s.findCmd id = some c → c.op = 0x13 → s.comps[n].test = none →
      ∃ t, exec (.compressorFault n cause addr) s = .next t ∧ t.comps[n].inService = false ∧ ∀ k ∈ t.cmds, k.id ≠ id := by
  refine ⟨fun hin hjob htest hshare c stream bits hnext hcheck => ?_, fun c t hjob hend hmoved hstrip => ?_,
    fun cause addr id c hcause hjob hc _ htest => ?_⟩
  · have hx : exec (.compressorDispatch n stream bits) s = .next (s.dispatch n stream bits) := rfl
    exact ⟨_, hx, State.dispatch_takes hin hjob htest hshare hnext hcheck stream bits⟩
  · intro size hgain
    have hx : exec (.writeCompressDone n) s = .next (s.compressDone n) := rfl
    rw [hx, State.compressDone_keeps hjob hend hmoved hstrip hgain]
    rfl
  · have hx : exec (.compressorFault n cause addr) s =
      .next (if cause = 0 then s else s.compFault n cause.val (if cause = 1 then 2 ^ 64 - 1 else addr.toNat)) := rfl
    rw [hx, if_neg hcause]
    exact ⟨_, rfl, State.compFault_ends hjob hc htest ..⟩

end Sys2Proof.Machine
end

section
/-! SUPPORT. The ends of fills, token refills, the entry into self-refresh and the switching of domains, in states in which their
time has come (R92, R304, R318, R393). -/

namespace Sys2Proof.Machine

namespace State

/-! ### Fills -/

theorem contains_insertNat (l : List Nat) (n : Nat) : (Raster.insertNat l n).contains n = true := by
  simp [Raster.insertNat]

theorem fillDone_ends {s : State} {n : Nat} {f : Fill} (hf : s.raster.filling.find? (fun f => f.ashlar = n) = some f)
    (hr : f.rest = some []) :
    (s.fillDone n).raster.isFilling n = false ∧ (f.back = false → (s.fillDone n).raster.isWritten n = true) := by
  unfold fillDone
  rw [hf]
  dsimp only
  rw [hr]
  dsimp only
  rw [if_pos rfl]
  refine ⟨?_, fun hb => ?_⟩
  · simp [Raster.isFilling]
  · simp only [updRaster_raster, Raster.isWritten, hb]
    exact contains_insertNat ..

theorem refill_advances {s : State} (h : s.refilled + 8533 ≤ s.time) : s.refill.refilled = s.refilled + 8533 := by
  have due : ¬s.time < s.refilled + loopTau := Nat.not_lt.mpr h
  unfold refill
  rw [if_neg due]
  rfl

/-! ### Self-refresh entry -/

theorem mem_chansInUse {s : State} {c : ChanId} : c ∈ s.chansInUse ↔ s.inUse c = true := by
  have both : c ∈ [(0 : ChanId), 1] := by
    match c with
    | 0 => simp
    | 1 => simp
  simp only [chansInUse, List.mem_filter, both, true_and]

/-- A channel in service begins QUIESCE. -/
def quiesced (ch : Chan) : Chan := if ch.st = .service then { ch with st := .quiesce } else ch

theorem restEntry_enters {s : State} (hp : s.power.srIdle = true) (hi : s.idleNow = true) (hn : s.sr.idle = false)
    (hs : ∀ k, s.inUse k = true → s.chans[k].st = .service) (hu : ∃ k, s.inUse k = true)
    (ht : s.sr.idleFrom + s.power.srDelay * 160000 ≤ s.time) :
    s.restEntry = { s with sr := { s.sr with idle := true, wanted := false }, chans := s.chans.map quiesced } := by
  obtain ⟨k, hk⟩ := hu
  have serve : (s.chansInUse.all fun c => s.chans[c].st == .service ||
      (s.chans[c].st == .quenched || s.chans[c].st == .domainOff)) = true :=
    List.all_eq_true.mpr fun c hc => by rw [hs c (mem_chansInUse.mp hc)]; rfl
  have some_ : (s.chansInUse.all fun c => s.chans[c].st == .quenched || s.chans[c].st == .domainOff) = false := by
    rw [List.all_eq_false]
    refine ⟨k, mem_chansInUse.mpr hk, ?_⟩
    rw [hs k hk]
    decide
  have late : decide (s.sr.idleFrom + s.power.srDelay * Config.usTau ≤ s.time) = true := decide_eq_true ht
  unfold restEntry
  dsimp only
  rw [hp, hi, hn, serve, some_, late]
  rfl

end State

/-- FILL_COMPLETE, TOKEN_REFILL, SELF_REFRESH_ENTRY and DOMAIN_SWITCH complete. -/
theorem restRows_complete (s : State) :
    (∀ n f, s.raster.filling.find? (fun f => f.ashlar = n) = some f → f.rest = some [] → ∃ t,
      exec (.fillComplete n) s = .next t ∧ t.raster.isFilling n = false ∧ (f.back = false → t.raster.isWritten n = true)) ∧
    (s.refilled + 8533 ≤ s.time → ∃ t, exec .tokenRefill s = .next t ∧ t.refilled = s.refilled + 8533) ∧
    (s.power.srIdle = true → s.idleNow = true → s.sr.idle = false → (∀ k, s.inUse k = true → s.chans[k].st = .service) →
      (∃ k, s.inUse k = true) → s.sr.idleFrom + s.power.srDelay * 160000 ≤ s.time → ∃ t,
        exec .selfRefreshEntry s = .next t ∧ ∀ k, s.inUse k = true → t.chans[k].st = .quiesce) ∧
    (∀ d, s.power.todo.head? = some (d, false) → s.busyDomain d = false → exec (.domainSwitch d) s = .next (s.switchOff d)) ∧
    (∀ d, s.power.todo.head? = some (d, true) → s.domainOn d.val = false → exec (.domainSwitch d) s = .next (s.switchOn d)) := by
  refine ⟨fun n f hf hr => ?_, fun hd => ?_, fun hp hi hn hs hu ht => ?_, fun d hd hb => ?_, fun d hd _ => ?_⟩
  · have hx : exec (.fillComplete n) s = .next (s.fillDone n) := rfl
    exact ⟨_, hx, State.fillDone_ends hf hr⟩
  · have hx : exec .tokenRefill s = .next s.refill := rfl
    exact ⟨_, hx, State.refill_advances hd⟩
  · have hx : exec .selfRefreshEntry s = .next s.restEntry := rfl
    refine ⟨_, hx, fun k hk => ?_⟩
    have quiet : (s.chans.map State.quiesced)[k] = State.quiesced s.chans[k] := Vector.getElem_map ..
    rw [State.restEntry_enters hp hi hn hs hu ht]
    dsimp only
    rw [quiet, State.quiesced, if_pos (hs k hk)]
  · have hx : exec (.domainSwitch d) s = .next (s.domainSwitch d) := rfl
    rw [hx, State.domainSwitch, hd]
    simp [hb]
  · have hx : exec (.domainSwitch d) s = .next (s.domainSwitch d) := rfl
    rw [hx, State.domainSwitch, hd]
    simp

end Sys2Proof.Machine
end

section
/-! SUPPORT. What the start of a course leaves alone: the settings in force, raster memory and the state of self-refresh (R170 to
R183, R307). -/

namespace Sys2Proof.Machine

namespace State

/-! ### DRAM commands, temper steps and their logs -/

@[simp] theorem keyView_issue (s : State) (c : ChanId) (code : Nat) (r : RankId) (u : SubId) (g b : Nat) (w : By) :
    (s.issue c code r u g b w).keyView = s.keyView := rfl

@[simp] theorem keyView_issueBoth (s : State) (c : ChanId) (code : Nat) (r : RankId) (w : By) :
    (s.issueBoth c code r w).keyView = s.keyView := by
  unfold issueBoth
  rw [keyView_issue, keyView_issue]

@[simp] theorem keyView_useRank (s : State) (c : ChanId) (r : RankId) (w : By) : (s.useRank c r w).keyView = s.keyView := by
  unfold useRank
  rw [keyView_updRank]
  split
  · exact keyView_issueBoth ..
  · rfl

@[simp] theorem keyView_logDram (s : State) (type : Nat) (c : ChanId) (sub rank b15 temp value : Nat) :
    (s.logDram type c sub rank b15 temp value).keyView = s.keyView := rfl

@[simp] theorem keyView_raiseChan (s : State) (c : ChanId) : (s.raiseChan c).keyView = s.keyView := keyView_raise ..

theorem keyView_serviced (s : State) (c : ChanId) (r : RankId) (w : By) {act : State → State}
    (ha : ∀ t, (act t).keyView = t.keyView) : (s.serviced c r w act).keyView = s.keyView := by
  unfold serviced
  dsimp only
  split
  · rw [keyView_updRank, keyView_issueBoth, ha, keyView_useRank]
  · rw [ha, keyView_useRank]

@[simp] theorem keyView_noteTemp (s : State) (c : ChanId) (r : RankId) (temp : Nat) :
    (s.noteTemp c r temp).keyView = s.keyView := by
  unfold noteTemp
  dsimp only
  split
  · rw [keyView_raise, keyView_logDram, keyView_updRank]
  · rfl

@[simp] theorem keyView_noteMismatch (s : State) (c : ChanId) (r : RankId) (reg : Byte) (w : By) :
    (s.noteMismatch c r reg w).keyView = s.keyView := by
  unfold noteMismatch
  dsimp only
  split
  · rw [keyView_raiseChan, keyView_logDram, keyView_updChan, keyView_updRank, keyView_issueBoth]
  · rw [keyView_logDram, keyView_updChan, keyView_updRank, keyView_issueBoth]

@[simp] theorem keyView_updCentring (s : State) (c : ChanId) (r : RankId) (u : SubId) (f : Centring → Centring) :
    (s.updCentring c r u f).keyView = s.keyView := rfl

theorem keyView_oscOn (c : ChanId) (r : RankId) (x : TemperResult) (w : By) (s : State) (u : SubId) :
    (oscOn c r x w s u).keyView = s.keyView := by
  unfold oscOn
  dsimp only
  rw [keyView_updCentring, keyView_issue]

@[simp] theorem keyView_oscStep (s : State) (c : ChanId) (r : RankId) (us : List SubId) (x : TemperResult) (w : By) :
    (s.oscStep c r us x w).keyView = s.keyView := by
  have osc : (us.foldl (oscOn c r x w) s).keyView = s.keyView := foldl_keyView (oscOn c r x w) (keyView_oscOn c r x w) us s
  unfold oscStep
  dsimp only
  split
  · rw [keyView_noteMismatch, keyView_updRank, keyView_noteTemp, osc]
  · rw [keyView_updRank, keyView_noteTemp, osc]

@[simp] theorem keyView_centreOn (c : ChanId) (r : RankId) (kind : Nat) (x : TemperResult) (s : State) (u : SubId) :
    (centreOn c r kind x s u).keyView = s.keyView := by
  have moved : (if (onSub x u).eye = 0 then s.updRank c r fun k => { k with st := .degraded }
      else s.updCentring c r u fun k =>
        if kind = 1 then { k with read := k.read + (onSub x u).moved }
        else { k with write := k.write + (onSub x u).moved }).keyView = s.keyView := by
    split <;> rfl
  unfold centreOn
  dsimp only
  split
  · rw [keyView_raiseChan, keyView_logDram, moved]
  · exact moved

@[simp] theorem keyView_restoreSaved (s : State) (c : ChanId) (r : RankId) (us : List SubId) (a : Nat) :
    (s.restoreSaved c r us a).keyView = s.keyView := by
  unfold restoreSaved
  dsimp only
  split <;> rfl

@[simp] theorem keyView_temperStep (s : State) (c : ChanId) (r : RankId) (us : List SubId) (kind : Nat) (x : TemperResult)
    (w : By) : (s.temperStep c r us kind x w).keyView = s.keyView := by
  have centred (t : State) : (us.foldl (centreOn c r kind x) t).keyView = t.keyView :=
    foldl_keyView _ (fun _ _ => keyView_centreOn ..) us t
  unfold temperStep
  split
  · rfl
  · refine keyView_serviced _ _ _ _ fun t => ?_
    split
    · exact keyView_oscStep ..
    · dsimp only
      split
      · rw [keyView_restoreSaved, centred]
      · exact centred t

/-! ### Frames, halts and ends of pages -/

@[simp] theorem keyView_sendFrame (s : State) (n : LinkId) (ftype flags len line : Nat) (page : BitVec 16) (pageLine : Nat)
    (payload : List Byte) : (s.sendFrame n ftype flags len line page pageLine payload).keyView = s.keyView := rfl

@[simp] theorem keyView_flush (s : State) : s.flush.keyView = s.keyView := by
  unfold flush
  exact foldl_keyView _ (fun _ _ => by rw [keyView_updLink, keyView_sendFrame]) _ s

@[simp] theorem keyView_dropPages (s : State) (which : Page → Bool) : (s.dropPages which).keyView = s.keyView := rfl

@[simp] theorem keyView_haltDone (s : State) : s.haltDone.keyView = s.keyView := by
  unfold haltDone
  dsimp only
  refine (foldl_keyView _ (fun _ _ => keyView_succeed ..) _ _).trans ?_
  rfl

@[simp] theorem keyView_stopFill (s : State) : s.stopFill.keyView = s.keyView := by
  dsimp only [stopFill, keyView, updSeq]

@[simp] theorem keyView_endPages (s : State) : s.endPages.keyView = s.keyView := by
  have ended : s.endPages.keyView = (s.dropPages Page.active).stopFill.keyView := rfl
  rw [ended, keyView_stopFill, keyView_dropPages]

@[simp] theorem keyView_settlePages (s : State) : s.settlePages.keyView = s.keyView := by
  unfold settlePages
  dsimp only
  split
  · split
    · split
      · rfl
      · rw [keyView_haltDone, keyView_dropPages]
    · split
      · split
        · rw [keyView_haltDone, keyView_flush, keyView_endPages, keyView_dropPages]
        · rfl
      · rfl
  · rfl

/-! ### Lines -/

@[simp] theorem keyView_updFetch (s : State) (n : LinkId) (f : Fetch → Fetch) : (s.updFetch n f).keyView = s.keyView := rfl

@[simp] theorem keyView_updEngine (s : State) (e : Fin 34) (f : Engine → Engine) : (s.updEngine e f).keyView = s.keyView := rfl

@[simp] theorem keyView_loseBurst (s : State) (n : LinkId) (u : Used) : (s.loseBurst n u).keyView = s.keyView := rfl

@[simp] theorem keyView_logDrain (s : State) (type : Nat) (n : LinkId) (cause engine strip page line pageLine value : Nat) :
    (s.logDrain type n cause engine strip page line pageLine value).keyView = s.keyView := rfl

@[simp] theorem keyView_updPage (s : State) (id : BitVec 16) (f : Page → Page) : (s.updPage id f).keyView = s.keyView := rfl

@[simp] theorem keyView_pageFilled (s : State) (id : BitVec 16) : (s.pageFilled id).keyView = s.keyView := by
  unfold pageFilled
  split
  · rfl
  · split
    · rw [keyView_settlePages, keyView_raise, keyView_updSeq, keyView_updPage]
    · rfl

@[simp] theorem keyView_endLine (s : State) (n : LinkId) (page : BitVec 16) : (s.endLine n page).keyView = s.keyView := by
  unfold endLine
  rw [keyView_pageFilled, keyView_checkFloor, keyView_updFetch]

@[simp] theorem keyView_fillSlot (s : State) (n : LinkId) (page : BitVec 16) (i : Nat) (image : List Byte) (poison : Bool) :
    (s.fillSlot n page i image poison).keyView = s.keyView := rfl

@[simp] theorem keyView_markStrip (s : State) (t : Strip) (cause : Nat) : (s.markStrip t cause).keyView = s.keyView := by
  unfold markStrip
  split <;> rfl

@[simp] theorem keyView_poisonLine (s : State) (n : LinkId) (p : Page) (t : Strip) (i cause value : Nat) (rest : Bool) :
    (s.poisonLine n p t i cause value rest).keyView = s.keyView := by
  unfold poisonLine
  dsimp only
  rw [keyView_endLine, keyView_markStrip, keyView_raise, keyView_logDrain, keyView_updFetch, keyView_fillSlot]

@[simp] theorem keyView_takeSlot (s : State) (n : LinkId) (p : Page) (t : Strip) (i : Nat) :
    (s.takeSlot n p t i).keyView = s.keyView := by
  unfold takeSlot
  dsimp only
  split <;> rfl

@[simp] theorem keyView_takeLine (s : State) (n : LinkId) (p : Page) (t : Strip) (i : Nat) :
    (s.takeLine n p t i).keyView = s.keyView := by
  unfold takeLine
  dsimp only
  split
  · rw [keyView_endLine, keyView_fillSlot, keyView_updFetch, keyView_takeSlot]
  · split
    · rw [keyView_poisonLine, keyView_updFetch, keyView_takeSlot]
    · rw [keyView_poisonLine, keyView_updFetch, keyView_takeSlot]
    · rw [keyView_updFetch]
      split
      · split
        · rw [keyView_updEngine, keyView_updFetch, keyView_takeSlot]
        · rw [keyView_updFetch, keyView_takeSlot]
      · rw [keyView_updFetch, keyView_takeSlot]

@[simp] theorem keyView_logLate (s : State) (n : LinkId) (p : Page) (i : Nat) : (s.logLate n p i).keyView = s.keyView := by
  unfold logLate
  dsimp only
  rw [keyView_updFetch]
  split <;> rfl

@[simp] theorem keyView_engageSpare (s : State) (n : LinkId) (p : Page) : (s.engageSpare n p).keyView = s.keyView := by
  unfold engageSpare
  dsimp only
  split <;> rw [keyView_raise] <;> rfl

@[simp] theorem keyView_checkWidth (s : State) (n : LinkId) (p : Page) (t : Strip) :
    (s.checkWidth n p t).keyView = s.keyView := by
  unfold checkWidth raiseLink
  dsimp only
  split
  · rw [keyView_raise]
    rfl
  · rfl

@[simp] theorem keyView_stripStart (s : State) (n : LinkId) (p : Page) (t : Strip) :
    (s.stripStart n p t).keyView = s.keyView := by
  have served (u : State) : (if u.engineServes n then u else u.engageSpare n p).keyView = u.keyView := by
    split
    · rfl
    · exact keyView_engageSpare ..
  unfold stripStart
  dsimp only
  rw [keyView_checkWidth]
  split
  · rw [keyView_updEngine, served]
    rfl
  · rw [served]
    rfl

@[simp] theorem keyView_planLink (s : State) (p : Page) (leff : Nat) (n : LinkId) :
    (s.planLink p leff n).keyView = s.keyView := by
  have late (room : Bool) (i : Nat) : (if room then s.logLate n p i else s).keyView = s.keyView := by
    cases room with
    | true => exact keyView_logLate ..
    | false => rfl
  have taken (t : Strip) (i : Nat) : ((if i = 0 then s.stripStart n p t else s).takeLine n p t i).keyView = s.keyView := by
    rw [keyView_takeLine]
    split
    · exact keyView_stripStart ..
    · rfl
  unfold planLink
  dsimp only
  split
  · rfl
  · split
    · rfl
    · split
      · rfl
      · split
        · rfl
        · split
          · exact late ..
          · split
            · rfl
            · exact taken ..

@[simp] theorem keyView_shortfall (s : State) (n : LinkId) (c : ChanId) (u : Nat) :
    (s.shortfall n c u).keyView = s.keyView := by
  unfold shortfall
  dsimp only
  split
  · rfl
  · rw [keyView_raise, keyView_logCourse, keyView_updFetch]
    exact foldl_keyView _ (fun _ _ => keyView_loseBurst ..) _ _

@[simp] theorem keyView_shortfalls (s : State) (n : LinkId) : (s.shortfalls n).keyView = s.keyView :=
  foldl_keyView _ (fun _ _ => foldl_keyView _ (fun _ _ => keyView_shortfall ..) _ _) _ s

end State

end Sys2Proof.Machine
end

section
/-! SUPPORT. The exit from self-refresh, with the courses that begin after it (R133, R178, R305). -/

namespace Sys2Proof.Machine

namespace State

theorem keyView_ite {P : Prop} [Decidable P] {a b s : State} (ha : a.keyView = s.keyView) (hb : b.keyView = s.keyView) :
    (if P then a else b).keyView = s.keyView := by
  split
  · exact ha
  · exact hb

/-! ### The start of a course -/

@[simp] theorem keyView_hotRefresh (s : State) (c : ChanId) : (s.hotRefresh c).keyView = s.keyView := by
  unfold hotRefresh
  dsimp only
  split
  · rw [keyView_raise, keyView_logDram, keyView_updChan, keyView_updChan]
  · rfl

@[simp] theorem keyView_closeFetch (s : State) : s.closeFetch.keyView = s.keyView := by
  refine foldl_keyView _ (fun t n => ?_) _ s
  rw [keyView_updFetch]
  exact foldl_keyView _ (fun _ _ => keyView_loseBurst ..) _ t

@[simp] theorem keyView_testPage (s : State) : s.testPage.keyView = s.keyView := by
  unfold testPage
  dsimp only
  exact keyView_ite (by rw [keyView_raise, keyView_updSeq]) rfl

@[simp] theorem keyView_renumber (s : State) (n : LinkId) : (s.renumber n).keyView = s.keyView := rfl

@[simp] theorem keyView_rejoin (s : State) (n : LinkId) : (s.rejoin n).keyView = s.keyView := by
  unfold rejoin
  split
  · rfl
  · rw [keyView_setLink, keyView_renumber]

/-- A change of all links leaves the view. -/
theorem keyView_links (s : State) (ls : Vector Link 32) : ({ s with links := ls } : State).keyView = s.keyView := rfl

@[simp] theorem keyView_beginPage (s : State) (p : Page) : (s.beginPage p).keyView = s.keyView := by
  have rejoined (t : State) : (t.partLinks.foldl (fun acc n => acc.rejoin n) t).keyView = t.keyView :=
    foldl_keyView _ (fun _ _ => keyView_rejoin ..) _ t
  unfold beginPage
  dsimp only
  rw [keyView_pageFilled, keyView_updSeq, keyView_links, keyView_updPage, keyView_links, rejoined]
  split
  · exact keyView_logWeb ..
  · rfl

@[simp] theorem keyView_startPage (s : State) : s.startPage.keyView = s.keyView := by
  unfold startPage
  dsimp only
  split
  · split
    · exact keyView_beginPage ..
    · rfl
  · rfl

@[simp] theorem keyView_restCourse (s : State) : s.restCourse.keyView = s.keyView := by
  unfold restCourse
  dsimp only
  split
  · rw [keyView_raise, keyView_updSeq]
  · rfl

@[simp] theorem keyView_fillOrRest (s : State) : s.fillOrRest.keyView = s.keyView := by
  unfold fillOrRest
  split
  · rfl
  · exact keyView_restCourse s

@[simp] theorem keyView_planChan (s : State) (c : ChanId) : (s.planChan c).keyView = s.keyView := by
  unfold planChan
  dsimp only
  split <;> rfl

/-! ### Drift steps of RETRAIN -/

@[simp] theorem keyView_retrainDone (s : State) (id : Nat) : (s.retrainDone id).keyView = s.keyView := by
  unfold retrainDone
  split
  · rfl
  · split
    · rfl
    · split
      · exact keyView_succeed ..
      · exact keyView_fail ..

@[simp] theorem keyView_rankResult (s : State) (id : Nat) (c : ChanId) (r : RankId) (ok : Bool) :
    (s.rankResult id c r ok).keyView = s.keyView := by
  unfold rankResult
  dsimp only
  rw [keyView_retrainDone, keyView_updCmd]
  split
  · rfl
  · rw [keyView_raiseChan, keyView_updRank]

@[simp] theorem keyView_logTrainFail (s : State) (c : ChanId) (r : RankId) (cause : TrainCause) (mask : BitVec 16) :
    (s.logTrainFail c r cause mask).keyView = s.keyView := rfl

@[simp] theorem keyView_holdAt (s : State) (c : ChanId) (m until_ : Nat) : (s.holdAt c m until_).keyView = s.keyView := rfl

theorem keyView_free (s : State) (n : Nat) : ({ s with free := n } : State).keyView = s.keyView := rfl

/-- A drift step of a rank, with its hold of the slot counter. -/
def drifted (s : State) (c : ChanId) (r : RankId) (kind : Nat) : State :=
  let hold := (Config.openDword (s.free + readingLen)).toNat % mckFor s.chans[c].mts 200000
  let s1 := { s with free := s.free + readingLen + 1 }.temperStep c r [0, 1] kind (freeReading s.free) {}
  if hold = 0 then s1
  else (s1.holdAt c 0 (s1.seq.begun + tauOf s.chans[c].mts hold)).logCourse 0x0202 c.val 0xFF r.val 0xFF 0 0xFFFF hold
    (s1.table c).tableId.toNat

theorem keyView_drifted (s : State) (c : ChanId) (r : RankId) (kind : Nat) : (s.drifted c r kind).keyView = s.keyView := by
  have stepped : ({ s with free := s.free + readingLen + 1 }.temperStep c r [0, 1] kind (freeReading s.free) {}).keyView =
      s.keyView := by
    rw [keyView_temperStep, keyView_free]
  exact keyView_ite stepped (by rw [keyView_logCourse, keyView_holdAt, stepped])

@[simp] theorem keyView_retrainStep (s : State) (x : Cmd) : (s.retrainStep x).keyView = s.keyView := by
  unfold retrainStep
  dsimp only
  split
  · exact keyView_retrainDone ..
  · next c r _ =>
    have noted (bad : Bool) (kind : Nat) :
        (if bad then (s.drifted c r kind).logTrainFail c r (driftCause kind) 0 else s.drifted c r kind).keyView = s.keyView :=
      keyView_ite (by rw [keyView_logTrainFail, keyView_drifted]) (keyView_drifted ..)
    refine keyView_ite rfl (keyView_ite ?_ ?_)
    · rw [keyView_updCmd]
      exact noted _ _
    · rw [keyView_rankResult, keyView_updCmd]
      exact noted _ _

@[simp] theorem keyView_retrainBoundary (s : State) : s.retrainBoundary.keyView = s.keyView := by
  unfold retrainBoundary
  split
  · exact keyView_retrainStep ..
  · rfl

/-! ### The state of self-refresh -/

theorem sr_of_keyView {s t : State} (h : t.keyView = s.keyView) : t.sr = s.sr := congrArg (·.2.2.2.2) h

theorem takeForce_sr (s : State) (course : Nat) : (s.takeForce course).sr = s.sr := by
  cases ha : s.ks.accepted with
  | none => rw [takeForce_none ha]
  | some new =>
    refine (sr_of_keyView (takeForce_keyView ha course)).trans ?_
    exact congrArg (·.2.2.2.2) (inForce_keyView s new)

/-- The lines that the links of the FILLING page take in a fill course. -/
def planned (s : State) : State :=
  match s.fillingPage with
  | some p =>
    if s.seq.fill then
      let t := s.partLinks.foldl (fun acc n => acc.planLink p (s.leffOf p) n) s
      t.partLinks.foldl (fun acc n => acc.shortfalls n) t
    else s
  | none => s

theorem keyView_planned (s : State) : s.planned.keyView = s.keyView := by
  unfold planned
  split
  · next p _ =>
    have taken : (s.partLinks.foldl (fun acc n => acc.planLink p (s.leffOf p) n) s).keyView = s.keyView :=
      foldl_keyView _ (fun _ _ => keyView_planLink ..) _ s
    refine keyView_ite ?_ rfl
    exact (foldl_keyView _ (fun _ _ => keyView_shortfalls ..) _ _).trans taken
  · rfl

/-- What a course does once its settings are in force. -/
def courseStarts (s : State) : State :=
  let s3 := s.settleHalted.closeFetch.testPage.startPage.fillOrRest.planned
  let s4 : State := s3.chansInUse.foldl (fun acc c => acc.planChan c) s3
  ((s4.updSeq fun q => { q with started := true }).retrainBoundary).settlePages.checkFloor

theorem startCourse_eq (s : State) : s.startCourse =
    ((s.chansInUse.foldl (fun acc c => acc.hotRefresh c) s).takeForce s.seq.number).courseStarts := by
  unfold startCourse courseStarts planned
  dsimp only <;> generalize fillOrRest _ = u <;> rfl

theorem keyView_courseStarts (s : State) : s.courseStarts.keyView = s.keyView := by
  have laid (t : State) : (t.chansInUse.foldl (fun acc c => acc.planChan c) t).keyView = t.keyView :=
    foldl_keyView _ (fun _ _ => keyView_planChan ..) _ t
  unfold courseStarts
  dsimp only
  rw [keyView_checkFloor, keyView_settlePages, keyView_retrainBoundary, keyView_updSeq, laid, keyView_planned,
    keyView_fillOrRest, keyView_startPage, keyView_testPage, keyView_closeFetch, keyView_settleHalted]

theorem startCourse_sr (s : State) : s.startCourse.sr = s.sr := by
  have hot : (s.chansInUse.foldl (fun acc c => acc.hotRefresh c) s).keyView = s.keyView :=
    foldl_keyView _ (fun _ _ => keyView_hotRefresh ..) _ s
  rw [startCourse_eq, sr_of_keyView (keyView_courseStarts _), takeForce_sr, sr_of_keyView hot]

theorem beginCourses_sr (s : State) : s.beginCourses.sr = s.sr := by
  have restarted : (s.chansInUse.foldl (fun acc c => acc.restartChan s.time c) s).keyView = s.keyView :=
    foldl_keyView _ (fun _ _ => keyView_updChan ..) _ s
  unfold beginCourses
  rw [startCourse_sr, updSeq_sr, sr_of_keyView restarted]

theorem regrid_sr (s : State) (ran : Bool) : (s.regrid ran).sr = s.sr := by
  unfold regrid
  split
  · split
    · rfl
    · exact beginCourses_sr s
  · split
    · rw [sr_of_keyView (keyView_settleHalted _), takeForce_sr]
    · rfl

/-! ### Exit from self-refresh -/

@[simp] theorem keyView_pdeRank (s : State) (c : ChanId) (r : RankId) : (s.pdeRank c r).keyView = s.keyView := by
  unfold pdeRank
  rw [keyView_updRank, keyView_issueBoth]

@[simp] theorem keyView_srxRank (s : State) (c : ChanId) (r : RankId) : (s.srxRank c r).keyView = s.keyView := by
  unfold srxRank resetCredits
  rw [keyView_updRank, keyView_updRank, keyView_issueBoth]

@[simp] theorem keyView_wakeRank (s : State) (c : ChanId) (r : RankId) : (s.wakeRank c r).keyView = s.keyView := by
  have woken (t : State) (x : TemperResult) (n : Nat) :
      (({ t with free := n } : State).temperStep c r [0, 1] 0 x {}).keyView = t.keyView := by
    rw [keyView_temperStep, keyView_free]
  unfold wakeRank
  dsimp only
  refine keyView_ite ?_ ?_
  · rw [keyView_pdeRank, woken, keyView_issueBoth, keyView_issueBoth, keyView_srxRank]
  · rw [woken, keyView_issueBoth, keyView_issueBoth, keyView_srxRank]

@[simp] theorem keyView_enterService (s : State) (ran : Bool) (c : ChanId) : (s.enterService ran c).keyView = s.keyView := by
  unfold enterService restartChan
  rw [keyView_updChan, keyView_updChan]

@[simp] theorem keyView_exitChan (s : State) (ran : Bool) (c : ChanId) : (s.exitChan ran c).keyView = s.keyView := by
  have woken : ((s.liveRanks c).foldl (fun acc r => acc.wakeRank c r) s).keyView = s.keyView :=
    foldl_keyView _ (fun _ _ => keyView_wakeRank ..) _ s
  unfold exitChan logSelfRefresh
  dsimp only
  rw [keyView_logErr]
  split
  · rw [keyView_updChan, woken]
  · rw [keyView_enterService, woken]

/-- Self-refresh exit counts one entry into self-refresh (R305). -/
theorem restExit_counts {s : State} {c : ChanId} (hu : s.inUse c = true) (hst : s.chans[c].st = .exiting) :
    s.restExit.sr.entries = min 0xFFFF (s.sr.entries + 1) := by
  have out : ¬(s.chansInUse.filter fun c => s.chans[c].st == .exiting) = [] := by
    have mem : c ∈ s.chansInUse.filter fun c => s.chans[c].st == .exiting :=
      List.mem_filter.mpr ⟨mem_chansInUse.mpr hu, by rw [hst]; rfl⟩
    exact List.ne_nil_of_mem mem
  have exited : ((s.chansInUse.filter fun c => s.chans[c].st == .exiting).foldl
      (fun acc c => acc.exitChan s.coursesRun c) s).sr = s.sr :=
    sr_of_keyView (foldl_keyView _ (fun _ _ => keyView_exitChan ..) _ s)
  have steered (t : State) : t.steer.sr = t.sr := rfl
  unfold restExit
  dsimp only
  rw [if_neg out, steered, regrid_sr, exited]
  rfl

end State

/-- SELF_REFRESH_EXIT completes. -/
theorem exitRow_completes (s : State) : (∃ k, s.inUse k = true ∧ s.chans[k].st = .exiting) → ∃ t,
    exec .selfRefreshExit s = .next t ∧ t.sr.entries = min 0xFFFF (s.sr.entries + 1) := by
  rintro ⟨k, hu, hst⟩
  have hx : exec .selfRefreshExit s = .next s.restExit := rfl
  exact ⟨_, hx, State.restExit_counts hu hst⟩

end Sys2Proof.Machine
end

section
/-! SUPPORT. The window arbiter's rows, in states in which their time has come (R311, R319, R320). -/

namespace Sys2Proof.Machine

namespace State

/-! ### Who holds a channel -/

theorem presentXfer_holder (s : State) (c d : ChanId) (r : Fin 12) (src : Src) (bs : List Burst) :
    (s.presentXfer c r src bs).chans[d].arb.holder = s.chans[d].arb.holder := by
  unfold presentXfer
  rw [updChan_at]
  split <;> rfl

/-- Presenting a transfer grants none. -/
theorem presentOne_holder (s : State) (c d : ChanId) (r : Fin 12) :
    (s.presentOne c r).chans[d].arb.holder = s.chans[d].arb.holder := by
  unfold presentOne
  split
  · rfl
  · split
    · exact presentXfer_holder ..
    · split
      · exact presentXfer_holder ..
      · split
        · exact presentXfer_holder ..
        · rfl

theorem chargeTokens_chans (s : State) (r : Fin 12) (x : Xfer) (back : Bool) : (s.chargeTokens r x back).chans = s.chans := by
  unfold chargeTokens
  split
  · rfl
  · dsimp only
    split <;> rfl

theorem updArb_holder (s : State) (c : ChanId) (f : Arb → Arb) :
    (s.updArb c f).chans[c].arb.holder = (f s.chans[c].arb).holder := by
  unfold updArb
  rw [updChan_at, if_pos rfl]

/-- A grant gives the channel to its requester. -/
theorem grant_holder (s : State) (c : ChanId) (r : Fin 12) (x : Xfer) (bs : List Burst) :
    ∃ g, (s.grant c r x bs).chans[c].arb.holder = some (r, g) := by
  refine ⟨{ x with bursts := bs, granted := some (x.granted.getD s.time), closes := s.closesAt c bs, done := 0 }, ?_⟩
  unfold grant
  rw [presentOne_holder, chargeTokens_chans, updArb_holder]

/-- A parked request that starts without a decision is granted (R319). -/
theorem decision_parked {s : State} {c : ChanId} (hst : s.chans[c].st = .service) (hh : s.chans[c].arb.holder = none)
    {k : Fin 12 × Xfer × List Burst} (hp : s.parkedStart c (s.eligible c) = some k) :
    s.decision c = s.grant c k.1 k.2.1 k.2.2 := by
  have free : ¬(s.chans[c].st ≠ .service ∨ s.chans[c].arb.holder.isSome = true) := by
    rw [hst, hh]
    decide
  unfold decision
  rw [if_neg free, hp]

/-! ### Pre-emption -/

theorem represent_holder (s : State) (c : ChanId) (r : Fin 12) (x : Xfer) :
    (s.represent c r x).chans[c].arb.holder = none := by
  unfold represent
  rw [chargeTokens_chans, updArb_holder]

/-- A transfer that loses its grant before its last burst has issued is withdrawn (R320). -/
theorem preempt_withdraws {s : State} {c : ChanId} {r : Fin 12} {x : Xfer} {issued : Nat}
    (hh : s.chans[c].arb.holder = some (r, x)) (hhalf : x.half = false) (hrmw : x.isRmw = false)
    (hissued : issued < x.bursts.length) (hserves : s.chanServes c = true) (hstorm : s.storming c = false)
    (hloses : s.loses c r x = true) : (s.preempt c issued).chans[c].arb.holder = none := by
  have lost : ¬(x.half || decide (x.bursts.length ≤ issued) && !x.isRmw || !s.chanServes c || s.storming c ||
      !s.loses c r x) = true := by
    rw [hhalf, hserves, hstorm, hloses, decide_eq_false (Nat.not_le.mpr hissued), Bool.false_and]
    decide
  have whole : ¬(x.isRmw && decide (0 < issued)) = true := by
    rw [hrmw, Bool.false_and]
    decide
  unfold preempt
  rw [hh]
  dsimp only
  rw [if_neg lost, if_neg whole]
  split
  · assumption
  · exact represent_holder ..

/-! ### The end of a transfer -/

/-- The last burst of a transfer issues when neither the guard nor a replay holds it. -/
theorem issueBursts_last {s : State} {c : ChanId} {src : Src} {b : Burst}
    (hact : s.actHeldOn (s.xferRank c src b) b.addr = false)
    (hrep : s.chans[c].subs[(s.raster.loc b.addr).sub].replay = []) (n : Nat) :
    issueBursts c src [b] n s = (s.doXfer c src b, n + 1) := by
  unfold issueBursts
  dsimp only
  rw [hact, hrep, if_neg (by decide)]
  rfl

theorem stagingBad_none (s : State) (x : Xfer) : s.stagingBad x none = none := by
  unfold stagingBad
  cases x.src <;> rfl

/-- A transfer of which one burst is left ends with it, and its requester goes on (R311). -/
theorem transferDone_last {s : State} {c : ChanId} {r : Fin 12} {x : Xfer} {b : Burst}
    (hh : s.chans[c].arb.holder = some (r, x)) (hserves : s.chanServes c = true) (hstorm : s.storming c = false)
    (hshut : s.windowShut c x = false) (hlast : x.bursts.drop x.done = [b])
    (hact : s.actHeldOn (s.xferRank c x.src b) b.addr = false)
    (hrep : s.chans[c].subs[(s.raster.loc b.addr).sub].replay = [])
    (hkept : (s.doXfer c x.src b).chans[c].arb.holder ≠ none) :
    s.transferDone c none = (((s.doXfer c x.src b).settleHalf c x).updChan c fun ch =>
      { ch with arb := { ch.arb with holder := none, freed := s.time } }).afterXfer c x.src := by
  have goes : ¬(!s.chanServes c || s.storming c || s.windowShut c x) = true := by
    rw [hserves, hstorm, hshut]
    decide
  have count : ¬x.done + 1 < x.bursts.length := by
    have len := congrArg List.length hlast
    rw [List.length_drop, List.length_singleton] at len
    omega
  have issued : s.issueGranted c x none = (s.doXfer c x.src b, x.done + 1) := by
    rw [issueGranted, hlast, issueBursts_last hact hrep]
  unfold transferDone
  rw [hh]
  dsimp only
  rw [if_neg goes, stagingBad_none, issued]
  dsimp only
  rw [if_neg hkept, if_neg count]

end State

/-- ARBITER_DECISION, PREEMPTION and TRANSFER_COMPLETE complete. -/
theorem arbiterRows_complete (s : State) (c : ChanId) :
    (s.chans[c].st = .service → s.chans[c].arb.holder = none → (∃ k, s.parkedStart c (s.eligible c) = some k) → ∃ t r x,
      exec (.arbiterDecision c) s = .next t ∧ t.chans[c].arb.holder = some (r, x)) ∧
    (∀ r x issued, s.chans[c].arb.holder = some (r, x) → x.half = false → x.isRmw = false → issued < x.bursts.length →
      s.chanServes c = true → s.storming c = false → s.loses c r x = true → ∃ t, exec (.preemption c issued) s = .next t ∧
        t.chans[c].arb.holder = none) ∧
    (∀ r x b, s.chans[c].arb.holder = some (r, x) → s.chanServes c = true → s.storming c = false → s.windowShut c x = false →
      x.bursts.drop x.done = [b] → s.actHeldOn (s.xferRank c x.src b) b.addr = false →
      s.chans[c].subs[(s.raster.loc b.addr).sub].replay = [] → (s.doXfer c x.src b).chans[c].arb.holder ≠ none →
        exec (.transferComplete c none) s = .next (((((s.doXfer c x.src b).settleHalf c x).updChan c fun ch =>
          { ch with arb := { ch.arb with holder := none, freed := s.time } }).afterXfer c x.src).settlePool)) := by
  refine ⟨fun hst hh ⟨k, hp⟩ => ?_, fun r x issued hh hhalf hrmw hissued hserves hstorm hloses => ?_,
    fun r x b hh hserves hstorm hshut hlast hact hrep hkept => ?_⟩
  · have hx : exec (.arbiterDecision c) s = .next (s.decision c) := rfl
    obtain ⟨g, held⟩ := s.grant_holder c k.1 k.2.1 k.2.2
    exact ⟨_, k.1, g, hx, (congrArg (fun t : State => t.chans[c].arb.holder) (State.decision_parked hst hh hp)).trans held⟩
  · have hx : exec (.preemption c issued) s = .next (s.preempt c issued) := rfl
    exact ⟨_, hx, State.preempt_withdraws hh hhalf hrmw hissued hserves hstorm hloses⟩
  · have hx : exec (.transferComplete c none) s = .next ((s.transferDone c none).settlePool) := rfl
    rw [hx, State.transferDone_last hh hserves hstorm hshut hlast hact hrep hkept]

end Sys2Proof.Machine
end

section
/-! SUPPORT. Self-refresh that has been entered, storm retraining, scrub passes and migrations, in states in which their time has
come (R300, R304, R342, R351, R355). -/

namespace Sys2Proof.Machine

namespace State

/-! ### The ranks of a channel -/

theorem storeBurst_ranks (s : State) (a : Nat) (ws : List (BitVec 80)) (d : ChanId) :
    (s.storeBurst a ws).chans[d].ranks = s.chans[d].ranks := by
  obtain ⟨f, hf, e⟩ := s.storeBurst_chans a ws
  rw [e, getElem_vmod]
  split
  · obtain ⟨m, v, hx⟩ := hf s.chans[d]
    rw [hx]
  · rfl

theorem levelWrites_ranks (s : State) (c : Cmd) (d : ChanId) : (s.levelWrites c).chans[d].ranks = s.chans[d].ranks := by
  unfold levelWrites
  split
  · dsimp only
    split
    · rfl
    · exact foldl_same (fun t : State => t.chans[d].ranks) _ (fun _ _ => storeBurst_ranks ..) _ s
  · rfl

theorem withdraw_ranks (s : State) (id : Nat) (d : ChanId) : (s.withdraw id).chans[d].ranks = s.chans[d].ranks := by
  simp [withdraw]

/-- Aborting a command leaves the ranks of every channel. -/
theorem abort_ranks (s : State) (id : Nat) (a : Answer) (d : ChanId) : (s.abort id a).chans[d].ranks = s.chans[d].ranks := by
  have kept : (s.abort id a).chans = (s.release id).chans := (finish_sessionOnly (s.release id) id a).chans
  rw [kept]
  cases hc : s.findCmd id with
  | none => rw [release, hc]
  | some c =>
    have freed (u : State) : (u.freed id).chans = u.chans := rfl
    have orphans (u : State) : (u.orphanFills c).chans = u.chans := rfl
    rw [release_found hc, freed, withdraw_ranks, orphans, levelWrites_ranks]

theorem setLoop_chans (s : State) (l : LoopId) (st : LoopState) (cause : Nat) : (s.setLoop l st cause).chans = s.chans := by
  unfold setLoop
  dsimp only
  split
  · rfl
  · exact (raised_raise _ _).sessionOnly.chans

theorem enterRelock_chans (s : State) : s.enterRelock.chans = s.chans := by
  unfold enterRelock
  split
  · rfl
  · rw [setLoop_chans, updClk_chans]

theorem stopCommands_ranks (s : State) (d : ChanId) : s.stopCommands.chans[d].ranks = s.chans[d].ranks :=
  foldl_same (fun t : State => t.chans[d].ranks) _ (fun _ _ => abort_ranks ..) _ s

/-- A request that waited for DRAM ends the rest for idleness. -/
def wokenUp (s : State) : State :=
  if s.sr.wanted then { s with sr := { s.sr with idle := false, wanted := false, idleFrom := s.time } } else s

/-- A device that has stopped for good ends what needs DRAM. -/
def endedStop (s : State) : State := if s.stopRan then s.stopCommands else s

/-- A change of a loop goes on with step 2. -/
def changeGoes (s : State) : State :=
  match s.clk.change with
  | some ch => if !ch.locked && s.clk.loops[ch.loop].st != .relock && !s.stopRan then s.enterRelock else s
  | none => s

theorem allRest_eq (s : State) : s.allRest = s.wokenUp.endedStop.changeGoes := rfl

theorem wokenUp_chans (s : State) : s.wokenUp.chans = s.chans := by
  unfold wokenUp
  split <;> rfl

theorem endedStop_ranks (s : State) (d : ChanId) : s.endedStop.chans[d].ranks = s.chans[d].ranks := by
  unfold endedStop
  split
  · exact stopCommands_ranks s d
  · rfl

theorem changeGoes_chans (s : State) : s.changeGoes.chans = s.chans := by
  unfold changeGoes
  split
  · split
    · exact enterRelock_chans s
    · rfl
  · rfl

/-- What follows once every channel rests leaves the ranks. -/
theorem allRest_ranks (s : State) (d : ChanId) : s.allRest.chans[d].ranks = s.chans[d].ranks := by
  rw [allRest_eq, changeGoes_chans, endedStop_ranks, wokenUp_chans]

theorem steer_ranks (s : State) (d : ChanId) : s.steer.chans[d].ranks = s.chans[d].ranks := by
  have at_ : s.steer.chans[d] = if s.inUse d then s.steerChan s.chans[d] d else s.chans[d] := Vector.getElem_ofFn ..
  rw [at_]
  split
  · unfold steerChan
    split
    · split <;> rfl
    · split <;> rfl
    · rfl
  · rfl

/-- A channel whose ranks have entered self-refresh has them all there (R304). -/
theorem restEntered_ranks {s : State} {c : ChanId} (h : s.chans[c].st = .sreIssued) (r : RankId) :
    (s.restEntered c).chans[c].ranks[r].selfRefresh = true := by
  have rested (u : State) : (if u.allResting then u.allRest else u).chans[c].ranks = u.chans[c].ranks := by
    split
    · exact allRest_ranks u c
    · rfl
  have slept (ch : Chan) :
      (ch.ranks.map fun (k : Rank) => { k with selfRefresh := true, powerDown := false })[r].selfRefresh = true :=
    congrArg Rank.selfRefresh (Vector.getElem_map ..)
  have logged (u : State) : (u.logSelfRefresh c 1).chans = u.chans := rfl
  unfold restEntered
  dsimp only
  rw [if_neg (not_not.mpr h), steer_ranks, rested, logged, updChan_at, if_pos rfl]
  exact slept _

/-! ### Storm retraining -/

theorem raiseChan_chans (s : State) (c : ChanId) : (s.raiseChan c).chans = s.chans := (raised_raise _ _).sessionOnly.chans

theorem updSub_at (s : State) (c : ChanId) (u : SubId) (f : SubRec → SubRec) :
    (s.updSub c u f).chans[c].subs[u] = f s.chans[c].subs[u] := by
  unfold updSub
  rw [updChan_at, if_pos rfl]
  exact vmod_same ..

theorem logDram_chans (s : State) (type : Nat) (c : ChanId) (sub rank b15 temp value : Nat) :
    (s.logDram type c sub rank b15 temp value).chans = s.chans := rfl

theorem holdAt_subs (s : State) (c d : ChanId) (m until_ : Nat) : (s.holdAt c m until_).chans[d].subs = s.chans[d].subs := by
  unfold holdAt
  rw [updChan_at]
  split <;> rfl

theorem stormDone_ends {s : State} {c : ChanId} {u : SubId} {b : Nat} (hs : s.chans[c].subs[u].storm = true)
    (hb : s.chans[c].subs[u].stormAt = some b) : (s.stormDone c u).chans[c].subs[u].storm = false := by
  unfold stormDone
  rw [hs, hb]
  dsimp only
  rw [raiseChan_chans, logDram_chans, logCourse_chans, holdAt_subs, updSub_at]

/-! ### Scrub passes -/

theorem updScrub_at (s : State) (c : ChanId) (f : Scrub → Scrub) :
    (s.updScrub c f).chans[c].scrub = f s.chans[c].scrub := by
  unfold updScrub
  rw [updChan_at, if_pos rfl]

theorem passStart_begins {s : State} {c : ChanId} (hs : s.scrubs c = true)
    (ht : s.chans[c].scrub.startedAt + s.chans[c].scrub.period * 160000000000 ≤ s.time)
    (ha : s.chans[c].scrub.active = false) : (s.passStart c).chans[c].scrub.active = true := by
  have due : ¬(!s.scrubs c || decide (s.time < s.chans[c].scrub.startedAt + s.chans[c].scrub.period * Config.secTau)) =
      true := by
    have late : ¬s.time < s.chans[c].scrub.startedAt + s.chans[c].scrub.period * Config.secTau := Nat.not_lt.mpr ht
    rw [hs, decide_eq_false late]
    decide
  unfold passStart
  dsimp only
  rw [if_neg due, if_neg (by rw [ha]; decide)]
  unfold beginPass
  dsimp only
  rw [updScrub_at]

theorem passDone_ends {s : State} {c : ChanId} (hs : s.scrubs c = true) (ha : s.chans[c].scrub.active = true)
    (hn : s.raster.nextWritten s.chans[c].scrub.next = none) (hi : s.scrubIdle c = true) :
    (s.passDone c).chans[c].scrub.active = false := by
  have ended : (s.scrubs c && s.chans[c].scrub.active && (s.raster.nextWritten s.chans[c].scrub.next).isNone &&
      s.scrubIdle c) = true := by
    rw [hs, ha, hn, hi]
    rfl
  unfold passDone
  dsimp only
  rw [if_pos ended, (raised_raise _ _).sessionOnly.chans, updScrub_at]

/-- The write-back of a burst that the scrubber has read goes first (R344). -/
theorem scrubTransfer_back {s : State} {c : ChanId} {a : Nat} {rest : List Nat}
    (hr : s.chans[c].arb.reqs[(9 : Fin 12)] = []) (hst : s.chans[c].st = .service)
    (hb : s.chans[c].scrub.back = a :: rest) (hw : s.raster.isWritten (s.raster.ashlar a) = true) :
    s.scrubTransfer c = (s.updScrub c fun y => { y with back := rest }).presentXfer c 9 .scrub [⟨a, .rmw⟩] := by
  have free : ¬(s.chans[c].arb.reqs[(9 : Fin 12)] ≠ [] ∨ s.chans[c].st ≠ .service) := by
    rw [hr, hst]
    decide
  unfold scrubTransfer
  dsimp only
  rw [if_neg free, hb]
  exact if_pos hw

/-! ### Migrations -/

theorem presentXfer_mig (s : State) (c d : ChanId) (r : Fin 12) (src : Src) (bs : List Burst) :
    (s.presentXfer c r src bs).chans[d].mig = s.chans[d].mig := by
  unfold presentXfer
  rw [updChan_at]
  split <;> rfl

theorem updMig_at (s : State) (c : ChanId) (f : Mig → Mig) : (s.updMig c f).chans[c].mig = f s.chans[c].mig := by
  unfold updMig
  rw [updChan_at, if_pos rfl]

/-- A migration with nothing in transit takes its next bursts in transit (R352). -/
theorem migrate_takes {s : State} {c : ChanId} {n : Nat} (hm : s.chans[c].mig.st = .copying) (hst : s.chans[c].st = .service)
    (ht : s.chans[c].mig.transit = []) (ha : s.ks.force.arbEnable.getLsbD 10 = true)
    (hp : s.chans[c].mig.paced < s.ks.force.pace.toNat % 256)
    (hl : least (s.raster.rankHolds s.chans[c].mig.logical s.chans[c].mig.ashlar) = some n)
    (hf : s.raster.isFilling n = false)
    (hg : s.merging c (s.raster.burstsAt c n (if n = s.chans[c].mig.ashlar then s.chans[c].mig.burst else 0)) = false) :
    (s.migrate c).chans[c].mig.transit =
      s.raster.burstsAt c n (if n = s.chans[c].mig.ashlar then s.chans[c].mig.burst else 0) := by
  have pace : bits s.ks.force.pace.toNat 0 8 = s.ks.force.pace.toNat % 256 := by
    simp [bits]
  have goes : ¬(s.chans[c].mig.st ≠ .copying ∨ s.chans[c].st ≠ .service ∨ s.ks.force.arbEnable.getLsbD 10 = false ∨
      bits s.ks.force.pace.toNat 0 8 ≤ s.chans[c].mig.paced ∨ s.chans[c].mig.transit ≠ []) := by
    rw [pace, ha]
    simpa only [ne_eq, not_or, not_not, Bool.true_eq_false, not_false_eq_true, true_and, not_le] using ⟨hm, hst, hp, ht⟩
  unfold migrate
  dsimp only
  rw [if_neg goes, hl]
  dsimp only
  rw [hf, hg, Bool.or_false, if_neg (by decide), presentXfer_mig, updMig_at]

theorem clearHealth_raster (s : State) (c : ChanId) (r : RankId) : (s.clearHealth c r).raster = s.raster := rfl

theorem sreRank_raster (s : State) (c : ChanId) (r : RankId) : (s.sreRank c r).raster = s.raster := by
  have slept : (s.sreRank c r).keyView = s.keyView := by
    unfold sreRank
    exact keyView_ite (by rw [keyView_issueBoth, keyView_issueBoth, keyView_useRank]) rfl
  exact congrArg (·.2.2.2.1) slept

/-- A migration that has passed the last written ashlar gives the logical rank to its target (R355). -/
theorem cutover_gives {s : State} {c : ChanId} (hm : s.chans[c].mig.st = .copying) (hst : s.chans[c].st = .service)
    (ht : s.chans[c].mig.transit = [])
    (hl : s.raster.rankHolds s.chans[c].mig.logical s.chans[c].mig.ashlar = []) :
    (s.cutover c).raster.phys[c][s.chans[c].mig.logical] = some s.chans[c].mig.target := by
  have goes : ¬(s.chans[c].mig.st ≠ .copying ∨ s.chans[c].st ≠ .service ∨ s.chans[c].mig.transit ≠ [] ∨
      s.raster.rankHolds s.chans[c].mig.logical s.chans[c].mig.ashlar ≠ []) := by
    simpa only [ne_eq, not_or, not_not] using ⟨hm, hst, ht, hl⟩
  have logged (t : State) (a b d e f g : Nat) : (t.logInteg a b d e f g).raster = t.raster := rfl
  have given : (vmod s.raster.phys c fun v => vset v s.chans[c].mig.logical (some s.chans[c].mig.target))[c] =
      vset s.raster.phys[c] s.chans[c].mig.logical (some s.chans[c].mig.target) := vmod_same ..
  have ranked (t : State) (r : RankId) (f : Rank → Rank) : (t.updRank c r f).raster = t.raster := rfl
  unfold cutover
  dsimp only
  rw [if_neg goes, raise_raster, logged, clearHealth_raster, updChan_raster, ranked, sreRank_raster, ranked,
    updRaster_raster]
  dsimp only
  rw [given]
  exact vset_same ..

end State

/-- SELF_REFRESH_ENTERED and STORM_RETRAIN_DONE complete. -/
theorem sleepRows_complete (s : State) (c : ChanId) :
    (s.chans[c].st = .sreIssued → ∃ t, exec (.selfRefreshEntered c) s = .next t ∧
      ∀ r : RankId, t.chans[c].ranks[r].selfRefresh = true) ∧
    (∀ u b, s.chans[c].subs[u].storm = true → s.chans[c].subs[u].stormAt = some b → ∃ t,
      exec (.stormRetrainDone c u) s = .next t ∧ t.chans[c].subs[u].storm = false) := by
  refine ⟨fun hst => ?_, fun u b hs hb => ?_⟩
  · have hx : exec (.selfRefreshEntered c) s = .next (s.restEntered c) := rfl
    exact ⟨_, hx, State.restEntered_ranks hst⟩
  · have hx : exec (.stormRetrainDone c u) s = .next (s.stormDone c u) := rfl
    exact ⟨_, hx, State.stormDone_ends hs hb⟩

/-- SCRUB_PASS_START, SCRUB_TRANSFER and SCRUB_PASS_COMPLETE complete. -/
theorem scrubRows_complete (s : State) (c : ChanId) :
    (s.scrubs c = true → s.chans[c].scrub.startedAt + s.chans[c].scrub.period * 160000000000 ≤ s.time →
      s.chans[c].scrub.active = false → ∃ t, exec (.scrubPassStart c) s = .next t ∧ t.chans[c].scrub.active = true) ∧
    (s.chans[c].arb.reqs[(9 : Fin 12)] = [] → s.chans[c].st = .service → ∀ a rest, s.chans[c].scrub.back = a :: rest →
      s.raster.isWritten (s.raster.ashlar a) = true → exec (.scrubTransfer c) s =
        .next ((s.updScrub c fun y => { y with back := rest }).presentXfer c 9 .scrub [⟨a, .rmw⟩])) ∧
    (s.scrubs c = true → s.chans[c].scrub.active = true → s.raster.nextWritten s.chans[c].scrub.next = none →
      s.scrubIdle c = true → ∃ t, exec (.scrubPassComplete c) s = .next t ∧ t.chans[c].scrub.active = false) := by
  refine ⟨fun hs ht ha => ?_, fun hr hst a rest hb hw => ?_, fun hs ha hn hi => ?_⟩
  · have hx : exec (.scrubPassStart c) s = .next (s.passStart c) := rfl
    exact ⟨_, hx, State.passStart_begins hs ht ha⟩
  · have hx : exec (.scrubTransfer c) s = .next (s.scrubTransfer c) := rfl
    rw [hx, State.scrubTransfer_back hr hst hb hw]
  · have hx : exec (.scrubPassComplete c) s = .next (s.passDone c) := rfl
    exact ⟨_, hx, State.passDone_ends hs ha hn hi⟩

/-- MIGRATION_TRANSFER and MIGRATION_CUTOVER complete. -/
theorem migrationRows_complete (s : State) (c : ChanId) :
    (∀ n, s.chans[c].mig.st = .copying → s.chans[c].st = .service → s.chans[c].mig.transit = [] →
      s.ks.force.arbEnable.getLsbD 10 = true → s.chans[c].mig.paced < s.ks.force.pace.toNat % 256 →
      least (s.raster.rankHolds s.chans[c].mig.logical s.chans[c].mig.ashlar) = some n → s.raster.isFilling n = false →
      let bs := s.raster.burstsAt c n (if n = s.chans[c].mig.ashlar then s.chans[c].mig.burst else 0)
      s.merging c bs = false → ∃ t, exec (.migrationTransfer c) s = .next t ∧ t.chans[c].mig.transit = bs) ∧
    (s.chans[c].mig.st = .copying → s.chans[c].st = .service → s.chans[c].mig.transit = [] →
      s.raster.rankHolds s.chans[c].mig.logical s.chans[c].mig.ashlar = [] → s.chans[c].mig.source ≠ s.chans[c].mig.target → ∃ t,
        exec (.migrationCutover c) s = .next t ∧ t.raster.phys[c][s.chans[c].mig.logical] = some s.chans[c].mig.target) := by
  refine ⟨fun n hm hst ht ha hp hl hf => ?_, fun hm hst ht hl _ => ?_⟩
  · intro bs hg
    have hx : exec (.migrationTransfer c) s = .next (s.migrate c) := rfl
    exact ⟨_, hx, State.migrate_takes hm hst ht ha hp hl hf hg⟩
  · have hx : exec (.migrationCutover c) s = .next (s.cutover c) := rfl
    exact ⟨_, hx, State.cutover_gives hm hst ht hl⟩

end Sys2Proof.Machine
end

section
/-! SUPPORT. Refresh credits, forced commands, power-down, rows, counting intervals and write-CRC alerts, in states in which
their time has come (R158, R160, R291, R297, R299, R302, R346). -/

namespace Sys2Proof.Machine

namespace State

/-! ### Ranks and their bank indexes -/

theorem updRank_at (s : State) (c : ChanId) (r : RankId) (f : Rank → Rank) :
    (s.updRank c r f).chans[c].ranks[r] = f s.chans[c].ranks[r] := by
  unfold updRank
  rw [updChan_at, if_pos rfl]
  exact vmod_same ..

theorem updBank_at (s : State) (c : ChanId) (r : RankId) (u : SubId) (b : Fin 4) (f : BankIdx → BankIdx) :
    (s.updBank c r u b f).bankIdx c r u b = f (s.bankIdx c r u b) := by
  unfold bankIdx updBank
  rw [updRank_at]
  exact vmod_same ..

theorem force_ranks (s : State) (c : ChanId) (f : State → State) : (s.force c f).chans[c].ranks = (f s).chans[c].ranks := by
  unfold force
  dsimp only
  split
  · rw [updChan_at, if_pos rfl]
  · rfl

theorem force_bankIdx (s : State) (c : ChanId) (f : State → State) (r : RankId) (u : SubId) (b : Fin 4) :
    (s.force c f).bankIdx c r u b = (f s).bankIdx c r u b := by
  unfold bankIdx
  rw [force_ranks]

/-- A refresh timer takes one credit off, down to -4 (R158). -/
theorem creditTimer_takes {s : State} {c : ChanId} {r : RankId} {u : SubId} {b : Fin 4} (ht : s.rankTrained c r = true)
    (ha : s.rankAsleep c r = false) (hd : (s.bankIdx c r u b).timer ≤ s.time) :
    ((s.creditTimer c r u b).bankIdx c r u b).credit = max (-4) ((s.bankIdx c r u b).credit - 1) := by
  have due : (s.rankTrained c r && !s.rankAsleep c r && decide ((s.bankIdx c r u b).timer ≤ s.time)) = true := by
    rw [ht, ha, decide_eq_true hd]
    rfl
  unfold creditTimer
  rw [if_pos due, force_bankIdx, updBank_at]

/-! ### Commands that go out -/

/-- The outputs of one state come after those of another. -/
def Grows (s t : State) : Prop := ∃ xs, t.out = xs ++ s.out

theorem Grows.of_out {s t : State} (h : t.out = s.out) : Grows s t := ⟨[], h⟩

theorem Grows.refl (s : State) : Grows s s := .of_out rfl

theorem Grows.trans {s t u : State} (a : Grows s t) (b : Grows t u) : Grows s u := by
  obtain ⟨xs, hx⟩ := a
  obtain ⟨ys, hy⟩ := b
  exact ⟨ys ++ xs, by rw [hy, hx, List.append_assoc]⟩

theorem Grows.ite {P : Prop} [Decidable P] {s a b : State} (ha : Grows s a) (hb : Grows s b) :
    Grows s (if P then a else b) := by
  split
  · exact ha
  · exact hb

/-- What is sent in between is sent. -/
theorem Sent.between {s t u v : State} {o : Out} (a : Grows s t) (h : t.Sent u o) (b : Grows u v) : s.Sent v o := by
  obtain ⟨xs, hx⟩ := a
  obtain ⟨ys, hy, ho⟩ := h
  obtain ⟨zs, hz⟩ := b
  exact ⟨zs ++ (ys ++ xs), by rw [hz, hy, hx]; simp, by simp [ho]⟩

theorem issue_grows (s : State) (c : ChanId) (code : Nat) (r : RankId) (u : SubId) (g b : Nat) (w : By) :
    Grows s (s.issue c code r u g b w) := ⟨[.dramCmd c code r u b], rfl⟩

theorem issue_sent (s : State) (c : ChanId) (code : Nat) (r : RankId) (u : SubId) (g b : Nat) (w : By) :
    s.Sent (s.issue c code r u g b w) (.dramCmd c code r u b) := ⟨[.dramCmd c code r u b], rfl, List.mem_singleton_self _⟩

theorem issueBoth_grows (s : State) (c : ChanId) (code : Nat) (r : RankId) (w : By) : Grows s (s.issueBoth c code r w) :=
  (issue_grows ..).trans (issue_grows ..)

theorem updChan_grows (s : State) (c : ChanId) (f : Chan → Chan) : Grows s (s.updChan c f) := .of_out rfl

theorem useRank_grows (s : State) (c : ChanId) (r : RankId) (w : By) : Grows s (s.useRank c r w) := by
  refine Grows.trans ?_ (updChan_grows ..)
  split
  · exact issueBoth_grows ..
  · exact .refl s

theorem closeRows_grows (s : State) (c : ChanId) (test : Row → Bool) (w : By) : Grows s (s.closeRows c test w) := by
  have closed (l : List Row) (t : State) :
      Grows t (l.foldl (fun (acc : State) x => acc.issue c 4 x.rank x.sub x.group.val x.bank.val w) t) := by
    induction l generalizing t with
    | nil => exact .refl t
    | cons x l ih => exact (issue_grows ..).trans (ih _)
  exact (closed _ s).trans (updChan_grows ..)

/-- What a rank is sent for its service goes out (R302, R303). -/
theorem serviced_sent {s : State} {c : ChanId} {r : RankId} {w : By} {act : State → State} {o : Out}
    (ha : ∀ t : State, t.Sent (act t) o) : s.Sent (s.serviced c r w act) o := by
  unfold serviced
  dsimp only
  split
  · exact Sent.between (useRank_grows ..) (ha _) ((issueBoth_grows ..).trans (updChan_grows ..))
  · exact Sent.between (useRank_grows ..) (ha _) (.refl _)

theorem refreshCmd_sent (s : State) (c : ChanId) (code : Nat) (r : RankId) (u : SubId) (b : Fin 4) (w : By) :
    s.Sent (s.refreshCmd c code r u b w) (.dramCmd c code r u b.val) := by
  refine Sent.between (.refl s) (serviced_sent fun t => ?_) (updChan_grows ..)
  exact Sent.between (closeRows_grows ..) (issue_sent ..) (updChan_grows ..)

theorem settleForced_grows (s : State) (c : ChanId) : Grows s (s.settleForced c) := by
  unfold settleForced
  split
  · exact .refl s
  · exact updChan_grows ..

theorem refresh_sent (s : State) (c : ChanId) (r : RankId) (u : SubId) (b : Fin 4) (w : By) :
    s.Sent (s.refresh c r u b w) (.dramCmd c 6 r u b.val) :=
  Sent.between (.refl s) (refreshCmd_sent ..) ((updChan_grows ..).trans (settleForced_grows ..))

theorem mitigate_sent (s : State) (c : ChanId) (r : RankId) (u : SubId) (b : Fin 4) (w : By) :
    s.Sent (s.mitigate c r u b w) (.dramCmd c 7 r u b.val) :=
  Sent.between (.refl s) (refreshCmd_sent ..) ((updChan_grows ..).trans (settleForced_grows ..))

theorem forcedHold_grows (s : State) (c : ChanId) (r : RankId) (u : SubId) (b : Fin 4) (value : Nat) :
    Grows s (s.forcedHold c r u b value) := by
  unfold forcedHold
  dsimp only
  exact .ite (.of_out rfl) (.of_out rfl)

/-- A forced command goes out where the counter is held and nothing holds its bank index (R160). -/
theorem forced_sent {s : State} {c : ChanId} {r : RankId} {u : SubId} {b : Fin 4} {value : Nat} {go : State → State}
    {o : Out} (hserves : s.chanServes c = true) (hheld : s.counterHeld c = true) (hfree : s.indexHeld c r u b = false)
    (hgo : ∀ t : State, t.Sent (go t) o) : s.Sent (s.forced c r u b value go) o := by
  have may : (s.chanServes c && s.counterHeld c && !s.indexHeld c r u b) = true := by
    rw [hserves, hheld, hfree]
    rfl
  unfold forced
  rw [if_pos may]
  exact Sent.between (forcedHold_grows ..) (hgo _) (.refl _)

theorem forcedRefresh_sent {s : State} {c : ChanId} {r : RankId} {u : SubId} {b : Fin 4} (ht : s.rankTrained c r = true)
    (ha : s.rankAsleep c r = false) (hserves : s.chanServes c = true) (hheld : s.counterHeld c = true)
    (hfree : s.indexHeld c r u b = false) (hcredit : (s.bankIdx c r u b).credit ≤ -4) :
    s.Sent (s.forcedRefresh c r u b) (.dramCmd c 6 r u b.val) := by
  have due : s.forcedDue c r u b = true := by
    rw [forcedDue, ht, ha, decide_eq_true hcredit]
    rfl
  unfold forcedRefresh
  rw [if_pos due]
  exact forced_sent hserves hheld hfree fun t => refresh_sent t c r u b By.guard

theorem forcedRfm_sent {s : State} {c : ChanId} {r : RankId} {u : SubId} {b : Fin 4}
    (hserves : s.chanServes c = true) (hheld : s.counterHeld c = true) (hfree : s.indexHeld c r u b = false)
    (hdue : s.chans[c].rfmDue.contains (r, u, b) = true) :
    s.Sent (s.forcedRfm c r u b) (.dramCmd c 7 r u b.val) := by
  unfold forcedRfm
  rw [if_pos hdue]
  exact forced_sent hserves hheld hfree fun t => mitigate_sent t c r u b By.guard

/-! ### Power-down, rows and intervals -/

theorem powerDown_enters {s : State} {c : ChanId} {r : RankId} (ht : s.rankTrained c r = true)
    (ha : s.rankAsleep c r = false) (hp : s.power.pdIdle = true) (hserves : s.chanServes c = true)
    (hk : s.chans[c].ranks[r].powerDown = false) (hidle : s.chans[c].ranks[r].lastUse + 64 ≤ s.slotsRun c)
    (hsoon : s.entrySoon c r = false) : (s.powerDown c r).chans[c].ranks[r].powerDown = true := by
  have may : ((s.power.pdIdle || s.chans[c].ranks[r].st == .spare) && s.chanServes c && s.rankTrained c r &&
      !s.rankAsleep c r && !s.chans[c].ranks[r].powerDown && decide (s.chans[c].ranks[r].lastUse + 64 ≤ s.slotsRun c) &&
      !s.entrySoon c r) = true := by
    rw [hp, hserves, ht, ha, hk, decide_eq_true hidle, hsoon]
    rfl
  unfold powerDown
  dsimp only
  rw [if_pos may, updRank_at]

/-- A row whose timer has run is open no more (R291). -/
theorem rowClose_closes (s : State) (c : ChanId) (u : SubId) (r : RankId) (g : Fin 8) (b : Fin 4) :
    ∀ x ∈ (s.rowClose c u r g b).chans[c].rows,
      ¬(x.rank = r ∧ x.sub = u ∧ x.group = g ∧ x.bank = b ∧ s.rowDue c x = true) := by
  intro x hx
  unfold rowClose closeRows at hx
  dsimp only at hx
  rw [updChan_at, if_pos rfl] at hx
  simpa [-not_and, not_and_or, or_assoc] using (List.mem_filter.mp hx).2

theorem intervalEnd_hour {s : State} {c : ChanId} {r : RankId}
    (h : s.chans[c].ranks[r].hourFrom + 3600 * 160000000000 ≤ s.time) :
    (s.intervalEnd c r .hour).chans[c].ranks[r].ceHour = 0 := by
  have ended : s.intervalOver c r .hour = true := decide_eq_true h
  unfold intervalEnd
  rw [ended, if_neg (by decide)]
  dsimp only
  rw [updRank_at]

theorem rankDone_retrain {s : State} {c : ChanId} {r : RankId} {id : Nat} {rest : List RankId} (x : Baseline)
    (h : s.chans[c].service = some (.retrain id, r :: rest)) : s.rankDone c r (.pass x) =
      ((s.rankPassed c r x (.retrain id)).nextRank c (.retrain id) rest).rankResult id c r true := by
  unfold rankDone
  rw [h]
  dsimp only
  rw [if_neg (not_not.mpr rfl)]

/-! ### Write-CRC alerts -/

theorem keyView_traceCmd (s : State) (c : ChanId) (u : SubId) (code : Nat) (r : RankId) (g b col row : Nat) (w : By) :
    (s.traceCmd c u code r g b col row w).keyView = s.keyView := rfl

theorem keyView_closeRows (s : State) (c : ChanId) (test : Row → Bool) (w : By) :
    (s.closeRows c test w).keyView = s.keyView := by
  unfold closeRows
  dsimp only
  rw [keyView_updChan]
  exact foldl_keyView _ (fun _ _ => keyView_issue ..) _ s

theorem keyView_updBank (s : State) (c : ChanId) (r : RankId) (u : SubId) (b : Fin 4) (f : BankIdx → BankIdx) :
    (s.updBank c r u b f).keyView = s.keyView := rfl

theorem keyView_activateOn (s : State) (r : RankId) (a : Nat) (w : By) : (s.activateOn r a w).keyView = s.keyView := by
  unfold activateOn
  dsimp only
  rw [keyView_updBank, keyView_updChan, keyView_traceCmd, keyView_closeRows]

theorem keyView_touchRow (s : State) (a code : Nat) (w : By) : (s.touchRow a code w).keyView = s.keyView := by
  unfold touchRow touchRowOn columnOn
  dsimp only
  rw [keyView_traceCmd]
  split
  · rw [keyView_updChan, keyView_useRank]
  · rw [keyView_activateOn, keyView_useRank]

theorem raster_of_keyView {s t : State} (h : t.keyView = s.keyView) : t.raster = s.raster := congrArg (·.2.2.2.1) h

theorem holdAccess_raster (s : State) (r : RankId) (a : Nat) : (s.holdAccess r a).raster = s.raster := by
  unfold holdAccess
  dsimp only
  split
  · unfold force
    dsimp only
    split <;> rfl
  · rfl

/-- Memory once some kept writes have been written again, in their order. -/
def rewritten (r : Raster) (done : List Kept) : Raster :=
  { r with dram := done.foldl (fun m k => writeBurst m k.addr k.words) r.dram }

/-- Writes that wait are replayed from the first on, and those that are held stay to be replayed (R299). -/
theorem replays_writes (c : ChanId) (u : SubId) (xs : List Kept) (s : State) :
    ∃ done, xs = done ++ (replays c u xs s).chans[c].subs[u].replay ∧
      (replays c u xs s).raster = rewritten s.raster done := by
  induction xs generalizing s with
  | nil =>
    refine ⟨[], ?_, rfl⟩
    unfold replays
    rw [updSub_at]
    rfl
  | cons x xs ih =>
    unfold replays
    split
    · refine ⟨[], ?_, holdAccess_raster ..⟩
      rw [updSub_at]
      rfl
    · obtain ⟨done, left, raster⟩ := ih (((s.touchRow x.addr 3 { source := 1 }).updRaster fun r =>
        { r with dram := writeBurst r.dram x.addr x.words }).updChan c fun ch =>
          { ch with replays := satAdd 0xFFFF ch.replays 1 })
      refine ⟨x :: done, congrArg (x :: ·) left, raster.trans ?_⟩
      rw [updChan_raster, updRaster_raster, raster_of_keyView (keyView_touchRow ..)]
      rfl

/-- What waits to be replayed on a subchannel, and raster memory, are the same. -/
structure KeepsReplay (s t : State) (c : ChanId) (u : SubId) : Prop where
  replay : t.chans[c].subs[u].replay = s.chans[c].subs[u].replay
  raster : t.raster = s.raster

theorem KeepsReplay.trans {s t v : State} {c : ChanId} {u : SubId} (a : KeepsReplay s t c u) (b : KeepsReplay t v c u) :
    KeepsReplay s v c u :=
  ⟨b.replay.trans a.replay, b.raster.trans a.raster⟩

theorem keepsReplay_updChan (s : State) (c : ChanId) (u : SubId) (f : Chan → Chan) (hf : ∀ ch, (f ch).subs = ch.subs) :
    KeepsReplay s (s.updChan c f) c u := by
  refine ⟨?_, rfl⟩
  rw [updChan_at, if_pos rfl, hf]

theorem keepsReplay_updSub (s : State) (c : ChanId) (u : SubId) (f : SubRec → SubRec)
    (hf : ∀ k, (f k).replay = k.replay) : KeepsReplay s (s.updSub c u f) c u :=
  ⟨by rw [updSub_at, hf], rfl⟩

theorem keepsReplay_raiseChan (s : State) (c : ChanId) (u : SubId) : KeepsReplay s (s.raiseChan c) c u :=
  ⟨by rw [raiseChan_chans], raise_raster ..⟩

theorem keepsReplay_logDram (s : State) (type : Nat) (c : ChanId) (sub rank b15 temp value : Nat) (u : SubId) :
    KeepsReplay s (s.logDram type c sub rank b15 temp value) c u := ⟨rfl, rfl⟩

/-- A storm leaves what waits to be replayed, and raster memory. -/
theorem checkStorm_keeps (s : State) (c : ChanId) (u : SubId) : KeepsReplay s (s.checkStorm c u) c u := by
  have counted := keepsReplay_updChan s c u (fun ch => { ch with storms := satAdd 0xFF ch.storms 1 }) fun _ => rfl
  unfold checkStorm
  dsimp only
  split
  · exact ⟨rfl, rfl⟩
  · split
    · refine KeepsReplay.trans ?_ (keepsReplay_raiseChan ..)
      refine KeepsReplay.trans ?_ (keepsReplay_logDram ..)
      exact counted.trans (keepsReplay_updSub _ _ _ _ fun _ => rfl)
    · refine KeepsReplay.trans ?_ (keepsReplay_updChan _ _ _ _ fun _ => rfl)
      exact counted.trans (keepsReplay_updSub _ _ _ _ fun _ => rfl)

/-- An alert has queued the writes of its window after those that wait already. -/
def alerted (s : State) (c : ChanId) (u : SubId) (n : Nat) : State :=
  s.updSub c u fun k => { k with
    replay := k.replay ++ (s.chans[c].subs[u].kept.take n).reverse, alerts := (s.time :: k.alerts).take 8 }

theorem alerted_replay (s : State) (c : ChanId) (u : SubId) (n : Nat) : (s.alerted c u n).chans[c].subs[u].replay =
    s.chans[c].subs[u].replay ++ (s.chans[c].subs[u].kept.take n).reverse := by
  unfold alerted
  rw [updSub_at]

theorem crcAlert_eq {s : State} {c : ChanId} (hserves : s.chanServes c = true) (u : SubId) (n : Nat) : s.crcAlert c u n =
    ((replays c u (s.alerted c u n).chans[c].subs[u].replay (s.alerted c u n)).logAlert c u).checkStorm c u := by
  unfold crcAlert
  rw [hserves, if_neg (by decide)]
  rfl

/-- An alert replays the writes of its window after those that wait already (R299). -/
theorem crcAlert_replays {s : State} {c : ChanId} (hserves : s.chanServes c = true) (u : SubId) (n : Nat) :
    ∃ done, s.chans[c].subs[u].replay ++ (s.chans[c].subs[u].kept.take n).reverse =
        done ++ (s.crcAlert c u n).chans[c].subs[u].replay ∧
      (s.crcAlert c u n).raster = rewritten s.raster done := by
  obtain ⟨done, left, raster⟩ := replays_writes c u (s.alerted c u n).chans[c].subs[u].replay (s.alerted c u n)
  have logged (t : State) : KeepsReplay t (t.logAlert c u) c u := ⟨rfl, rfl⟩
  have kept := (logged (replays c u (s.alerted c u n).chans[c].subs[u].replay (s.alerted c u n))).trans
    (checkStorm_keeps _ c u)
  rw [← crcAlert_eq hserves] at kept
  refine ⟨done, ?_, kept.raster.trans raster⟩
  rw [kept.replay, ← left, alerted_replay]

end State

/-- WRITE_CRC_ALERT completes. -/
theorem alertRow_completes (s : State) (c : ChanId) : ∀ u n, s.chanServes c = true → ∃ t done,
    exec (.writeCrcAlert c u n) s = .next t ∧
      s.chans[c].subs[u].replay ++ (s.chans[c].subs[u].kept.take n).reverse = done ++ t.chans[c].subs[u].replay ∧
      t.raster = { s.raster with dram := done.foldl (fun m k => writeBurst m k.addr k.words) s.raster.dram } := by
  intro u n hserves
  have hx : exec (.writeCrcAlert c u n) s = .next (s.crcAlert c u n) := rfl
  obtain ⟨done, left, raster⟩ := State.crcAlert_replays hserves u n
  exact ⟨_, done, hx, left, raster⟩

/-- REFRESH_CREDIT_TIMER, FORCED_REFRESH, POWER_DOWN_ENTRY, FORCED_RFM, ROW_CLOSE, HEALTH_INTERVAL_END and RANK_TRAINING_DONE
complete. -/
theorem rankRows_complete (s : State) (c : ChanId) (r : RankId) (u : SubId) (g : Fin 8) (b : Fin 4) :
    let k := s.chans[c].ranks[r]
    let may : Prop := s.chanServes c = true ∧ s.counterHeld c = true ∧ s.indexHeld c r u b = false
    (s.rankTrained c r = true → s.rankAsleep c r = false →
      ((s.bankIdx c r u b).timer ≤ s.time → ∃ t, exec (.refreshCreditTimer c r u b) s = .next t ∧
        (t.bankIdx c r u b).credit = max (-4) ((s.bankIdx c r u b).credit - 1)) ∧
      (may → (s.bankIdx c r u b).credit ≤ -4 → ∃ t, exec (.forcedRefresh c r u b) s = .next t ∧
        s.Sent t (.dramCmd c 6 r u b.val)) ∧
      (s.power.pdIdle = true → s.chanServes c = true → k.powerDown = false → k.lastUse + 64 ≤ s.slotsRun c →
        s.entrySoon c r = false → ∃ t, exec (.powerDownEntry c r) s = .next t ∧ t.chans[c].ranks[r].powerDown = true)) ∧
    (may → s.chans[c].rfmDue.contains (r, u, b) = true → ∃ t, exec (.forcedRfm c r u b) s = .next t ∧
      s.Sent t (.dramCmd c 7 r u b.val)) ∧
    (∃ t, exec (.rowClose c u r g b) s = .next t ∧
      ∀ x ∈ t.chans[c].rows, ¬(x.rank = r ∧ x.sub = u ∧ x.group = g ∧ x.bank = b ∧ s.rowDue c x = true)) ∧
    (k.hourFrom + 3600 * 160000000000 ≤ s.time → ∃ t, exec (.healthIntervalEnd c r .hour) s = .next t ∧
      t.chans[c].ranks[r].ceHour = 0) ∧
    ∀ id rest x, s.chans[c].service = some (.retrain id, r :: rest) → exec (.rankTrainingDone c r (.pass x)) s =
      .next (((s.rankPassed c r x (.retrain id)).nextRank c (.retrain id) rest).rankResult id c r true) := by
  intro k may
  refine ⟨fun ht ha => ⟨fun hd => ?_, fun hm hcredit => ?_, fun hp hserves hk hidle hsoon => ?_⟩, fun hm hdue => ?_, ?_,
    fun h => ?_, fun id rest x h => ?_⟩
  · have hx : exec (.refreshCreditTimer c r u b) s = .next (s.creditTimer c r u b) := rfl
    exact ⟨_, hx, State.creditTimer_takes ht ha hd⟩
  · have hx : exec (.forcedRefresh c r u b) s = .next (s.forcedRefresh c r u b) := rfl
    obtain ⟨hserves, hheld, hfree⟩ := hm
    exact ⟨_, hx, State.forcedRefresh_sent ht ha hserves hheld hfree hcredit⟩
  · have hx : exec (.powerDownEntry c r) s = .next (s.powerDown c r) := rfl
    exact ⟨_, hx, State.powerDown_enters ht ha hp hserves hk hidle hsoon⟩
  · have hx : exec (.forcedRfm c r u b) s = .next (s.forcedRfm c r u b) := rfl
    obtain ⟨hserves, hheld, hfree⟩ := hm
    exact ⟨_, hx, State.forcedRfm_sent hserves hheld hfree hdue⟩
  · have hx : exec (.rowClose c u r g b) s = .next (s.rowClose c u r g b) := rfl
    exact ⟨_, hx, State.rowClose_closes s c u r g b⟩
  · have hx : exec (.healthIntervalEnd c r .hour) s = .next (s.intervalEnd c r .hour) := rfl
    exact ⟨_, hx, State.intervalEnd_hour h⟩
  · have hx : exec (.rankTrainingDone c r (.pass x)) s = .next (s.rankDone c r (.pass x)) := rfl
    rw [hx, State.rankDone_retrain x h]

end Sys2Proof.Machine
end

section
/-! SUPPORT. The rows of ports, compressor engines and the DRAM's service, taken together. -/

namespace Sys2Proof.Machine

/-- Settles O57: each group of rows by what its functions do once their conditions hold. -/
theorem portAndDramRowsComplete : Obligations.PortAndDramRowsComplete := by
  unfold Obligations.PortAndDramRowsComplete
  refine ⟨fun s h id => ?ports, engineRows_complete, fun s => ?rest, fun s c => ?channels, rankRows_complete⟩
  case ports =>
    obtain ⟨reset, up, late, expired⟩ := portRows_complete s h
    exact ⟨reset, up, late, expired, fun c hr => readRows_complete hr⟩
  case rest =>
    obtain ⟨fills, tokens, enters, off, on⟩ := restRows_complete s
    exact ⟨fills, tokens, enters, off, on, exitRow_completes s⟩
  case channels =>
    obtain ⟨grants, preempts, ends⟩ := arbiterRows_complete s c
    obtain ⟨sleeps, storms⟩ := sleepRows_complete s c
    obtain ⟨starts, transfers, completes⟩ := scrubRows_complete s c
    obtain ⟨moves, cutsOver⟩ := migrationRows_complete s c
    exact ⟨grants, preempts, ends, sleeps, alertRow_completes s c, storms, starts, transfers, completes, moves, cutsOver⟩

end Sys2Proof.Machine
end

section
/-! SUPPORT. The layout of packets and completions (R55, R59), the order of the checks of R65, completions (R53), and packets that
are refused (R57, R58, R65). -/

namespace Sys2Proof.Machine

/-- Where the fields of an entry lie (R59). -/
theorem entry_fields (d h : BitVec 16) (r1 r0 : BitVec 32) (b c : BitVec 8) (t : BitVec 16) :
    let e : BitVec 128 := d ++ h ++ r1 ++ r0 ++ (b ++ c ++ t)
    e.extractLsb' 0 16 = t ∧ e.extractLsb' 16 8 = c ∧ e.extractLsb' 24 8 = b ∧ e.extractLsb' 32 32 = r0 ∧
      e.extractLsb' 64 32 = r1 ∧ e.extractLsb' 96 16 = h ∧ e.extractLsb' 112 16 = d := by
  and_intros
  all_goals
    refine BitVec.eq_of_getLsbD_eq fun i hi => ?_
    simp only [BitVec.getLsbD_extractLsb', BitVec.getLsbD_append, hi, decide_true, Bool.true_and]
    grind

theorem statusCode_lt (x : Status) : x.code < 256 := by
  cases x <;> decide

/-- A field of a field is a field of the whole. -/
theorem extractLsb'_within {w lo m k n : Nat} (x : BitVec w) (h : k + n ≤ m) :
    (x.extractLsb' lo m).extractLsb' k n = x.extractLsb' (lo + k) n := by
  refine BitVec.eq_of_getLsbD_eq fun i hi => ?_
  have inside : k + i < m := by omega
  simp only [BitVec.getLsbD_extractLsb', hi, inside, decide_true, Bool.true_and, Nat.add_assoc]

/-- The byte of QUEUE holds the queue in its low bits and the phase in bit 7. -/
theorem queueByte_fields (phase : Bool) (q : QueueId) :
    let b := BitVec.ofNat 8 ((if phase then 128 else 0) + q.val)
    (b.extractLsb' 0 2).toNat = q.val ∧ b.extractLsb' 2 5 = 0 ∧ b.getLsbD 7 = phase := by
  revert phase q
  decide

/-- Settles O7: each of the 16 dwords of a packet lies at its place in the image of its bytes. -/
theorem packetRoundTrip : Obligations.PacketRoundTrip := by
  intro op i
  exact readPacket_packetImage op i

/-- Settles O9: the fields of the entry, with the byte of QUEUE taken apart. -/
theorem completionLayout : Obligations.CompletionLayout := by
  intro tag a phase q head e
  obtain ⟨htag, hstatus, hqueue, hr0, hr1, hhead, hdetail⟩ := entry_fields (BitVec.ofNat 16 a.detail) (BitVec.ofNat 16 head)
    (BitVec.ofNat 32 a.r1) (BitVec.ofNat 32 a.r0) (BitVec.ofNat 8 ((if phase then 128 else 0) + q.val))
    (BitVec.ofNat 8 a.status.code) tag
  obtain ⟨hlow, hzero, hphase⟩ := queueByte_fields phase q
  have inQueue (lo n : Nat) (hn : lo + n ≤ 8) : (e.extractLsb' 24 8).extractLsb' lo n = e.extractLsb' (24 + lo) n :=
    extractLsb'_within e hn
  have byte : e.extractLsb' 24 8 = _ := hqueue
  rw [← byte] at hlow hzero hphase
  refine ⟨htag, ?_, (inQueue 0 2 (by decide)) ▸ hlow, (inQueue 2 5 (by decide)) ▸ hzero, ?_, hr0, hr1, hhead, hdetail⟩
  · rw [show e.extractLsb' 16 8 = _ from hstatus, BitVec.toNat_ofNat, Nat.mod_eq_of_lt (statusCode_lt a.status)]
  · rw [← hphase, BitVec.getLsbD_extractLsb']
    rfl

namespace State

/-! ### The order of the checks -/

section
variable {s : State} {c : Cmd} {info : OpInfo} (hinfo : opInfo c.op.toNat = some info)
include hinfo

/-- Steps 3 to 8 of R65, for an opcode of the table. -/
theorem checkCmd_known : s.checkCmd c =
    if s.banked && !info.banked then some { status := .banked }
    else (s.roleCheck info c).or (((fieldError info c s).map fun off => { status := .invalidField, detail := 0x8000 + off }).or
      ((s.checkRights c).or (if s.powerCheck c then none else some { status := .resourceConflict, detail := 0x10 }))) := by
  rw [checkCmd, hinfo]
  dsimp only
  cases s.roleCheck info c <;> cases fieldError info c s <;> cases s.checkRights c <;> rfl

theorem checkCmd_role {a : Answer} (hbanked : (s.banked && !info.banked) = false) (hrole : s.roleCheck info c = some a) :
    s.checkCmd c = some a := by
  rw [checkCmd_known hinfo, hbanked, hrole]
  rfl

end

theorem roleCheck_state {s : State} {info : OpInfo} {c : Cmd} {a : Answer} (hbanked : s.banked = false)
    (hstate : stateCheck s.hosts[c.host].st c.op.toNat = some a) : s.roleCheck info c = some a := by
  rw [roleCheck, hbanked, hstate]
  rfl

theorem roleCheck_steward {s : State} {info : OpInfo} {c : Cmd} (hbanked : s.banked = false)
    (hstate : stateCheck s.hosts[c.host].st c.op.toNat = none) (hneeds : needsSteward info c = true)
    (hother : s.isSteward c.host = false) : s.roleCheck info c = some { status := .notSteward } := by
  rw [roleCheck, hbanked, hstate, hneeds, hother]
  rfl

end State

theorem stateCheck_linked {op : Nat} (h : op ∉ [0x00, 0x01, 0x04, 0x05]) :
    stateCheck .linked op = some { status := .notAttached } :=
  if_neg (mt List.contains_iff_mem.mp h)

theorem stateCheck_recovering {op : Nat} (h : op ∉ [0x00, 0x01, 0x06]) :
    stateCheck .recovering op = some { status := .fenced } :=
  if_neg (mt List.contains_iff_mem.mp h)

/-- Settles O8: each answer under the conditions that let the check in question be reached. -/
theorem checksInOrder : Obligations.ChecksInOrder := by
  refine fun s c => ⟨fun hnone => by rw [State.checkCmd, hnone], fun info hinfo => ⟨?banked, ?role, ?later⟩⟩
  case banked =>
    intro hbanked hfew
    rw [State.checkCmd_known hinfo, hbanked, hfew]
    rfl
  case role =>
    intro hbanked
    have reached : (s.banked && !info.banked) = false := by rw [hbanked]; rfl
    refine ⟨fun hst hop => ?_, fun hst hop => ?_, fun hstate hneeds hother => ?_⟩
    · exact State.checkCmd_role hinfo reached (State.roleCheck_state hbanked (hst ▸ stateCheck_linked hop))
    · exact State.checkCmd_role hinfo reached (State.roleCheck_state hbanked (hst ▸ stateCheck_recovering hop))
    · exact State.checkCmd_role hinfo reached (State.roleCheck_steward hbanked hstate hneeds hother)
  case later =>
    intro reached hrole
    rw [State.checkCmd_known hinfo, reached, hrole]
    refine ⟨fun off hoff => by rw [hoff]; rfl, fun hfields => ?_⟩
    rw [hfields]
    exact ⟨fun a ha => by rw [ha]; rfl, fun hr hp => by rw [hr, hp]; rfl, fun hr hp => by rw [hr, hp]; rfl⟩

/-! ### Completions -/

/-- Settles O10: what a completion puts out and how it moves its queue. -/
theorem completionAdvancesQueue : Obligations.CompletionAdvancesQueue := by
  intro s id c a hc k t k'
  obtain ⟨o, hout, hcmds⟩ := State.finish_found a hc
  obtain ⟨hhead, htail, hphase⟩ := State.finish_queue a hc
  obtain ⟨-, -, -, -, hbit, -⟩ := completionLayout c.iss.tag a k.phase c.iss.queue k.sqHead
  refine ⟨⟨_, hout, List.mem_append_right _ (List.mem_singleton.mpr rfl)⟩, hbit, fun hroom => ?_, fun hwrap => ?_, hhead, hcmds, s.finish_sessionOnly id a⟩
  · have moved : k.advance = { k with cqTail := k.cqTail + 1 } := if_pos hroom
    exact ⟨htail.trans (congrArg Queue.cqTail moved), hphase.trans ((congrArg Queue.phase moved :))⟩
  · have moved : k.advance = { k with cqTail := 0, phase := !k.phase } := if_neg (Nat.not_lt.mpr hwrap)
    exact ⟨htail.trans (congrArg Queue.cqTail moved), hphase.trans (congrArg Queue.phase moved)⟩

/-! ### Packets that are refused -/

namespace State

/-- A packet that fails the CRC checks is fetched and completes (R57, R58). -/
theorem submit_crc {s : State} {op : Byte} {i : Issue} {d : Nat} (hf : s.canFetch i.host i.queue = true)
    (hcrc : crcError s op i = some d) (body : Cmd → State → State) :
    s.submit op body i = (s.fetched op i).finish s.nextId { status := .packetCrc, detail := d } := by
  rw [submit, if_pos hf, hcrc]
  rfl

/-- A packet whose turn has come and that fails a check of R65 is fetched and completes. -/
theorem submit_check {s : State} {op : Byte} {i : Issue} {a : Answer} (hf : s.canFetch i.host i.queue = true)
    (hcrc : crcError s op i = none) (hturn : (s.taken op i).orderReady (s.mkCmd op i) = true)
    (hcheck : (s.taken op i).checkCmd (s.mkCmd op i) = some a) (body : Cmd → State → State) :
    s.submit op body i = (s.taken op i).finish s.nextId a := by
  have start : (s.taken op i).start body (s.mkCmd op i) = (s.taken op i).finish s.nextId a := by
    rw [State.start, hcheck]
    rfl
  rw [submit, if_pos hf, hcrc, ← start]
  exact if_pos hturn

/-- A packet that fails the CRC checks is answered, and only the session changes. -/
theorem fetched_refused {s : State} (hfresh : s.FreshNumbers) (op : Byte) (i : Issue) (a : Answer) :
    s.Answered ((s.fetched op i).finish s.nextId a) i a ∧ s.SessionOnly ((s.fetched op i).finish s.nextId a) :=
  ⟨answered_of a (fresh_find hfresh.1 rfl) rfl (fetched_queue s op i) ⟨[], rfl⟩,
    (sessionOnly_fetched s op i).trans (finish_sessionOnly ..)⟩

end State

theorem crcRefusesPacket : Clause.CrcRefusesPacket := by
  have refused {s : State} {op : Byte} {i : Issue} {d : Nat} (hf : s.canFetch i.host i.queue = true)
      (hfresh : s.FreshNumbers) (hcrc : crcError s op i = some d) :
      ∃ t, exec (.packetFetch i.host i.queue (packetImage op i)) s = .next t ∧
        s.Answered t i { status := .packetCrc, detail := d } ∧ s.SessionOnly t := by
    rw [exec_packetFetch, State.submit_crc hf hcrc]
    exact ⟨_, rfl, State.fetched_refused hfresh op i _⟩
  refine fun s op i hf hfresh => ⟨fun hpresent hcrc => refused hf hfresh ?_, fun habsent hneeds => refused hf hfresh ?_⟩
  · rw [crcError, hpresent, if_pos rfl, if_neg hcrc]
  · rw [crcError, habsent, if_neg (by decide), if_pos hneeds]

theorem failedCheckExecutesNothing : Clause.FailedCheckExecutesNothing := by
  intro s op i a hop hf hfresh hcrc hturn hcheck
  rw [exec_packetFetch, State.submit_check hf hcrc hturn hcheck]
  exact ⟨_, rfl, State.answered_taken hfresh op i a, (State.sessionOnly_taken s i hop).trans (State.finish_sessionOnly ..)⟩

/-- Settles O12: a refusal is a completion of the packet as it has been fetched. -/
theorem refusedPacketsExecuteNothing : Obligations.RefusedPacketsExecuteNothing :=
  ⟨crcRefusesPacket, failedCheckExecutesNothing⟩

end Sys2Proof.Machine
end

section
/-! SUPPORT. Commands that change one part of the device and complete at once, and the settings that load shadows (R75, R76, R264, R268,
R283, R422). -/

namespace Sys2Proof.Machine

namespace State

/-! ### A change outside the session, and the completion -/

/-- A packet's own meaning that changes parts outside the session and completes its command. -/
theorem begun_map_finish {s : State} {op : Byte} {i : Issue} (hr : s.runs op i = true) (hop : op ≠ 0x07) (f : State → State)
    (hf : ∀ x hs ev cs n o, f { x with hosts := hs, events := ev, cmds := cs, nextId := n, out := o } =
      { f x with hosts := hs, events := ev, cmds := cs, nextId := n, out := o }) (a : Answer) :
    let t := (f (s.begun op i)).finish s.nextId a
    s.Answered t i a ∧ (f s).SessionOnly t := by
  have kept (x : State) : f x =
      { f x with hosts := x.hosts, events := x.events, cmds := x.cmds, nextId := x.nextId, out := x.out } :=
    hf x x.hosts x.events x.cmds x.nextId x.out
  have hosts (x : State) : (f x).hosts = x.hosts := (congrArg State.hosts (kept x)).trans rfl
  have out (x : State) : (f x).out = x.out := (congrArg State.out (kept x)).trans rfl
  obtain ⟨answered, only, -⟩ := begun_report hr (xs := []) a
    ((sessionOnly_begun s i hop).map f hf (hosts s) (out s)) ((congrArg State.cmds (kept (s.begun op i))).trans rfl)
    (congrArg (fun hs : Vector HostRec 4 => hs[i.host].queues[i.queue]) (hosts _)) (out _)
  exact ⟨answered, only⟩

theorem SessionOnly.ks {s t : State} (a : SessionOnly s t) : t.ks = s.ks := a.same State.ks fun _ _ _ _ _ _ => rfl

theorem SessionOnly.seq {s t : State} (a : SessionOnly s t) : t.seq = s.seq := a.same State.seq fun _ _ _ _ _ _ => rfl

theorem SessionOnly.strips {s t : State} (a : SessionOnly s t) : t.strips = s.strips :=
  a.same State.strips fun _ _ _ _ _ _ => rfl

theorem SessionOnly.free {s t : State} (a : SessionOnly s t) : t.free = s.free := a.same State.free fun _ _ _ _ _ _ => rfl

theorem SessionOnly.keyRefusal {s t : State} (a : SessionOnly s t) : t.keyRefusal = s.keyRefusal :=
  a.same State.keyRefusal fun _ _ _ _ _ _ => rfl

theorem SessionOnly.coursesRun {s t : State} (a : SessionOnly s t) : t.coursesRun = s.coursesRun :=
  a.same State.coursesRun fun _ _ _ _ _ _ => rfl

theorem SessionOnly.bankQualifies {s t : State} (a : SessionOnly s t) (c : ChanId) : t.bankQualifies c = s.bankQualifies c :=
  a.same (fun x => x.bankQualifies c) fun _ _ _ _ _ _ => rfl

theorem SessionOnly.drainHalted {s t : State} (a : SessionOnly s t) : t.drainHalted = s.drainHalted :=
  a.same State.drainHalted fun _ _ _ _ _ _ => rfl

/-! ### Settings -/

/-- The KS shadows are replaced. -/
def withShadow (s : State) (k : Ks → Ks) : State := { s with ks := { s.ks with shadow := k s.ks.shadow } }

/-- A command that replaces KS shadows and completes loads them and no more. -/
theorem begun_loads {s : State} {op : Byte} {i : Issue} {x : Instr} (hr : s.runs op i = true) (hop : op ≠ 0x07) (k : Ks → Ks)
    (hx : exec x s = .next (((s.begun op i).withShadow k).finish s.nextId {})) :
    ∃ t, exec x s = .next t ∧ s.Answered t i {} ∧ t.ks.shadow = k s.ks.shadow ∧
      t.ks = { s.ks with shadow := k s.ks.shadow } ∧ ({ s with ks := t.ks } : State).SessionOnly t := by
  obtain ⟨answered, only⟩ := begun_map_finish hr hop (fun x => x.withShadow k) (fun _ _ _ _ _ _ => rfl) {}
  have ks : (((s.begun op i).withShadow k).finish s.nextId {}).ks = { s.ks with shadow := k s.ks.shadow } := only.ks
  refine ⟨_, hx, answered, congrArg Keystone.shadow ks, ks, ?_⟩
  rw [ks]
  exact only

end State

/-- Bits set one after the other: those of the numbers that a test selects, besides the bits set before. -/
theorem foldl_setBits_getLsbD {w : Nat} (sel : Fin w → Bool) (l : List (Fin w)) (b : BitVec w) (n : Fin w) :
    (l.foldl (fun acc k => if sel k then acc ||| BitVec.twoPow w k.val else acc) b).getLsbD n.val =
      (b.getLsbD n.val || (sel n && l.contains n)) := by
  induction l generalizing b with
  | nil => simp
  | cons k l ih =>
    rw [List.foldl_cons, ih]
    by_cases hk : k = n
    · subst hk
      by_cases hs : sel k = true <;> simp [hs]
    · have other : ¬n.val = k.val := fun e => hk (Fin.ext e.symm)
      by_cases hs : sel k = true <;> simp [hs, other, Ne.symm hk]

/-- The wave settings of a part's links that WAVE_BANK names. -/
def waveNamed (s : State) (c : Cmd) (n : LinkId) : Bool :=
  decide (n.val < s.part.links) && (c.f 0 31 1 == 1 || n.val == c.f 0 0 5)

/-- The shadows as WAVE_BANK loads them (R283). -/
def waveShadow (sel : LinkId → Bool) (w : WaveCfg) (k : Ks) : Ks :=
  { k with
    wave := Vector.ofFn fun n : LinkId => if sel n then w else k.wave[n]
    waveSet := (List.finRange 32).foldl (fun acc n => if sel n then acc ||| BitVec.twoPow 32 n.val else acc) k.waveSet }

theorem waveShadow_wave (sel : LinkId → Bool) (w : WaveCfg) (k : Ks) (n : LinkId) :
    (waveShadow sel w k).wave[n] = if sel n then w else k.wave[n] := by
  simp [waveShadow]

theorem waveShadow_waveSet (sel : LinkId → Bool) (w : WaveCfg) (k : Ks) (n : LinkId) :
    (waveShadow sel w k).waveSet.getLsbD n.val = (k.waveSet.getLsbD n.val || sel n) := by
  have all : (List.finRange 32).contains n = true := List.contains_iff_mem.mpr (List.mem_finRange n)
  rw [waveShadow, foldl_setBits_getLsbD, all, Bool.and_true]

/-- Settles O23: each command replaces its part of the shadows. -/
theorem settingsLoadShadows : Obligations.SettingsLoadShadows := by
  intro s i
  refine ⟨fun hr => ?lookahead, fun hr => ?link, fun hr => ?web, fun hr => ?wave⟩
  case lookahead =>
    exact State.begun_loads (x := .setLookahead i) hr (by decide)
      (fun k => { k with lookahead := _ }) (congrArg Host.Outcome.next (State.submit_runs bodySetLookahead hr))
  case link =>
    exact State.begun_loads (x := .linkConfig i) hr (by decide)
      (fun k => { k with link := vset k.link _ _ }) (congrArg Host.Outcome.next (State.submit_runs bodyLinkConfig hr))
  case web =>
    exact State.begun_loads (x := .webConfig i) hr (by decide)
      (fun k => { k with web := _, webSet := true }) (congrArg Host.Outcome.next (State.submit_runs bodyWebConfig hr))
  case wave =>
    let sel := waveNamed s (s.issued 0x34 i)
    have named (n : LinkId) : sel n = true ↔
        n.val < s.part.links ∧ ((s.issued 0x34 i).f 0 31 1 = 1 ∨ n.val = (s.issued 0x34 i).f 0 0 5) := by
      simp [sel, waveNamed]
    refine ⟨_, State.begun_loads (x := .waveBank i) hr (by decide) (waveShadow sel _)
      (congrArg Host.Outcome.next (State.submit_runs bodyWaveBank hr)), rfl, fun n => ?_⟩
    rw [waveShadow_wave, waveShadow_waveSet]
    refine ⟨fun hn => ?_, fun hn => ?_⟩
    · simp [(named n).mpr hn]
    · simp [Bool.eq_false_iff.mpr (mt (named n).mp hn)]

end Sys2Proof.Machine
end

section
/-! SUPPORT. KEYSTONE refused, dry, and accepted while courses run (R75, R175, R176, R178, R222, R421). -/

namespace Sys2Proof.Machine

namespace State

/-! ### Keystones -/

/-- The registers of a keystone in the place of others. -/
theorem SessionOnly.own_ks {s t : State} {k : Keystone} (a : SessionOnly { s with ks := k } t) :
    SessionOnly { s with ks := t.ks } t := by
  have own : t.ks = k := a.ks
  rw [own]
  exact a

/-- A keystone of the present shadows has been accepted, and nothing has taken force yet (R175, R421). -/
def keyTaken (s : State) (cmd : Option Nat) : State :=
  { s with ks := { s.ks with
    accepted := some { s.ks.shadow with
      webSet := s.ks.shadow.webSet || ((s.ks.accepted.map (·.webSet)).getD false)
      waveSet := s.ks.shadow.waveSet ||| ((s.ks.accepted.map (·.waveSet)).getD 0) }
    shadow := { s.ks.shadow with webSet := false, waveSet := 0 }
    banks := #v[s.ks.banks[0] || s.bankQualifies 0, s.ks.banks[1] || s.bankQualifies 1]
    seq := s.ks.seq + 1, outcome := 1
    cmds := s.ks.cmds ++ (cmd.map fun id => (id, s.ks.seq + 1)).toList } }

theorem acceptKey_waits {s : State} (hc : s.coursesRun = true) (id : Nat) : s.acceptKey (some id) = s.keyTaken (some id) := by
  unfold acceptKey keyTaken
  dsimp only
  rw [hc]
  cases s.ks.accepted <;> rfl

theorem keyTaken_accepted {s : State} (ha : s.ks.accepted = none) (cmd : Option Nat) :
    (s.keyTaken cmd).ks.accepted = some s.ks.shadow := by
  simp [keyTaken, ha]

theorem keyTaken_banks (s : State) (cmd : Option Nat) (c : ChanId) :
    (s.keyTaken cmd).ks.banks[c] = (s.ks.banks[c] || s.bankQualifies c) := by
  match c with
  | 0 => rfl
  | 1 => rfl

theorem SessionOnly.keyTaken {s t : State} (a : SessionOnly s t) (cmd : Option Nat) :
    SessionOnly (s.keyTaken cmd) (t.keyTaken cmd) :=
  a.map (fun x => x.keyTaken cmd) (fun _ _ _ _ _ _ => rfl) rfl rfl

/-- The keystone's refusal in its registers (R176). -/
theorem SessionOnly.refuseKey {s t : State} (a : SessionOnly s t) (d : Nat) : SessionOnly (s.refuseKey d) (t.refuseKey d) :=
  a.map (fun x => x.refuseKey d) (fun _ _ _ _ _ _ => rfl) rfl rfl

end State

theorem exec_keystone {s : State} {i : Issue} (hr : s.runs 0x21 i = true) :
    exec (.keystone i) s = .next (bodyKeystone (s.issued 0x21 i) (s.begun 0x21 i)) :=
  congrArg Host.Outcome.next (State.submit_runs bodyKeystone hr)

theorem bodyKeystone_refused {c : Cmd} {s : State} {d : Nat} (hd : s.keyRefusal = some d) : bodyKeystone c s =
    (if c.f 0 0 1 = 1 then s else s.refuseKey d).finish c.id { status := .resourceConflict, detail := d } := by
  rw [bodyKeystone, hd]
  rfl

theorem bodyKeystone_accepted {c : Cmd} {s : State} (hd : s.keyRefusal = none) : bodyKeystone c s =
    if c.f 0 0 1 = 1 then s.finish c.id {} else s.acceptKey (some c.id) := by
  rw [bodyKeystone, hd]
  rfl

theorem refusedKeystoneCommitsNothing : Clause.RefusedKeystoneCommitsNothing := by
  intro s i hr c
  have frame := State.sessionOnly_begun s i (op := 0x21) (by decide)
  refine ⟨fun d hd => ?refused, fun hd hdry => ?dry⟩
  case refused =>
    rw [exec_keystone hr, bodyKeystone_refused (frame.keyRefusal.trans hd)]
    by_cases hdry : c.f 0 0 1 = 1
    · rw [if_pos hdry]
      obtain ⟨answered, only⟩ := State.begun_finish hr (by decide) { status := .resourceConflict, detail := d }
      exact ⟨_, rfl, answered, fun _ => only, fun h0 => absurd (hdry.symm.trans h0) (by decide)⟩
    · rw [if_neg hdry]
      obtain ⟨answered, only⟩ := State.begun_map_finish hr (by decide) (fun x => x.refuseKey d)
        (fun _ _ _ _ _ _ => rfl) { status := .resourceConflict, detail := d }
      exact ⟨_, rfl, answered, fun h1 => absurd h1 hdry, fun _ => ⟨only.ks, only.own_ks⟩⟩
  case dry =>
    rw [exec_keystone hr, bodyKeystone_accepted (frame.keyRefusal.trans hd), if_pos hdry]
    exact ⟨_, rfl, State.begun_finish hr (by decide) {}⟩

theorem acceptedKeystoneWaits : Clause.AcceptedKeystoneWaits := by
  intro s i hr hd hdry hc
  have frame := State.sessionOnly_begun s i (op := 0x21) (by decide)
  have wet : ¬(s.issued 0x21 i).f 0 0 1 = 1 := fun h1 => absurd (hdry.symm.trans h1) (by decide)
  have only := frame.keyTaken (some s.nextId)
  have taken := only.ks
  rw [exec_keystone hr, bodyKeystone_accepted (frame.keyRefusal.trans hd), if_neg wet,
    State.acceptKey_waits (frame.coursesRun.trans hc)]
  refine ⟨_, rfl, rfl, rfl, rfl, rfl, rfl, fun ha => ?_, fun c => ?_, only.chans, only.own_ks⟩
  · exact (congrArg Keystone.accepted taken).trans (State.keyTaken_accepted ha _)
  · exact (congrArg (fun k : Keystone => k.banks[c]) taken).trans (State.keyTaken_banks s _ c)

/-- Settles O25: a refusal or a dry run by what the command changes before it completes, an acceptance by what it leaves waiting. -/
theorem keystoneIsJudged : Obligations.KeystoneIsJudged := ⟨refusedKeystoneCommitsNothing, acceptedKeystoneWaits⟩

end Sys2Proof.Machine
end

section
/-! SUPPORT. FW_COMMIT and RESET_DEVICE (R79, R403 to R405). -/

namespace Sys2Proof.Machine

namespace State

/-- The start-up state of a device in the place of another. -/
theorem SessionOnly.own_boot {s t : State} {b : Boot} (a : SessionOnly { s with boot := b } t) :
    SessionOnly { s with boot := t.boot } t := by
  have own : t.boot = b := a.boot
  rw [own]
  exact a

theorem SessionOnly.staged {s t : State} (a : SessionOnly s t) : t.staged = s.staged :=
  a.same State.staged fun _ _ _ _ _ _ => rfl

theorem SessionOnly.banked {s t : State} (a : SessionOnly s t) : t.banked = s.banked :=
  a.same State.banked fun _ _ _ _ _ _ => rfl

/-! ### FW_COMMIT -/

/-- The start-up state once the staged image is named in the boot record (R79, R403, R404). -/
def committedBoot (s : State) (bs : List Byte) : Boot :=
  { s.boot with
    recs := vset s.boot.recs (olderCopy s.boot.recs)
      { seq := ((if s.boot.recs[(olderCopy s.boot.recs + 1 : Fin 2)].valid then
          s.boot.recs[(olderCopy s.boot.recs + 1 : Fin 2)].seq else 0) + 1) % 2 ^ 32
        slotB := s.stageSlot, valid := true }
    versionA := if s.stageSlot then s.boot.versionA else some (BitVec.ofNat 32 (leNat ((bs.drop 4).take 4)))
    versionB := if s.stageSlot then some (BitVec.ofNat 32 (leNat ((bs.drop 4).take 4))) else s.boot.versionB
    staged := [], stagedAll := false
    fails := if s.banked then 0 else s.boot.fails }

/-- Four bytes at most make a number of 32 bits. -/
theorem version_toNat (bs : List Byte) :
    (BitVec.ofNat 32 (leNat ((bs.drop 4).take 4))).toNat = leNat ((bs.drop 4).take 4) := by
  have short : ((bs.drop 4).take 4).length ≤ 4 := List.length_take_le ..
  have bound := leNat_lt ((bs.drop 4).take 4)
  have small : 256 ^ ((bs.drop 4).take 4).length ≤ 2 ^ 32 := Nat.pow_le_pow_right (n := 256) (by decide) short
  rw [BitVec.toNat_ofNat, Nat.mod_eq_of_lt (lt_of_lt_of_le bound small)]

theorem commit_eq (s : State) (id : Nat) (bs : List Byte) : s.commit id bs =
    ({ s with boot := s.committedBoot bs } : State).finish id
      { r0 := leNat ((bs.drop 4).take 4), r1 := if s.stageSlot then 1 else 0 } := by
  rw [← version_toNat]
  rfl

theorem committedBoot_recs (s : State) (bs : List Byte) :
    let k := olderCopy s.boot.recs
    let other := s.boot.recs[(k + 1 : Fin 2)]
    (s.committedBoot bs).recs[k] =
      { seq := ((if other.valid then other.seq else 0) + 1) % 2 ^ 32, slotB := s.stageSlot, valid := true } ∧
      (s.committedBoot bs).recs[(k + 1 : Fin 2)] = other := by
  intro k other
  have apart : k ≠ k + 1 := by
    generalize k = n
    revert n
    decide
  exact ⟨vset_same .., vset_other _ _ _ _ apart⟩

end State

theorem exec_fwCommit {s : State} {i : Issue} (hr : s.runs 0x71 i = true) :
    exec (.fwCommit i) s = .next (bodyFwCommit (s.issued 0x71 i) (s.begun 0x71 i)) :=
  congrArg Host.Outcome.next (State.submit_runs bodyFwCommit hr)

theorem bodyFwCommit_eq (c : Cmd) (s : State) : bodyFwCommit c s =
    if s.staged = false then s.finish c.id { status := .invalidField, detail := 0x1A }
    else if Config.signatureVerifies (s.boot.staged.filterMap id) = false then
      s.finish c.id { status := .invalidField, detail := 0x19 }
    else s.commit c.id (s.boot.staged.filterMap id) := by
  simp only [bodyFwCommit, Bool.not_eq_true']
  rfl

theorem commitNamesStagedSlot : Clause.CommitNamesStagedSlot := by
  intro s i hr bs k other
  have frame := State.sessionOnly_begun s i (op := 0x71) (by decide)
  rw [exec_fwCommit hr, bodyFwCommit_eq, frame.staged, frame.boot]
  refine ⟨fun hstaged => ?_, fun hstaged hsig => ?_, fun hstaged hsig => ?_⟩
  · rw [if_pos hstaged]
    exact ⟨_, rfl, State.begun_finish hr (by decide) _⟩
  · rw [if_neg (by rw [hstaged]; decide), if_pos hsig]
    exact ⟨_, rfl, State.begun_finish hr (by decide) _⟩
  · rw [if_neg (by rw [hstaged]; decide), if_neg (by rw [hsig]; decide), State.commit_eq]
    obtain ⟨answered, only⟩ := State.begun_map_finish hr (by decide) (fun x => { x with boot := x.committedBoot bs })
      (fun _ _ _ _ _ _ => rfl) { r0 := leNat ((bs.drop 4).take 4), r1 := if s.stageSlot then 1 else 0 }
    have boot := only.boot
    obtain ⟨named, left⟩ := s.committedBoot_recs bs
    exact ⟨_, rfl, answered, (congrArg (fun b : Boot => b.recs[k]) boot).trans named,
      (congrArg (fun b : Boot => b.recs[(k + 1 : Fin 2)]) boot).trans left, congrArg Boot.staged boot,
      (congrArg Boot.slotB boot).trans rfl, only.own_boot⟩

/-! ### RESET_DEVICE -/

theorem exec_resetDevice {s : State} {i : Issue} (hr : s.runs 0x72 i = true) :
    exec (.resetDevice i) s = .next (bodyResetDevice (s.issued 0x72 i) (s.begun 0x72 i)) :=
  congrArg Host.Outcome.next (State.submit_runs bodyResetDevice hr)

/-- The start-up state once a reset is due (R79, R404, R405). -/
def State.resetDue (s : State) (keep : Bool) : Boot :=
  { s.boot with
    resetAt := some (s.time + Config.msTau, keep)
    fails := if s.banked then 0 else s.boot.fails
    force := if s.banked then false else s.boot.force }

/-- RESET_DEVICE completes before the reset is due; a completion leaves the start-up state, so the order makes no difference. -/
theorem bodyResetDevice_eq (c : Cmd) (s : State) : bodyResetDevice c s =
    { s.finish c.id {} with boot := s.resetDue (c.f 0 0 1 == 1) } := by
  rw [State.resetDue, ← (s.finish_sessionOnly c.id {}).boot]
  rfl

theorem resetDeviceSchedules : Clause.ResetDeviceSchedules := by
  intro s i hr
  have frame := State.sessionOnly_begun s i (op := 0x72) (by decide)
  obtain ⟨answered, only⟩ := State.begun_finish hr (by decide) {}
  have due : (s.begun 0x72 i).resetDue ((s.issued 0x72 i).f 0 0 1 == 1) = s.resetDue ((s.issued 0x72 i).f 0 0 1 == 1) :=
    frame.same (fun x => x.resetDue _) fun _ _ _ _ _ _ => rfl
  rw [exec_resetDevice hr, bodyResetDevice_eq, due]
  exact ⟨_, rfl, answered, only.map (fun x => { x with boot := s.resetDue _ }) (fun _ _ _ _ _ _ => rfl) rfl rfl, rfl⟩

/-- Settles O32: a commit by what it writes into the boot record, a reset by the time at which it is due. -/
theorem firmwareAndReset : Obligations.FirmwareAndReset := ⟨commitNamesStagedSlot, resetDeviceSchedules⟩

end Sys2Proof.Machine
end

section
/-! SUPPORT. DEFINE_RAW_STRIP and FREE_STRIP (R74, R107, R123, R125). -/

namespace Sys2Proof.Machine

namespace State

/-! ### DEFINE_RAW_STRIP -/

/-- A strip lives in its record, in place of what was there, and a free value has been used (R107). -/
def withStrip (s : State) (v : Strip) : State :=
  { s with free := s.free + 1, strips := (s.strips.filter fun x => x.idx ≠ v.idx) ++ [v] }

theorem createStrip_none {s : State} (hf : s.freeRecords = []) (t : Strip) : s.createStrip t = none := by
  unfold createStrip
  generalize s.freeRecords = l at hf ⊢
  subst hf
  rfl

/-- A new strip takes one of the free records (R107). -/
theorem createStrip_some {s : State} (hf : s.freeRecords ≠ []) (t : Strip) : ∃ n ∈ s.freeRecords,
    let v : Strip := { t with idx := n, gen := s.nextGen n, live := true }
    s.createStrip t = some (s.withStrip v, v) := by
  unfold createStrip
  generalize s.freeRecords = l at hf ⊢
  obtain ⟨r, rs, rfl⟩ := List.exists_cons_of_ne_nil hf
  have inside : Config.openRecord s.free % (rs.length + 1) < (r :: rs).length := Nat.mod_lt _ (Nat.succ_pos _)
  refine ⟨(r :: rs).getD (Config.openRecord s.free % (rs.length + 1)) r, ?_, rfl⟩
  rw [List.getD_eq_getElem _ _ inside]
  exact List.getElem_mem inside

theorem mem_withStrip_other {s : State} {v x : Strip} (hx : x.idx ≠ v.idx) : x ∈ (s.withStrip v).strips ↔ x ∈ s.strips := by
  have other : x ≠ v := fun e => hx (congrArg Strip.idx e)
  simp [withStrip, hx, other]

theorem mem_withStrip_self (s : State) (v : Strip) : v ∈ (s.withStrip v).strips := by
  simp [withStrip]

theorem SessionOnly.freeRecords {s t : State} (a : SessionOnly s t) : t.freeRecords = s.freeRecords :=
  a.same State.freeRecords fun _ _ _ _ _ _ => rfl

theorem SessionOnly.nextGen {s t : State} (a : SessionOnly s t) (n : Nat) : t.nextGen n = s.nextGen n :=
  a.same (fun x => x.nextGen n) fun _ _ _ _ _ _ => rfl

/-! ### FREE_STRIP -/

/-- The strip of a handle lives in the record that the handle names. -/
theorem handle_of_findStrip {s : State} {h : Nat} {r : Strip} (hf : s.findStrip h = some r) : r.handle = h ∧ r.idx = h % 8192 := by
  have found := List.find?_some hf
  simp only [Bool.and_eq_true, beq_iff_eq] at found
  obtain ⟨⟨-, hidx⟩, hgen⟩ := found
  refine ⟨?_, hidx⟩
  rw [Strip.handle, hidx, hgen]
  omega

/-- No strip lives in a record whose strip has been ended. -/
theorem findStrip_ended {s : State} {r : Strip} {h : Nat} (hidx : r.idx = h % 8192) :
    (s.putStrip { r with live := false }).findStrip h = none := by
  refine List.find?_eq_none.mpr fun x hx => ?_
  obtain ⟨y, -, rfl⟩ := List.mem_map.mp hx
  by_cases hy : y.idx = r.idx
  · simp [hy]
  · simp [hy, hidx ▸ hy]

theorem unwrite_isWritten (s : State) {ns : List Nat} {n : Nat} (hn : n ∈ ns) : (s.unwrite ns).raster.isWritten n = false := by
  simp [unwrite, updRaster, Raster.isWritten, hn]

end State

theorem exec_defineRawStrip {s : State} {i : Issue} (hr : s.runs 0x18 i = true) :
    exec (.defineRawStrip i) s = .next (bodyDefineRawStrip (s.issued 0x18 i) (s.begun 0x18 i)) :=
  congrArg Host.Outcome.next (State.submit_runs bodyDefineRawStrip hr)

theorem exec_freeStrip {s : State} {i : Issue} (hr : s.runs 0x19 i = true) :
    exec (.freeStrip i) s = .next (bodyFreeStrip (s.issued 0x19 i) (s.begun 0x19 i)) :=
  congrArg Host.Outcome.next (State.submit_runs bodyFreeStrip hr)

/-- The strip that DEFINE_RAW_STRIP makes in a record (R123). -/
def Cmd.rawStrip (c : Cmd) (s : State) (n : Nat) : Strip :=
  { idx := n, gen := s.nextGen n, live := true, raw := true, part := c.part, lines := c.f 2 0 16, words := c.f 3 0 11
    sealed := true, addr := c.raster 0, stride := c.p 4 }

theorem bodyDefineRawStrip_none {c : Cmd} {s : State} (hf : s.freeRecords = []) :
    bodyDefineRawStrip c s = s.finish c.id { status := .resourceConflict } := by
  unfold bodyDefineRawStrip
  simp only [State.createStrip_none hf, State.fail]

theorem bodyDefineRawStrip_some (c : Cmd) {s : State} (hf : s.freeRecords ≠ []) : ∃ n ∈ s.freeRecords,
    bodyDefineRawStrip c s = (s.withStrip (c.rawStrip s n)).finish c.id { r0 := (c.rawStrip s n).handle } := by
  obtain ⟨n, hn, created⟩ := State.createStrip_some hf { idx := 0, gen := 0, raw := true, part := c.part
                                                         lines := c.f 2 0 16, words := c.f 3 0 11, sealed := true
                                                         addr := c.raster 0, stride := c.p 4 }
  refine ⟨n, hn, ?_⟩
  unfold bodyDefineRawStrip
  simp only [created, State.succeed]
  rfl

theorem bodyFreeStrip_found {c : Cmd} {s : State} {r : Strip} (hf : s.findStrip (c.p 0) = some r) : bodyFreeStrip c s =
    if s.stripInUse r.handle then s.finish c.id { status := .resourceConflict, detail := 0x09 }
    else
      ((s.unwrite (if r.raw then [] else r.streamAshlars ++ r.index)).putStrip { r with live := false }).finish c.id
        { r0 := (if r.raw then [] else r.streamAshlars ++ r.index).length } := by
  rw [bodyFreeStrip, hf]
  rfl

/-- Settles O18: the record that a new strip takes, and what becomes of a strip that ends. -/
theorem rawStripsComeAndGo : Obligations.RawStripsComeAndGo := by
  refine fun s i => ⟨fun hr => ?define, fun hr r hf => ?free⟩
  case define =>
    intro c
    have frame := State.sessionOnly_begun s i (op := 0x18) (by decide)
    rw [exec_defineRawStrip hr]
    refine ⟨fun hnone => ?_, fun hsome => ?_⟩
    · rw [bodyDefineRawStrip_none (frame.freeRecords.trans hnone)]
      exact ⟨_, rfl, State.begun_finish hr (by decide) _⟩
    · obtain ⟨n, hn, defined⟩ := bodyDefineRawStrip_some c (s := s.begun 0x18 i) (by rwa [frame.freeRecords])
      have same : c.rawStrip (s.begun 0x18 i) n = c.rawStrip s n := by
        rw [Cmd.rawStrip, frame.nextGen]
        rfl
      obtain ⟨answered, only⟩ := State.begun_map_finish hr (by decide) (fun x => x.withStrip (c.rawStrip s n))
        (fun _ _ _ _ _ _ => rfl) { r0 := (c.rawStrip s n).handle }
      have strips := only.strips
      rw [frame.freeRecords] at hn
      rw [defined, same]
      refine ⟨_, n, hn, c.rawStrip s n, strips ▸ s.mem_withStrip_self _, rfl, rfl, answered, ?_, fun x hx => ?_⟩
      · exact strips.symm ▸ only
      · exact strips.symm ▸ State.mem_withStrip_other hx
  case free =>
    have frame := State.sessionOnly_begun s i (op := 0x19) (by decide)
    obtain ⟨hhandle, hidx⟩ := State.handle_of_findStrip hf
    rw [exec_freeStrip hr, bodyFreeStrip_found ((frame.findStrip _).trans hf), frame.stripInUse]
    refine ⟨fun huse => ?_, fun hfree => ?_⟩
    · rw [if_pos huse]
      exact ⟨_, rfl, State.begun_finish hr (by decide) _⟩
    · intro ns u
      rw [if_neg (by rw [hfree]; decide)]
      obtain ⟨answered, only⟩ := State.begun_map_finish hr (by decide)
        (fun x => (x.unwrite ns).putStrip { r with live := false }) (fun _ _ _ _ _ _ => rfl) { r0 := ns.length }
      refine ⟨_, rfl, answered, only, fun n hn => ?_, ?_⟩
      · exact (congrArg (fun x : Raster => x.isWritten n) only.raster).trans (s.unwrite_isWritten hn)
      · rw [hhandle]
        exact (only.findStrip _).trans (State.findStrip_ended hidx)

end Sys2Proof.Machine
end

section
/-! SUPPORT. RANK_RETIRE and RANK_REINSTATE (R77, R350, R356, R357). -/

namespace Sys2Proof.Machine

namespace State

theorem SessionOnly.migrating {s t : State} (a : SessionOnly s t) (c : ChanId) : t.migrating c = s.migrating c :=
  a.same (fun x => x.migrating c) fun _ _ _ _ _ _ => rfl

theorem SessionOnly.freeSpare {s t : State} (a : SessionOnly s t) (c : ChanId) : t.freeSpare c = s.freeSpare c :=
  a.same (fun x => x.freeSpare c) fun _ _ _ _ _ _ => rfl

/-! ### RANK_RETIRE -/

theorem startMigration_mig (s : State) (c : ChanId) (r x : RankId) :
    let m := (s.startMigration c r x).chans[c].mig
    m.st = .copying ∧ m.source = r ∧ m.target = x := by
  have moved : (s.startMigration c r x).chans[c].mig = { st := .copying, source := r, target := x
                                                         logical := (s.logicalOf c r).getD 0
                                                         ashlar := s.raster.rankFirst ((s.logicalOf c r).getD 0).val
                                                         burst := 0 } := by
    rw [startMigration, updRank, updChan_at, if_pos rfl]
    exact (congrArg Chan.mig (updChan_at ..)).trans (by rw [if_pos rfl])
  intro m
  rw [show m = _ from moved]
  exact ⟨rfl, rfl, rfl⟩

end State

theorem exec_rankRetire {s : State} {i : Issue} (hr : s.runs 0x40 i = true) :
    exec (.rankRetire i) s = .next (bodyRankRetire (s.issued 0x40 i) (s.begun 0x40 i)) :=
  congrArg Host.Outcome.next (State.submit_runs bodyRankRetire hr)

/-- The channel that a command on a rank names. -/
def Cmd.rankChan (c : Cmd) : ChanId := Fin.ofNat 2 (c.f 0 0 1)

/-- The rank that a command names. -/
def Cmd.rank (c : Cmd) : RankId := Fin.ofNat 4 (c.f 0 8 2)

section
variable {c : Cmd} {s : State}

theorem bodyRankRetire_state (hin : s.chans[c.rankChan].ranks[c.rank].st ≠ .inService)
    (hdeg : s.chans[c.rankChan].ranks[c.rank].st ≠ .degraded) :
    bodyRankRetire c s = s.finish c.id { status := .invalidField, detail := 0x8008 } := by
  exact if_pos ⟨hin, hdeg⟩

variable (hst : s.chans[c.rankChan].ranks[c.rank].st = .inService ∨ s.chans[c.rankChan].ranks[c.rank].st = .degraded)
include hst

theorem bodyRankRetire_goes_on (hm : s.chans[c.rankChan].mig.st = .stopped ∧ s.chans[c.rankChan].mig.source = c.rank) :
    bodyRankRetire c s =
      (s.updMig c.rankChan fun x => { x with st := .copying }).finish c.id { r0 := s.chans[c.rankChan].mig.target.val } :=
  (if_neg (by tauto)).trans (if_pos hm)

variable (hm : ¬(s.chans[c.rankChan].mig.st = .stopped ∧ s.chans[c.rankChan].mig.source = c.rank))
include hm

theorem bodyRankRetire_busy (hbusy : s.migrating c.rankChan = true) :
    bodyRankRetire c s = s.finish c.id { status := .busyMigrating } :=
  (if_neg (by tauto)).trans ((if_neg hm).trans (if_pos hbusy))

theorem bodyRankRetire_none (hidle : s.migrating c.rankChan = false) (hno : s.freeSpare c.rankChan = none) :
    bodyRankRetire c s = s.finish c.id { status := .noSpare } := by
  refine (if_neg (by tauto)).trans ((if_neg hm).trans ((if_neg (Bool.eq_false_iff.mp hidle)).trans ?_))
  rw [show s.freeSpare (Fin.ofNat 2 (c.f 0 0 1)) = none from hno]
  rfl

theorem bodyRankRetire_starts (hidle : s.migrating c.rankChan = false) {x : RankId} (hx : s.freeSpare c.rankChan = some x) :
    bodyRankRetire c s = (s.startMigration c.rankChan c.rank x).finish c.id { r0 := x.val } := by
  refine (if_neg (by tauto)).trans ((if_neg hm).trans ((if_neg (Bool.eq_false_iff.mp hidle)).trans ?_))
  rw [show s.freeSpare (Fin.ofNat 2 (c.f 0 0 1)) = some x from hx]
  rfl

end

theorem retireStartsMigration : Clause.RetireStartsMigration := by
  intro s i hr c ch r k m refused
  have frame := State.sessionOnly_begun s i (op := 0x40) (by decide)
  have chans := frame.chans
  have idle := frame.migrating ch
  have spare := frame.freeSpare ch
  have answers {u : State} (h : bodyRankRetire c (s.begun 0x40 i) = u) : exec (.rankRetire i) s = .next u :=
    (exec_rankRetire hr).trans (congrArg Host.Outcome.next h)
  refine ⟨fun hin hdeg => ?state, fun hst => ⟨fun hstop hsource => ?goes_on, fun hm => ⟨fun hbusy => ?busy, fun hfree =>
    ⟨fun hno => ?none, fun x hx => ?starts⟩⟩⟩⟩
  case state =>
    exact ⟨_, answers (bodyRankRetire_state (chans ▸ hin) (chans ▸ hdeg)), State.begun_finish hr (by decide) _⟩
  case goes_on =>
    have same : m.st = .stopped ∧ m.source = r := ⟨hstop, hsource⟩
    have done := bodyRankRetire_goes_on (c := c) (s := s.begun 0x40 i) (chans ▸ hst) (chans ▸ same)
    rw [chans] at done
    exact ⟨_, answers done, State.begun_map_finish hr (by decide) (fun x => x.updMig ch fun y => { y with st := .copying })
      (fun _ _ _ _ _ _ => rfl) _⟩
  case busy =>
    exact ⟨_, answers (bodyRankRetire_busy (chans ▸ hst) (chans ▸ hm) (idle.trans hbusy)),
      State.begun_finish hr (by decide) _⟩
  case none =>
    exact ⟨_, answers (bodyRankRetire_none (chans ▸ hst) (chans ▸ hm) (idle.trans hfree) (spare.trans hno)),
      State.begun_finish hr (by decide) _⟩
  case starts =>
    obtain ⟨answered, only⟩ := State.begun_map_finish hr (by decide) (fun y => y.startMigration ch r x)
      (fun _ _ _ _ _ _ => rfl) { r0 := x.val }
    obtain ⟨copies, source, target⟩ := s.startMigration_mig ch r x
    have moved := only.chans
    refine ⟨_, answers (bodyRankRetire_starts (chans ▸ hst) (chans ▸ hm) (idle.trans hfree) (spare.trans hx)), answered,
      ?_, ?_, ?_, only⟩
    · exact (congrArg (fun v : Vector Chan 2 => v[ch].mig.st) moved).trans copies
    · exact (congrArg (fun v : Vector Chan 2 => v[ch].mig.source) moved).trans source
    · exact (congrArg (fun v : Vector Chan 2 => v[ch].mig.target) moved).trans target

/-! ### RANK_REINSTATE -/

namespace State

/-- Nothing but the DRAM channels has changed, and outputs have been put out. -/
def ChansOnly (s t : State) : Prop := t = { s with chans := t.chans, out := t.out } ∧ ∃ o, t.out = o ++ s.out

theorem ChansOnly.trans {s t u : State} (a : ChansOnly s t) (b : ChansOnly t u) : ChansOnly s u := by
  obtain ⟨ha, o, ho⟩ := a
  obtain ⟨hb, o', ho'⟩ := b
  exact ⟨by rw [hb, ha], o' ++ o, by rw [ho', ho, List.append_assoc]⟩

theorem chansOnly_updChan (s : State) (c : ChanId) (f : Chan → Chan) : ChansOnly s (s.updChan c f) := ⟨rfl, [], rfl⟩

theorem chansOnly_issue (s : State) (c : ChanId) (code : Nat) (r : RankId) (u : SubId) (g b : Nat) (w : By) :
    ChansOnly s (s.issue c code r u g b w) := ⟨rfl, [.dramCmd c code r u b], rfl⟩

theorem chansOnly_srxRank (s : State) (c : ChanId) (r : RankId) : ChansOnly s (s.srxRank c r) :=
  (((chansOnly_issue ..).trans (chansOnly_issue ..)).trans (chansOnly_updChan ..)).trans (chansOnly_updChan ..)

/-- A change of the channels after one of the session. -/
theorem SessionOnly.chansOnly {s t u : State} (a : SessionOnly s t) (b : ChansOnly t u) :
    SessionOnly { s with chans := u.chans } u := by
  obtain ⟨same, hosts, o, out⟩ := a
  obtain ⟨moved, o', out'⟩ := b
  have own : u.hosts = t.hosts := by rw [moved]
  refine ⟨?_, fun k => by rw [own]; exact hosts k, o' ++ o, by rw [out', out, List.append_assoc]⟩
  conv_lhs => rw [moved, same]
  rw [moved]

theorem issue_other (s : State) {c d : ChanId} (hd : d ≠ c) (code : Nat) (r : RankId) (u : SubId) (g b : Nat) (w : By) :
    (s.issue c code r u g b w).chans[d] = s.chans[d] := vmod_other _ _ _ _ hd.symm

theorem updRank_other (s : State) {c d : ChanId} (hd : d ≠ c) (r : RankId) (f : Rank → Rank) :
    (s.updRank c r f).chans[d] = s.chans[d] := vmod_other _ _ _ _ hd.symm

theorem srxRank_other (s : State) {c d : ChanId} (hd : d ≠ c) (r : RankId) : (s.srxRank c r).chans[d] = s.chans[d] := by
  rw [srxRank, resetCredits, updRank_other _ hd, updRank_other _ hd, issueBoth, issue_other _ hd, issue_other _ hd]

/-- A rank that leaves self-refresh is out of it, with its refresh credits at 0 (R158, R305). -/
theorem srxRank_rank (s : State) (c : ChanId) (r : RankId) :
    (s.srxRank c r).chans[c].ranks[r].selfRefresh = false ∧ ∀ b : Fin 8, (s.srxRank c r).chans[c].ranks[r].banks[b].credit = 0 := by
  rw [srxRank, resetCredits, updRank_at, updRank_at]
  refine ⟨rfl, fun b => ?_⟩
  simp

/-- A rank of a channel is taken up for the tests that decide on it (R357). -/
def reinstating (s : State) (id : Nat) (c : ChanId) (r : RankId) : State :=
  (s.srxRank c r).updChan c fun k => { k with service := some (.reinstate id, [r]) }

theorem reinstating_rank (s : State) (id : Nat) (c : ChanId) (r : RankId) :
    (s.reinstating id c r).chans[c].service = some (.reinstate id, [r]) ∧
      (s.reinstating id c r).chans[c].ranks[r].selfRefresh = false ∧
      ∀ u b, ((s.reinstating id c r).bankIdx c r u b).credit = 0 := by
  have here : (s.reinstating id c r).chans[c] = { (s.srxRank c r).chans[c] with service := some (.reinstate id, [r]) } := by
    rw [reinstating, updChan_at, if_pos rfl]
  obtain ⟨awake, credits⟩ := s.srxRank_rank c r
  refine ⟨congrArg Chan.service here, (congrArg (fun k : Chan => k.ranks[r].selfRefresh) here).trans awake, fun u b => ?_⟩
  exact (congrArg (fun k : Chan => k.ranks[r].banks[bankSlot u b].credit) here).trans (credits _)

theorem reinstating_other (s : State) (id : Nat) {c d : ChanId} (hd : d ≠ c) (r : RankId) :
    (s.reinstating id c r).chans[d] = s.chans[d] :=
  (vmod_other _ _ _ _ hd.symm).trans (s.srxRank_other hd r)

theorem chansOnly_reinstating (s : State) (id : Nat) (c : ChanId) (r : RankId) : ChansOnly s (s.reinstating id c r) :=
  (chansOnly_srxRank ..).trans (chansOnly_updChan ..)

end State

theorem exec_rankReinstate {s : State} {i : Issue} (hr : s.runs 0x41 i = true) :
    exec (.rankReinstate i) s = .next (bodyRankReinstate (s.issued 0x41 i) (s.begun 0x41 i)) :=
  congrArg Host.Outcome.next (State.submit_runs bodyRankReinstate hr)

/-- RANK_REINSTATE in the order of its refusals (R77, R357). -/
theorem bodyRankReinstate_eq (c : Cmd) (s : State) : bodyRankReinstate c s =
    if s.chans[c.rankChan].ranks[c.rank].st ≠ .retired then s.finish c.id { status := .invalidField, detail := 0x8008 }
    else if s.migrating c.rankChan then s.finish c.id { status := .busyMigrating }
    else if (s.freeSpare c.rankChan).isSome then s.finish c.id { status := .resourceConflict }
    else s.reinstating c.id c.rankChan c.rank := rfl

theorem reinstateTestsRank : Clause.ReinstateTestsRank := by
  intro s i hr c ch r k refused
  have frame := State.sessionOnly_begun s i (op := 0x41) (by decide)
  have body := bodyRankReinstate_eq c (s.begun 0x41 i)
  rw [frame.chans, frame.migrating, frame.freeSpare] at body
  have answers {u : State} (h : bodyRankReinstate c (s.begun 0x41 i) = u) : exec (.rankReinstate i) s = .next u :=
    (exec_rankReinstate hr).trans (congrArg Host.Outcome.next h)
  refine ⟨fun hst => ?state, fun hst => ⟨fun hbusy => ?busy, fun hidle hspare => ?spare, fun hidle hno => ?tested⟩⟩
  case state => exact ⟨_, answers (body.trans (if_pos hst)), State.begun_finish hr (by decide) _⟩
  case busy =>
    exact ⟨_, answers (body.trans ((if_neg (not_not.mpr hst)).trans (if_pos hbusy))), State.begun_finish hr (by decide) _⟩
  case spare =>
    exact ⟨_, answers (body.trans ((if_neg (not_not.mpr hst)).trans ((if_neg (Bool.eq_false_iff.mp hidle)).trans
      (if_pos hspare)))), State.begun_finish hr (by decide) _⟩
  case tested =>
    have free : ¬(s.freeSpare c.rankChan).isSome = true := by
      rw [show s.freeSpare c.rankChan = none from hno]
      decide
    have done := body.trans ((if_neg (not_not.mpr hst)).trans ((if_neg (Bool.eq_false_iff.mp hidle)).trans (if_neg free)))
    obtain ⟨service, awake, credits⟩ := (s.begun 0x41 i).reinstating_rank c.id ch r
    have only := State.chansOnly_reinstating (s.begun 0x41 i) c.id ch r
    refine ⟨_, answers done, congrArg State.cmds only.1, service, awake, credits, fun d hd => ?_, frame.chansOnly only⟩
    exact (State.reinstating_other _ _ hd r).trans (congrArg (fun v : Vector Chan 2 => v[d]) frame.chans)

/-- Settles O29: each command in the order of its refusals. -/
theorem rankCommands : Obligations.RankCommands := ⟨retireStartsMigration, reinstateTestsRank⟩

end Sys2Proof.Machine
end

section
/-! SUPPORT. SET_FEATURE, with the judgement of a host under a new HB_TIMEOUT (R33, R36, R38 to R40, R69). -/

namespace Sys2Proof.Machine

namespace State

/-! ### Features -/

theorem SessionOnly.featureOld {s t : State} (a : SessionOnly s t) (c : Cmd) : t.featureOld c = s.featureOld c := by
  unfold State.featureOld
  simp only [a.parts, a.featureValue]

/-- A feature put into force changes parts and records outside the session. -/
theorem SessionOnly.setFeature {s t : State} (a : SessionOnly s t) (c : Cmd) :
    SessionOnly (s.setFeature c) (t.setFeature c) := by
  unfold State.setFeature
  split
  · exact a.map (fun x => { x with role := { x.role with eligible := BitVec.ofNat 4 (c.p 1) } })
      (fun _ _ _ _ _ _ => rfl) rfl rfl
  · exact a.map (fun x => { x with parts := vmod x.parts (Fin.ofNat 16 (c.f 0 16 8)) fun p =>
      { p with owner := if c.p 1 = 0xFF then none else some (Fin.ofNat 4 (c.p 1)), reserved := none } })
      (fun _ _ _ _ _ _ => rfl) rfl rfl
  · exact a.map (fun x => { x with parts := vmod x.parts (Fin.ofNat 16 (c.f 0 16 8)) fun p =>
      { p with grants := vset p.grants (Fin.ofNat 4 (c.p 1)) (Right.of (c.p 1 / 256)) } })
      (fun _ _ _ _ _ _ => rfl) rfl rfl
  · exact a.updHost _ (fun r => { r with hbTimeout := c.p 1 }) fun _ _ _ _ _ => rfl
  · exact a.updHost _ (fun r => { r with autoFence := c.p 1 == 1 }) fun _ _ _ _ _ => rfl
  · exact a.updHost _ (fun r => { r with requireCrc := c.p 1 == 1 }) fun _ _ _ _ _ => rfl
  · exact a

theorem setFeature_kept (s : State) (c : Cmd) : (s.setFeature c).cmds = s.cmds ∧ (s.setFeature c).out = s.out ∧
    ∀ h q, (s.setFeature c).queue h q = s.queue h q := by
  unfold setFeature
  split
  · exact ⟨rfl, rfl, fun _ _ => rfl⟩
  · exact ⟨rfl, rfl, fun _ _ => rfl⟩
  · exact ⟨rfl, rfl, fun _ _ => rfl⟩
  · exact ⟨rfl, rfl, fun k q => updHost_queue _ _ k q _ fun _ => rfl⟩
  · exact ⟨rfl, rfl, fun k q => updHost_queue _ _ k q _ fun _ => rfl⟩
  · exact ⟨rfl, rfl, fun k q => updHost_queue _ _ k q _ fun _ => rfl⟩
  · exact ⟨rfl, rfl, fun _ _ => rfl⟩

/-- A feature is put into force, and the command completes. -/
theorem begun_setFeature {s : State} {i : Issue} (hr : s.runs 0x03 i = true) (a : Answer) :
    let t := ((s.begun 0x03 i).setFeature (s.issued 0x03 i)).finish s.nextId a
    s.Answered t i a ∧ (s.setFeature (s.issued 0x03 i)).SessionOnly t := by
  obtain ⟨cmds, out, queue⟩ := (s.begun 0x03 i).setFeature_kept (s.issued 0x03 i)
  obtain ⟨answered, only, -⟩ := begun_report hr (xs := []) a
    ((sessionOnly_begun s i (by decide)).setFeature (s.issued 0x03 i)) cmds (queue ..) out
  exact ⟨answered, only⟩

/-! ### The judgement of a host that is not silent -/

/-- The record of a host under a new HB_TIMEOUT with which it is not silent (R40). -/
def heardWithin (v : Nat) (r : HostRec) : HostRec :=
  { r with hbTimeout := v, st := if r.st = .late then .attached else r.st }

/-- A host whose deadline has not passed is ATTACHED again if it was LATE (R40). -/
theorem judge_heard {s : State} {h : HostId} (hs : s.silent h 1 = false) : s.judge h =
    if s.hosts[h].st = .late then (s.updHost h fun r => { r with st := .attached }).raiseHost h else s := by
  unfold judge
  split
  · next e => rw [if_neg (by rw [hs]; decide), if_neg (by rw [e]; decide)]
  · next e => rw [if_pos (by rw [hs]; decide), if_pos e]
  · next e => exact (if_neg e).symm

theorem Answered.judge_heard {s t : State} {i : Issue} {a : Answer} {h : HostId} (ha : Answered s t i a)
    (hs : t.silent h 1 = false) : Answered s (t.judge h) i a := by
  rw [State.judge_heard hs]
  split
  · have queue := updHost_queue t h i.host i.queue (fun r => { r with st := .attached }) fun _ => rfl
    have moved : Answered s (t.updHost h fun r => { r with st := .attached }) i a :=
      ha.mono ⟨[], rfl⟩ (fun _ hc => hc) ⟨congrArg Queue.sqHead queue, congrArg Queue.cqTail queue, congrArg Queue.phase queue⟩
    exact moved.raised (raised_raiseHost ..)
  · exact ha

/-- A host that is heard within a new HB_TIMEOUT (R40). -/
theorem silent_of_heard {s t : State} {h : HostId} {v : Nat}
    (only : SessionOnly (s.updHost h fun r => { r with hbTimeout := v }) t)
    (heard : s.time - s.hosts[h].lastHb < v * Config.msTau) : t.silent h 1 = false := by
  have record : (s.updHost h fun r => { r with hbTimeout := v }).hosts[h] = { s.hosts[h] with hbTimeout := v } := vmod_same ..
  rw [silent, only.time, only.hbTimeout, only.lastHb, record, decide_eq_false_iff_not, Nat.one_mul, Nat.not_le]
  exact heard

/-- The judgement of a host that is heard within its new HB_TIMEOUT touches its record and the session (R40). -/
theorem SessionOnly.judge_heard {s t : State} {h : HostId} {v : Nat}
    (only : SessionOnly (s.updHost h fun r => { r with hbTimeout := v }) t)
    (heard : s.time - s.hosts[h].lastHb < v * Config.msTau) : SessionOnly (s.updHost h (heardWithin v)) (t.judge h) := by
  have record : (s.updHost h fun r => { r with hbTimeout := v }).hosts[h] = { s.hosts[h] with hbTimeout := v } := vmod_same ..
  have st : t.hosts[h].st = s.hosts[h].st := (only.st h).trans ((congrArg HostRec.st record).trans rfl)
  rw [State.judge_heard (silent_of_heard only heard), st]
  by_cases hlate : s.hosts[h].st = .late
  · have twice : (s.updHost h (fun r => { r with hbTimeout := v })).updHost h (fun r => { r with st := .attached }) =
        s.updHost h (heardWithin v) := by
      rw [updHost_updHost]
      exact updHost_congr (by rw [heardWithin, if_pos hlate])
    rw [if_pos hlate, ← twice]
    exact (only.updHost h (fun r => { r with st := .attached }) fun _ _ _ _ _ => rfl).trans
      (raised_raiseHost ..).sessionOnly
  · have once : s.updHost h (fun r => { r with hbTimeout := v }) = s.updHost h (heardWithin v) :=
      updHost_congr (by rw [heardWithin, if_neg hlate])
    rw [if_neg hlate, ← once]
    exact only

end State

theorem exec_setFeature {s : State} {i : Issue} (hr : s.runs 0x03 i = true) :
    exec (.setFeature i) s = .next (bodySetFeature (s.issued 0x03 i) (s.begun 0x03 i)) :=
  congrArg Host.Outcome.next (State.submit_runs bodySetFeature hr)

/-- A partition is owned by a live contributor (R36). -/
def State.ownedLive (s : State) (p : Fin 16) : Prop :=
  ∃ o, s.parts[p].owner = some o ∧ s.attached o = true ∧ s.isSteward o = false

theorem bodySetFeature_owned {c : Cmd} {s : State} (hf : c.f 0 0 16 = 2) (hlive : s.ownedLive (Fin.ofNat 16 (c.f 0 16 8))) :
    bodySetFeature c s = s.finish c.id { status := .resourceConflict } := by
  obtain ⟨o, owner, att, other⟩ := hlive
  refine if_pos ⟨hf, ?_⟩
  rw [owner]
  simp [att, other]

theorem bodySetFeature_sets {c : Cmd} {s : State} (hlive : c.f 0 0 16 = 2 → ¬s.ownedLive (Fin.ofNat 16 (c.f 0 16 8))) :
    bodySetFeature c s =
      let t := (s.setFeature c).finish c.id { r0 := s.featureOld c }
      if c.f 0 0 16 = 4 then t.judge (Fin.ofNat 4 (c.f 0 16 8)) else t := by
  refine if_neg fun ⟨hf, hb⟩ => hlive hf ?_
  cases ho : s.parts[(Fin.ofNat 16 (c.f 0 16 8) : Fin 16)].owner with
  | none =>
    rw [ho] at hb
    exact absurd hb Bool.false_ne_true
  | some o =>
    rw [ho] at hb
    simp only [Bool.and_eq_true, Bool.not_eq_true'] at hb
    exact ⟨o, ho, hb⟩

/-- What each feature's value puts into force (R33, R36, R38, R40, R58, R69). -/
theorem State.setFeature_values (s : State) (c : Cmd) :
    let p : Fin 16 := Fin.ofNat 16 (c.f 0 16 8)
    let h : HostId := Fin.ofNat 4 (c.f 0 16 8)
    let t := s.setFeature c
    (c.f 0 0 16 = 1 → t.role = { s.role with eligible := BitVec.ofNat 4 (c.p 1) }) ∧
      (c.f 0 0 16 = 2 → t.parts[p] = { s.parts[p] with
        owner := if c.p 1 = 0xFF then none else some (Fin.ofNat 4 (c.p 1)), reserved := none }) ∧
      (c.f 0 0 16 = 3 → t.parts[p] = { s.parts[p] with
        grants := vset s.parts[p].grants (Fin.ofNat 4 (c.p 1)) (Right.of (c.p 1 / 256)) }) ∧
      (c.f 0 0 16 = 5 → t.hosts[h].autoFence = (c.p 1 == 1)) ∧
      (c.f 0 0 16 = 7 → t.hosts[c.host].requireCrc = (c.p 1 == 1)) := by
  refine ⟨fun hf => ?_, fun hf => ?_, fun hf => ?_, fun hf => ?_, fun hf => ?_⟩
  all_goals
    simp only [State.setFeature, hf]
  · exact vmod_same ..
  · exact vmod_same ..
  · exact congrArg HostRec.autoFence (vmod_same ..)
  · exact congrArg HostRec.requireCrc (vmod_same ..)

/-- SET_FEATURE of HB_TIMEOUT (R40). -/
theorem State.setFeature_timeout {s : State} {c : Cmd} (hf : c.f 0 0 16 = 4) :
    s.setFeature c = s.updHost (Fin.ofNat 4 (c.f 0 16 8)) fun r => { r with hbTimeout := c.p 1 } := by
  simp only [State.setFeature, hf]

/-- Settles O13: each feature by what its value changes, HB_TIMEOUT with the judgement that follows. -/
theorem setFeaturePutsInForce : Obligations.SetFeaturePutsInForce := by
  intro s i hr c f k p h live
  have frame := State.sessionOnly_begun s i (op := 0x03) (by decide)
  have same : (s.begun 0x03 i).ownedLive p ↔ live := by
    simp only [State.ownedLive, frame.parts, frame.attached, frame.isSteward, live]
  rw [exec_setFeature hr]
  refine ⟨fun hf hlive => ?owned, fun hf hlive => ?sets, fun hf hheard => ?timeout⟩
  case owned =>
    rw [bodySetFeature_owned hf (same.mpr hlive)]
    exact ⟨_, rfl, State.begun_finish hr (by decide) _⟩
  case sets =>
    obtain ⟨answered, only⟩ := State.begun_setFeature hr { r0 := s.featureOld c }
    obtain ⟨role, owner, grants, auto, crc⟩ := s.setFeature_values c
    rw [bodySetFeature_sets fun h2 => mt same.mp (hlive h2), frame.featureOld, if_neg hf]
    refine ⟨_, rfl, answered, only, fun h1 => ?_, fun h2 => ?_, fun h3 => ?_, fun h5 => ?_, fun h7 => ?_⟩
    · exact only.role.trans (role h1)
    · exact (congrArg (fun v : Vector Partition 16 => v[p]) only.parts).trans (owner h2)
    · exact (congrArg (fun v : Vector Partition 16 => v[p]) only.parts).trans (grants h3)
    · exact (only.sameHost HostRec.autoFence (fun _ _ _ _ _ => rfl) h).trans (auto h5)
    · exact (only.sameHost HostRec.requireCrc (fun _ _ _ _ _ => rfl) i.host).trans (crc h7)
  case timeout =>
    have not2 : c.f 0 0 16 = 2 → ¬(s.begun 0x03 i).ownedLive (Fin.ofNat 16 (c.f 0 16 8)) :=
      fun h2 => absurd (hf.symm.trans h2) (by decide)
    have timeout : c.f 0 0 16 = 4 := hf
    have old : s.featureOld c = s.hosts[h].hbTimeout := by simp only [State.featureOld, timeout, State.featureValue, h, k]
    obtain ⟨answered, only⟩ := State.begun_setFeature hr { r0 := s.hosts[h].hbTimeout }
    rw [State.setFeature_timeout (s := s) hf] at only
    have judged := only.judge_heard hheard
    have record : (s.updHost h (State.heardWithin (c.p 1))).hosts[h] = State.heardWithin (c.p 1) s.hosts[h] := vmod_same ..
    rw [bodySetFeature_sets not2, if_pos hf, frame.featureOld, old]
    exact ⟨_, rfl, answered.judge_heard (State.silent_of_heard only hheard),
      (judged.hbTimeout h).trans (congrArg HostRec.hbTimeout record), (judged.st h).trans (congrArg HostRec.st record), judged⟩

end Sys2Proof.Machine
end

section
/-! SUPPORT. The queue of pages: cancellations, the start of the drain, and its halts (R75, R168, R188, R189). -/

namespace Sys2Proof.Machine

namespace State

/-! ### PAGE_CANCEL -/

theorem SessionOnly.findPage {s t : State} (a : SessionOnly s t) (id : BitVec 16) : t.findPage id = s.findPage id :=
  a.same (fun x => x.findPage id) fun _ _ _ _ _ _ => rfl

/-- The pages that a cancellation leaves: those that run, and those that its test does not name (R168). -/
theorem cancelPages_seq (s : State) (which : Page → Bool) :
    (s.cancelPages which).seq = { s.seq with pages := s.seq.pages.filter fun p => p.active || !which p } := by
  have left : (s.seq.pages.filter fun p => !(!p.active && which p)) = s.seq.pages.filter fun p => p.active || !which p :=
    List.filter_congr fun p _ => by simp
  rw [← left]
  rfl

/-- A cancellation that completes its command (R75, R168). -/
theorem begun_cancelPages {s : State} {i : Issue} (hr : s.runs 0x23 i = true) (which : Page → Bool) (a : Answer) :
    let t := ((s.begun 0x23 i).cancelPages which).finish s.nextId a
    s.Answered t i a ∧ t.seq = { s.seq with pages := s.seq.pages.filter fun p => p.active || !which p } ∧
      ({ s with seq := t.seq, links := t.links } : State).SessionOnly t := by
  obtain ⟨answered, only⟩ := begun_map_finish hr (by decide) (fun x => x.cancelPages which) (fun _ _ _ _ _ _ => rfl) a
  refine ⟨answered, only.seq.trans (s.cancelPages_seq which), ?_⟩
  rw [only.seq, only.links]
  exact only

end State

theorem exec_pageCancel {s : State} {i : Issue} (hr : s.runs 0x23 i = true) :
    exec (.pageCancel i) s = .next (bodyPageCancel (s.issued 0x23 i) (s.begun 0x23 i)) :=
  congrArg Host.Outcome.next (State.submit_runs bodyPageCancel hr)

theorem bodyPageCancel_all {c : Cmd} (hall : c.f 0 16 1 = 1) (s : State) : bodyPageCancel c s =
    (s.cancelPages fun _ => true).finish c.id { r0 := (s.seq.pages.filter fun p => !p.active).length } :=
  if_pos hall

theorem bodyPageCancel_one {c : Cmd} (hone : c.f 0 16 1 = 0) (s : State) : bodyPageCancel c s =
    match s.findPage (BitVec.ofNat 16 (c.p 0)) with
    | none => s.finish c.id { status := .invalidField, detail := 0x0E }
    | some p =>
      if p.active then s.finish c.id { status := .resourceConflict, detail := 0x0D }
      else (s.cancelPages fun q => q.id = BitVec.ofNat 16 (c.p 0)).finish c.id { r0 := 1 } :=
  if_neg fun hall => absurd (hone.symm.trans hall) (by decide)

theorem cancelTakesQueuedPages : Clause.CancelTakesQueuedPages := by
  intro s i hr c id
  have frame := State.sessionOnly_begun s i (op := 0x23) (by decide)
  rw [exec_pageCancel hr]
  refine ⟨fun hall => ?all, fun hone => ?one⟩
  case all =>
    rw [bodyPageCancel_all hall, frame.seq]
    obtain ⟨answered, seq, only⟩ := State.begun_cancelPages hr (fun _ => true)
      { r0 := (s.seq.pages.filter fun p => !p.active).length }
    simp only [Bool.not_true, Bool.or_false] at seq
    exact ⟨_, rfl, answered, seq, only⟩
  case one =>
    rw [bodyPageCancel_one hone, frame.findPage]
    refine ⟨fun hnone => ?_, fun p hp => ⟨fun hactive => ?_, fun hqueued => ?_⟩⟩
    · rw [show s.findPage (BitVec.ofNat 16 (c.p 0)) = none from hnone]
      exact ⟨_, rfl, State.begun_finish hr (by decide) _⟩
    · rw [show s.findPage (BitVec.ofNat 16 (c.p 0)) = some p from hp]
      exact ⟨_, congrArg Host.Outcome.next (if_pos hactive), State.begun_finish hr (by decide) _⟩
    · rw [show s.findPage (BitVec.ofNat 16 (c.p 0)) = some p from hp]
      obtain ⟨answered, seq, only⟩ := State.begun_cancelPages hr (fun q => q.id = id) { r0 := 1 }
      refine ⟨_, congrArg Host.Outcome.next (if_neg (Bool.eq_false_iff.mp hqueued)), answered, seq.trans ?_, only⟩
      exact congrArg (fun l => ({ s.seq with pages := l } : Seq)) (List.filter_congr fun q _ =>
        congrArg (fun b => q.active || !b) (beq_eq_decide ..).symm)

/-! ### RUN -/

theorem exec_run {s : State} {i : Issue} (hr : s.runs 0x25 i = true) :
    exec (.run i) s = .next (bodyRun (s.issued 0x25 i) (s.begun 0x25 i)) :=
  congrArg Host.Outcome.next (State.submit_runs bodyRun hr)

/-- The drain runs, from rest (R188). -/
def State.running (s : State) : State :=
  s.updSeq fun q => { q with drain := .running, prevEnd := none, lastLine := none, joinable := false }

theorem bodyRun_eq (c : Cmd) (s : State) : bodyRun c s =
    if s.drainHalted then s.running.finish c.id { r0 := ((s.seq.pages.head?).map (·.id.toNat)).getD 0xFFFFFFFF }
    else s.finish c.id {} := rfl

theorem runStartsDrain : Clause.RunStartsDrain := by
  intro s i hr
  have frame := State.sessionOnly_begun s i (op := 0x25) (by decide)
  rw [exec_run hr, bodyRun_eq, frame.drainHalted, frame.seq]
  refine ⟨fun hhalted => ?_, fun hruns => ?_⟩
  · rw [if_pos hhalted]
    obtain ⟨answered, only⟩ := State.begun_map_finish hr (by decide) State.running (fun _ _ _ _ _ _ => rfl)
      { r0 := ((s.seq.pages.head?).map (·.id.toNat)).getD 0xFFFFFFFF }
    have seq := only.seq
    refine ⟨_, rfl, answered, seq, ?_⟩
    exact seq.symm ▸ only
  · rw [if_neg (Bool.eq_false_iff.mp hruns)]
    exact ⟨_, rfl, State.begun_finish hr (by decide) {}⟩

/-! ### HALT_DRAIN -/

namespace State

/-- Settings, raster memory, the sequencer, the commands in flight and the channels. -/
def drainView (s : State) : Keystone × Raster × Seq × List Cmd × Vector Chan 2 := (s.ks, s.raster, s.seq, s.cmds, s.chans)

theorem flush_drainView (s : State) : s.flush.drainView = s.drainView := by
  unfold flush
  exact foldl_same State.drainView (fun acc n => (acc.sendFrame n 3 0 0 0 0xFFFF 0 []).updLink n fun l => { l with held := [] })
    (fun _ _ => rfl) _ s

theorem updLink_slots (s : State) (n m : LinkId) (f : Link → Link) (hf : ∀ l, (f l).slots = l.slots) :
    (s.updLink n f).links[m].slots = s.links[m].slots := by
  rw [show (s.updLink n f).links[m] = if n = m then f s.links[m] else s.links[m] from getElem_vmod ..]
  split
  · exact hf _
  · rfl

theorem flush_slots (s : State) (m : LinkId) : s.flush.links[m].slots = s.links[m].slots := by
  unfold flush
  refine foldl_same (fun t : State => t.links[m].slots)
    (fun acc n => (acc.sendFrame n 3 0 0 0 0xFFFF 0 []).updLink n fun l => { l with held := [] }) (fun t n => ?_) _ s
  refine (updLink_slots _ n m _ fun l => ?_).trans (updLink_slots _ n m _ fun l => ?_)
  · rfl
  · rfl

/-- The links at the end of pages by a halt hold no line. -/
theorem endPages_slots (s : State) (m : LinkId) : s.endPages.links[m].slots = [] := by
  have links : s.endPages.links = ((s.dropPages Page.active).stopFill.links.map fun l =>
    { l with fetch := {}, slots := [] }) := rfl
  rw [links]
  exact congrArg Link.slots (Vector.getElem_map ..)

/-- A stop of fill takes entries of the course out of what is due, and changes a channel in nothing else. -/
theorem stopFill_due (s : State) (k : ChanId) : ∃ due, s.stopFill.chans[k] = { s.chans[k] with due := due } := by
  have chans : s.stopFill.chans = Vector.ofFn fun c : Fin 2 => { s.chans[c] with
      due := s.chans[c].due.filter fun i => !(((s.table c).table[i]?.map Entry.isFetch) == some true) } := by
    dsimp only [stopFill, updSeq]
  rw [chans]
  exact ⟨_, Vector.getElem_ofFn ..⟩

/-- What a stop of fill leaves: settings, raster memory, the pages, the halts that wait and the commands in flight. -/
theorem stopFill_leaves (s : State) : s.stopFill.ks = s.ks ∧ s.stopFill.raster = s.raster ∧ s.stopFill.seq.pages = s.seq.pages ∧
    s.stopFill.seq.haltCmds = s.seq.haltCmds ∧ s.stopFill.cmds = s.cmds := by
  dsimp only [stopFill, updSeq]
  exact ⟨rfl, rfl, rfl, rfl, rfl⟩

theorem dropPages_leaves (s : State) (which : Page → Bool) : (s.dropPages which).ks = s.ks ∧
    (s.dropPages which).raster = s.raster ∧ (s.dropPages which).seq.pages = (s.seq.pages.filter fun p => !which p) ∧
    (s.dropPages which).seq.haltCmds = s.seq.haltCmds ∧ (s.dropPages which).cmds = s.cmds ∧
    (s.dropPages which).chans = s.chans :=
  ⟨rfl, rfl, rfl, rfl, rfl, rfl⟩

theorem endPages_due (s : State) (k : ChanId) : ∃ due, s.endPages.chans[k] = { s.chans[k] with due := due } := by
  obtain ⟨-, -, -, -, -, chans⟩ := s.dropPages_leaves Page.active
  have ended : s.endPages.chans = (s.dropPages Page.active).stopFill.chans := rfl
  rw [ended, ← chans]
  exact stopFill_due _ k

/-- What the end of the pages that run leaves. -/
theorem endPages_leaves (s : State) : s.endPages.ks = s.ks ∧ s.endPages.raster = s.raster ∧
    s.endPages.seq.pages = (s.seq.pages.filter fun p => !p.active) ∧ s.endPages.seq.haltCmds = s.seq.haltCmds ∧
    s.endPages.cmds = s.cmds := by
  obtain ⟨ks, raster, pages, halts, cmds, -⟩ := s.dropPages_leaves Page.active
  rw [← ks, ← raster, ← pages, ← halts, ← cmds]
  exact (s.dropPages Page.active).stopFill_leaves

/-- A command that has completed is in flight no more. -/
theorem finish_gone (s : State) (id : Nat) (a : Answer) : ∀ c ∈ (s.finish id a).cmds, c.id ≠ id := by
  cases hc : s.findCmd id with
  | none =>
    have none_there := List.find?_eq_none.mp hc
    rw [finish, hc]
    exact fun c hmem e => none_there c hmem (decide_eq_true e)
  | some c =>
    obtain ⟨-, -, cmds⟩ := finish_found a hc
    rw [cmds]
    exact fun c hmem => of_decide_eq_true (List.mem_filter.mp hmem).2

theorem finish_subset (s : State) (id : Nat) (a : Answer) : (s.finish id a).cmds.Sublist s.cmds := by
  obtain ⟨hs, ev, o, cs, hfin, -, sub⟩ := finished_finish s id a
  rw [hfin]
  exact sub

/-- A completion leaves commands that were in flight before. -/
theorem mem_of_mem_finish {s : State} {id : Nat} {a : Answer} {c : Cmd} (hc : c ∈ (s.finish id a).cmds) : c ∈ s.cmds :=
  (finish_subset s id a).subset hc

/-- Commands that complete one after the other: only the session changes. -/
theorem foldl_succeed_sessionOnly (l : List Nat) (r0 r1 : Nat) (s : State) :
    SessionOnly s (l.foldl (fun acc k => acc.succeed k r0 r1) s) := by
  induction l generalizing s with
  | nil => exact .refl s
  | cons k l ih => exact (finish_sessionOnly s k _).trans (ih _)

theorem mem_of_mem_foldl_succeed {l : List Nat} {r0 r1 : Nat} {s : State} {c : Cmd}
    (hc : c ∈ (l.foldl (fun acc k => acc.succeed k r0 r1) s).cmds) : c ∈ s.cmds := by
  induction l generalizing s with
  | nil => exact hc
  | cons k l ih => exact mem_of_mem_finish (ih hc)

/-- Commands that complete one after the other are in flight no more. -/
theorem foldl_succeed_gone {id : Nat} {l : List Nat} (hid : id ∈ l) (r0 r1 : Nat) (s : State) :
    ∀ c ∈ (l.foldl (fun acc k => acc.succeed k r0 r1) s).cmds, c.id ≠ id := by
  induction l generalizing s with
  | nil => exact absurd hid List.not_mem_nil
  | cons k l ih =>
    rcases List.mem_cons.mp hid with rfl | later
    · exact fun c hc => finish_gone s id _ c (mem_of_mem_foldl_succeed hc)
    · exact ih later _

/-- The drain HALTED with its results (R188, R189). -/
def rested (s : State) : State :=
  s.useFree.updSeq fun q => { q with
    drain := .halted, haltMode := 0, haltCmds := [], haltAt := none
    haltR0 := s.haltResults.1, haltR1 := s.haltResults.2, debt := 0 }

theorem haltDone_eq (s : State) : s.haltDone =
    s.seq.haltCmds.foldl (fun acc id => acc.succeed id s.haltResults.1.toNat s.haltResults.2.toNat) s.rested := rfl

/-- The end of a halt is the drain HALTED, and completions. -/
theorem haltDone_sessionOnly (s : State) : SessionOnly s.rested s.haltDone := foldl_succeed_sessionOnly ..

theorem haltDone_gone {s : State} {id : Nat} (hid : id ∈ s.seq.haltCmds) : ∀ c ∈ s.haltDone.cmds, c.id ≠ id :=
  foldl_succeed_gone hid _ _ s.rested

/-- A halt at once (R189): the drain is HALTED, the pages that ran have ended, no link holds a line, and the commands that
waited for the halt have completed; raster memory and settings stay, and the channels but for what is due on them. -/
theorem haltNow_effect {u : State} (hruns : u.drainHalted = false) :
    u.haltNow.drainHalted = true ∧ u.haltNow.seq.pages = u.seq.pages.filter (fun p => !p.active) ∧
      (∀ n : LinkId, u.haltNow.links[n].slots = []) ∧
      (∀ id ∈ u.seq.haltCmds, ∀ c ∈ u.haltNow.cmds, c.id ≠ id) ∧ u.haltNow.raster = u.raster ∧ u.haltNow.ks = u.ks ∧
      ∀ k : ChanId, u.haltNow.chans[k] = { u.chans[k] with due := u.haltNow.chans[k].due } := by
  have halts : u.haltNow = u.endPages.flush.haltDone := if_neg (Bool.eq_false_iff.mp hruns)
  obtain ⟨ks, raster, seq, cmds, chans⟩ : u.endPages.flush.ks = u.endPages.ks ∧ u.endPages.flush.raster = u.endPages.raster ∧
      u.endPages.flush.seq = u.endPages.seq ∧ u.endPages.flush.cmds = u.endPages.cmds ∧
      u.endPages.flush.chans = u.endPages.chans := by
    simpa only [drainView, Prod.ext_iff] using flush_drainView u.endPages
  obtain ⟨ended_ks, ended_raster, ended_pages, ended_halts, ended_cmds⟩ := endPages_leaves u
  have done := haltDone_sessionOnly u.endPages.flush
  have rested_seq : u.endPages.flush.haltDone.seq = u.endPages.flush.rested.seq := done.seq
  rw [halts]
  refine ⟨?_, ?_, fun n => ?_, fun id hid => ?_, ?_, ?_, fun k => ?_⟩
  · exact (done.drainHalted).trans rfl
  · rw [rested_seq, ← ended_pages, ← seq]
    rfl
  · rw [done.links]
    exact (flush_slots u.endPages n).trans (endPages_slots u n)
  · exact haltDone_gone (by rw [seq, ended_halts]; exact hid)
  · rw [done.raster]
    exact raster.trans ended_raster
  · rw [done.ks]
    exact ks.trans ended_ks
  · obtain ⟨due, hdue⟩ := endPages_due u k
    have same : u.endPages.flush.haltDone.chans = u.endPages.chans := done.chans.trans chans
    rw [same, hdue]

theorem halt_zero (s : State) : s.halt 0 =
    if s.seq.drain = .running then (s.updSeq fun q => { q with drain := .halting, haltMode := 0 }).settlePages else s := rfl

theorem halt_one (s : State) : s.halt 1 = if s.seq.drain = .halting ∧ s.seq.haltMode = 1 then s else s.haltAtLine := rfl

theorem halt_two (s : State) : s.halt 2 = s.haltNow := rfl

end State

theorem exec_haltDrain {s : State} {i : Issue} (hr : s.runs 0x26 i = true) :
    exec (.haltDrain i) s = .next (bodyHaltDrain (s.issued 0x26 i) (s.begun 0x26 i)) :=
  congrArg Host.Outcome.next (State.submit_runs bodyHaltDrain hr)

theorem haltStopsDrain : Clause.HaltStopsDrain := by
  intro s i hr u mode
  have frame := State.sessionOnly_begun s i (op := 0x26) (by decide)
  have seq : u.seq = { s.seq with haltCmds := s.seq.haltCmds ++ [s.nextId] } :=
    congrArg (fun q : Seq => { q with haltCmds := q.haltCmds ++ [s.nextId] }) frame.seq
  rw [exec_haltDrain hr]
  refine ⟨fun hhalted => ?halted, fun hruns => ?runs⟩
  case halted =>
    refine ⟨_, congrArg Host.Outcome.next (if_pos (frame.drainHalted.trans hhalted)), ?_⟩
    rw [frame.seq]
    exact State.begun_finish hr (by decide) _
  case runs =>
    have halts : bodyHaltDrain (s.issued 0x26 i) (s.begun 0x26 i) = u.halt (Fin.ofNat 3 mode) :=
      if_neg (Bool.eq_false_iff.mp (frame.drainHalted.trans hruns))
    have runs : u.drainHalted = false := (show u.drainHalted = (s.begun 0x26 i).drainHalted from rfl).trans
      (frame.drainHalted.trans hruns)
    rw [halts]
    refine ⟨fun h0 => ?_, fun h1 => ?_, fun h2 => ?_⟩
    · rw [h0, show Fin.ofNat 3 0 = 0 from rfl, State.halt_zero, seq]
      exact ⟨fun hd => congrArg Host.Outcome.next (if_neg (by rw [hd]; decide)),
        fun hd => congrArg Host.Outcome.next (if_pos hd)⟩
    · rw [h1, show Fin.ofNat 3 1 = 1 from rfl, State.halt_one, seq]
      exact ⟨fun hd => congrArg Host.Outcome.next (if_pos hd), fun hd => congrArg Host.Outcome.next (if_neg hd)⟩
    · rw [h2, show Fin.ofNat 3 2 = 2 from rfl, State.halt_two]
      obtain ⟨halted, pages, slots, gone, raster, ks, chans⟩ := State.haltNow_effect runs
      rw [seq] at pages gone
      refine ⟨_, rfl, halted, pages, slots, gone s.nextId (List.mem_append_right _ List.mem_cons_self), ?_, ?_, fun k => ?_⟩
      · exact raster.trans frame.raster
      · exact ks.trans frame.ks
      · refine (chans k).trans ?_
        exact congrArg (fun v : Vector Chan 2 => ({ v[k] with due := u.haltNow.chans[k].due } : Chan)) frame.chans

/-- Settles O26: a cancellation takes queued pages only, a drain that is HALTED starts, and a halt stops the one that runs. -/
theorem pageQueueCommands : Obligations.PageQueueCommands := ⟨cancelTakesQueuedPages, runStartsDrain, haltStopsDrain⟩

end Sys2Proof.Machine
end

section
/-! SUPPORT. POWER_POLICY and QUENCH_RELEASE (R77, R366, R367, R393, R394). -/

namespace Sys2Proof.Machine

namespace State

/-! ### POWER_POLICY -/

/-- The channels as each has to move: toward self-refresh, or out of it. -/
def steered (s : State) : Vector Chan 2 :=
  Vector.ofFn fun c : Fin 2 => if s.inUse c then s.steerChan s.chans[c] c else s.chans[c]

theorem steer_eq (s : State) : s.steer = { s with chans := s.steered } := rfl

theorem steerChan_st (s : State) (ch : Chan) (c : ChanId) : s.steerChan ch c = { ch with st := (s.steerChan ch c).st } := by
  unfold steerChan
  split <;> try split
  all_goals rfl

/-- A channel that moves as it must changes in its state only. -/
theorem steered_st (s : State) (k : ChanId) : s.steered[k] = { s.chans[k] with st := s.steered[k].st } := by
  have moved : s.steered[k] = if s.inUse k then s.steerChan s.chans[k] k else s.chans[k] := Vector.getElem_ofFn ..
  rw [moved]
  split
  · exact steerChan_st ..
  · rfl

/-- The policy of a POWER_POLICY, with the switches that it queues and the command that waits for them (R77, R393). -/
def withPolicy (s : State) (c : Cmd) (todo : List (DomainId × Bool)) (cmd : Option Nat) : State :=
  s.updPower fun p => { p with
    pdIdle := c.f 1 0 1 == 1, srIdle := c.f 1 1 1 == 1, srDelay := c.p 2, todo := todo, cmd := cmd, cause := 0 }

end State

theorem exec_powerPolicy {s : State} {i : Issue} (hr : s.runs 0x45 i = true) :
    exec (.powerPolicy i) s = .next (bodyPowerPolicy (s.issued 0x45 i) (s.begun 0x45 i)) :=
  congrArg Host.Outcome.next (State.submit_runs bodyPowerPolicy hr)

/-- The domains that a request switches off, off before on (R393). -/
def Cmd.offs (c : Cmd) (s : State) : List DomainId :=
  ([7, 6, 5, 4, 3] : List DomainId).filter fun d => s.domainOn d.val && !(c.f 0 d.val 1 == 1)

/-- The domains that a request switches on. -/
def Cmd.ons (c : Cmd) (s : State) : List DomainId :=
  ([3, 4, 5, 6, 7] : List DomainId).filter fun d => !s.domainOn d.val && c.f 0 d.val 1 == 1

theorem bodyPowerPolicy_eq (c : Cmd) (s : State) : bodyPowerPolicy c s =
    if !((c.offs s).all s.mayLeave) || (s.stopRan && c.ons s != []) then s.finish c.id { status := .resourceConflict }
    else if c.offs s ++ c.ons s = [] then
      ((s.withPolicy c (((c.offs s).map fun d => (d, false)) ++ (c.ons s).map fun d => (d, true)) (some c.id)).updPower
        fun p => { p with cmd := none }).finish c.id { r0 := s.power.on.toNat }
    else (s.withPolicy c (((c.offs s).map fun d => (d, false)) ++ (c.ons s).map fun d => (d, true)) (some c.id)).steer := rfl

theorem powerPolicyQueuesSwitches : Clause.PowerPolicyQueuesSwitches := by
  intro s i hr c offs ons may policy
  have frame := State.sessionOnly_begun s i (op := 0x45) (by decide)
  have offs_eq : c.offs (s.begun 0x45 i) = offs := frame.same c.offs fun _ _ _ _ _ _ => rfl
  have ons_eq : c.ons (s.begun 0x45 i) = ons := frame.same c.ons fun _ _ _ _ _ _ => rfl
  have stop_eq : (s.begun 0x45 i).stopRan = s.stopRan := frame.same State.stopRan fun _ _ _ _ _ _ => rfl
  rw [exec_powerPolicy hr, bodyPowerPolicy_eq, offs_eq, ons_eq, stop_eq, frame.power]
  have may_not : (!offs.all (s.begun 0x45 i).mayLeave || s.stopRan && ons != []) = !may := by simp [may]
  rw [may_not]
  refine ⟨fun hno => ?refused, fun hmay hnone => ?none, fun hmay hsome => ?some⟩
  case refused =>
    exact ⟨_, congrArg Host.Outcome.next (if_pos (by simp [hno])), State.begun_finish hr (by decide) _⟩
  case none =>
    obtain ⟨hoffs, hons⟩ := List.append_eq_nil_iff.mp hnone
    rw [if_neg (by simp [hmay]), if_pos hnone, hoffs, hons]
    obtain ⟨answered, only⟩ := State.begun_map_finish hr (by decide) (fun x => (x.withPolicy c [] none))
      (fun _ _ _ _ _ _ => rfl) { r0 := s.power.on.toNat }
    have power := only.power
    refine ⟨_, rfl, answered, power, ?_⟩
    exact power ▸ only
  case some =>
    rw [if_neg (by simp [hmay]), if_neg hsome]
    refine ⟨_, rfl, ?_⟩
    rw [State.steer_eq]
    generalize hu : (s.begun 0x45 i).withPolicy c ((offs.map fun d => (d, false)) ++ ons.map fun d => (d, true)) (some c.id) = u
    have changed : (s.withPolicy c ((offs.map fun d => (d, false)) ++ ons.map fun d => (d, true)) (some c.id)).SessionOnly u :=
      hu ▸ frame.map (fun x => x.withPolicy c ((offs.map fun d => (d, false)) ++ ons.map fun d => (d, true)) (some c.id))
        (fun _ _ _ _ _ _ => rfl) rfl rfl
    have power := changed.power
    have chans : u.chans = s.chans := changed.chans
    have cmds : u.cmds = s.cmds ++ [{ c with prog := .event }] := hu ▸ rfl
    refine ⟨power, cmds, fun k => ?_, ?_⟩
    · exact (u.steered_st k).trans (congrArg (fun v : Vector Chan 2 => ({ v[k] with st := u.steered[k].st } : Chan)) chans)
    · have moved := changed.map (fun x => { x with chans := u.steered }) (fun _ _ _ _ _ _ => rfl) rfl rfl
      exact power ▸ moved

/-! ### QUENCH_RELEASE -/

namespace State

/-- The channels go on as given after a release, and the release is recorded (R367). -/
def goOnAs (s : State) (scope : Nat) (chans : Vector Chan 2) : State :=
  ({ s with sr := { s.sr with idle := false, wanted := false }, chans := chans } : State).logInteg 0x0D04
    (if scope < 2 then scope else 0xFF) 0xFF 1 0 (scope + 256 * s.quench.cause + 2 ^ 16 * ((s.quench.captured + 255) % 256))

/-- The channels go on as they must after a release, and the release is recorded (R367). -/
def goOn (s : State) (scope : Nat) : State :=
  s.goOnAs scope ({ s with sr := { s.sr with idle := false, wanted := false } } : State).steered

/-- The release of one channel, with the event that tells of it. -/
theorem begun_releases {s : State} {op : Byte} {i : Issue} (hr : s.runs op i = true) {u v : State}
    (frame : v.SessionOnly u) (hcmds : u.cmds = (s.begun op i).cmds) (hhosts : u.hosts = (s.begun op i).hosts)
    (hout : u.out = (s.begun op i).out) :
    s.Answered ((u.raise 63).finish s.nextId {}) i {} ∧ v.SessionOnly ((u.raise 63).finish s.nextId {}) := by
  have raised := raised_raise u 63
  obtain ⟨xs, hxs⟩ := raised.out
  obtain ⟨answered, only, -⟩ := begun_report hr (xs := xs) {} (frame.trans raised.sessionOnly) (raised.cmds.trans hcmds)
    ((raised.queue i.host i.queue).trans (congrArg (fun h : Vector HostRec 4 => h[i.host].queues[i.queue]) hhosts))
    (hxs.trans (congrArg (xs ++ ·) hout))
  exact ⟨answered, only⟩

theorem SessionOnly.sr {s t : State} (a : SessionOnly s t) : t.sr = s.sr := a.same State.sr fun _ _ _ _ _ _ => rfl

theorem SessionOnly.inUse {s t : State} (a : SessionOnly s t) (c : ChanId) : t.inUse c = s.inUse c :=
  a.same (fun x => x.inUse c) fun _ _ _ _ _ _ => rfl

/-- What neither the pool, nor the channels and their banks, nor the state of quench take part in. -/
def sessionView (s : State) : List Cmd × Vector HostRec 4 × List Out × Raster × Seq × Vector Link 32 :=
  (s.cmds, s.hosts, s.out, s.raster, s.seq, s.links)

/-- The pool of links and engines as it is when nothing is fired: the pages are gone, with their slots (R367). -/
def emptied (s : State) : State :=
  let s1 := s.dropPages fun _ => true
  { s1 with
    links := s1.links.map fun (l : Link) => { l with fetch := {}, slots := [] }
    engines := s1.engines.map fun (e : Engine) => { e with dec := {}, input := [] } }

theorem clearPool_eq (s : State) : s.clearPool = s.emptied.chansInUse.foldl (fun acc c => acc.builtinBanks c) s.emptied := rfl

theorem clearPool_view (s : State) : s.clearPool.sessionView = s.emptied.sessionView := by
  rw [clearPool_eq]
  exact foldl_same State.sessionView (fun acc c => acc.builtinBanks c) (fun _ _ => rfl) _ _

/-- The channels in use leave quench. -/
def unquenched (s : State) (cs : List ChanId) : State := cs.foldl (fun acc k => acc.unquench k) s

theorem unquenched_view (s : State) (cs : List ChanId) : (s.unquenched cs).sessionView = s.sessionView :=
  foldl_same State.sessionView (fun acc k => acc.unquench k) (fun _ _ => rfl) cs s

theorem unquench_chans (s : State) (c k : ChanId) :
    (s.unquench c).quench.chans[k] = if c = k then false else s.quench.chans[k] := by
  have chans : (s.unquench c).quench.chans = vset s.quench.chans c false := rfl
  rw [chans]
  split
  · next e =>
    subst e
    exact vset_same ..
  · next e => exact vset_other _ _ _ _ e

theorem unquench_device (s : State) (c : ChanId) : (s.unquench c).quench.device = s.quench.device := rfl

theorem unquenched_stays {s : State} {k : ChanId} (hk : s.quench.chans[k] = false) (cs : List ChanId) :
    (s.unquenched cs).quench.chans[k] = false := by
  induction cs generalizing s with
  | nil => exact hk
  | cons c cs ih =>
    refine ih ?_
    rw [unquench_chans]
    split
    · rfl
    · exact hk

/-- Every channel that leaves quench is quenched no more. -/
theorem unquenched_chans {s : State} {k : ChanId} {cs : List ChanId} (hk : k ∈ cs) :
    (s.unquenched cs).quench.chans[k] = false := by
  induction cs generalizing s with
  | nil => exact absurd hk List.not_mem_nil
  | cons c cs ih =>
    rcases List.mem_cons.mp hk with rfl | later
    · exact unquenched_stays ((s.unquench_chans k k).trans (if_pos rfl)) cs
    · exact ih later

theorem unquenched_device (s : State) (cs : List ChanId) : (s.unquenched cs).quench.device = s.quench.device :=
  foldl_same (fun t : State => t.quench.device) (fun acc k => acc.unquench k) (fun _ _ => rfl) cs s

/-- The device is quenched no more, and its pool is empty. -/
def restarted (s : State) : State := { s.clearPool with quench := { s.quench with device := false } }

/-- The release of the device (R366, R367). -/
def deviceReleased (s : State) : State := (s.restarted.unquenched s.restarted.chansInUse).goOn 2

theorem goOn_view (s : State) (scope : Nat) : (s.goOn scope).sessionView = s.sessionView := rfl

theorem goOn_quench (s : State) (scope : Nat) : (s.goOn scope).quench = s.quench := rfl

theorem restarted_view (s : State) : s.restarted.sessionView = s.emptied.sessionView :=
  (show s.restarted.sessionView = s.clearPool.sessionView from rfl).trans s.clearPool_view

theorem deviceReleased_view (s : State) : s.deviceReleased.sessionView = s.emptied.sessionView := by
  rw [deviceReleased, goOn_view, unquenched_view, restarted_view]

theorem emptied_slots (s : State) (n : LinkId) : s.emptied.links[n].slots = [] := by
  have links : s.emptied.links = ((s.dropPages fun _ => true).links.map fun (l : Link) => { l with fetch := {}, slots := [] }) :=
    rfl
  rw [links]
  exact congrArg Link.slots (Vector.getElem_map ..)

theorem emptied_pages (s : State) : s.emptied.seq.pages = [] := by
  have pages : s.emptied.seq.pages = s.seq.pages.filter fun _ => false := rfl
  rw [pages]
  exact List.filter_eq_nil_iff.mpr fun _ _ => Bool.false_ne_true

theorem restarted_chansInUse (s : State) : s.restarted.chansInUse = s.chansInUse := by
  have raster : s.restarted.raster = s.raster := congrArg (fun v => v.2.2.2.1) s.restarted_view
  exact congrArg (fun r : Raster => ([0, 1] : List ChanId).filter fun c => !r.single || r.only == c) raster

/-- The release of the device changes the session in nothing, empties the queue of pages and the links' slots, and takes every
channel in use out of quench. -/
theorem deviceReleased_effect (s : State) :
    (s.deviceReleased.cmds = s.cmds ∧ s.deviceReleased.hosts = s.hosts ∧ s.deviceReleased.out = s.out) ∧
    (s.deviceReleased.seq.pages = [] ∧ (∀ n : LinkId, s.deviceReleased.links[n].slots = []) ∧
      s.deviceReleased.raster = s.raster) ∧
    s.deviceReleased.quench.device = false ∧
      ∀ c, s.inUse c = true → s.deviceReleased.quench.chans[c] = false := by
  obtain ⟨cmds, hosts, out, raster, seq, links⟩ : s.deviceReleased.cmds = s.emptied.cmds ∧
      s.deviceReleased.hosts = s.emptied.hosts ∧ s.deviceReleased.out = s.emptied.out ∧
      s.deviceReleased.raster = s.emptied.raster ∧ s.deviceReleased.seq = s.emptied.seq ∧
      s.deviceReleased.links = s.emptied.links := by
    simpa only [sessionView, Prod.ext_iff] using s.deviceReleased_view
  refine ⟨⟨cmds, hosts, out⟩, ⟨?_, fun n => ?_, raster⟩, ?_, fun c hc => ?_⟩
  · rw [seq, emptied_pages]
  · rw [links, emptied_slots]
  · rw [deviceReleased, goOn_quench, unquenched_device]
    rfl
  · rw [deviceReleased, goOn_quench, restarted_chansInUse]
    refine unquenched_chans (List.mem_filter.mpr ⟨?_, hc⟩)
    fin_cases c <;> simp

end State

theorem exec_quenchRelease {s : State} {i : Issue} (hr : s.runs 0x54 i = true) :
    exec (.quenchRelease i) s = .next (bodyQuenchRelease (s.issued 0x54 i) (s.begun 0x54 i)) :=
  congrArg Host.Outcome.next (State.submit_runs bodyQuenchRelease hr)

theorem bodyQuenchRelease_device {c : Cmd} (hk : c.f 0 0 2 = 2) (s : State) : bodyQuenchRelease c s =
    if !s.quench.device then s.finish c.id { status := .invalidField, detail := 0x8008 }
    else (s.deviceReleased.raise 63).finish c.id {} := by
  unfold bodyQuenchRelease
  rw [hk]
  rfl

theorem bodyQuenchRelease_chan {c : Cmd} (hk : c.f 0 0 2 < 2) (s : State) : bodyQuenchRelease c s =
    if s.quench.device || !s.quench.chans[(Fin.ofNat 2 (c.f 0 0 2) : ChanId)] then
      s.finish c.id { status := .invalidField, detail := 0x8008 }
    else (((s.unquench (Fin.ofNat 2 (c.f 0 0 2))).goOn (c.f 0 0 2)).raise 63).finish c.id {} := by
  unfold bodyQuenchRelease
  split
  · next h => omega
  · rfl

theorem releaseEndsQuench : Clause.ReleaseEndsQuench := by
  intro s i hr k ch refused
  have frame := State.sessionOnly_begun s i (op := 0x54) (by decide)
  have refuses (h : bodyQuenchRelease (s.issued 0x54 i) (s.begun 0x54 i) =
      (s.begun 0x54 i).finish s.nextId { status := .invalidField, detail := 0x8008 }) : refused :=
    ⟨_, (exec_quenchRelease hr).trans (congrArg Host.Outcome.next h), State.begun_finish hr (by decide) _⟩
  have quiet (h : s.quench.device = true ∨ s.quench.chans[ch] = false) : (s.quench.device || !s.quench.chans[ch]) = true := by
    simpa using h
  refine ⟨fun hk hquiet => ?chan_refused, fun hk hdev hch => ?chan, fun hk hdev => ?refused, fun hk hdev => ?device⟩
  case chan_refused =>
    refine refuses ((bodyQuenchRelease_chan hk _).trans (if_pos ?_))
    rw [frame.quench]
    exact quiet hquiet
  case chan =>
    have runs : ¬(s.quench.device || !s.quench.chans[ch]) = true := by simp [hdev, hch]
    generalize hv : ({ (s.begun 0x54 i).unquench ch with
      sr := { ((s.begun 0x54 i).unquench ch).sr with idle := false, wanted := false } } : State).steered = v
    have goes_on : ((s.begun 0x54 i).unquench ch).goOn k = ((s.begun 0x54 i).unquench ch).goOnAs k v := by rw [State.goOn, hv]
    obtain ⟨answered, only⟩ := State.begun_releases hr
      (frame.map (fun x => (x.unquench ch).goOnAs k v) (fun _ _ _ _ _ _ => rfl) rfl rfl) rfl rfl rfl
    rw [← goes_on] at answered only
    have releases : exec (.quenchRelease i) s = .next (((((s.begun 0x54 i).unquench ch).goOn k).raise 63).finish s.nextId {}) :=
      (exec_quenchRelease hr).trans (congrArg Host.Outcome.next
        ((bodyQuenchRelease_chan hk _).trans (if_neg (frame.quench ▸ runs))))
    refine ⟨_, releases, answered, only.quench, ?_, ?_⟩
    · exact congrArg SelfRef.idle only.sr
    · have only_chans := only.chans
      have only_quench := only.quench
      have only_logs := only.logs
      have only_sr := only.sr
      rw [only_chans, only_quench, only_logs, only_sr]
      exact only
  case refused => exact refuses ((bodyQuenchRelease_device hk _).trans (if_pos (by rw [frame.quench, hdev]; rfl)))
  case device =>
    have runs : ¬(!s.quench.device) = true := by simp [hdev]
    obtain ⟨session, pool, quenched⟩ := State.deviceReleased_effect (s.begun 0x54 i)
    obtain ⟨cmds, hosts, out⟩ := session
    obtain ⟨pages, slots, raster⟩ := pool
    obtain ⟨answered, only⟩ := State.begun_releases hr (State.SessionOnly.refl (s.begun 0x54 i).deviceReleased) cmds hosts out
    have releases : exec (.quenchRelease i) s = .next (((s.begun 0x54 i).deviceReleased.raise 63).finish s.nextId {}) :=
      (exec_quenchRelease hr).trans (congrArg Host.Outcome.next
        ((bodyQuenchRelease_device hk _).trans (if_neg (frame.quench ▸ runs))))
    refine ⟨_, releases, answered, ?_, fun c hc => ?_, ?_, fun n => ?_, ?_⟩
    · exact (congrArg Quench.device only.quench).trans quenched.1
    · exact (congrArg (fun q : Quench => q.chans[c]) only.quench).trans (quenched.2 c (frame.inUse c ▸ hc))
    · exact (congrArg Seq.pages only.seq).trans pages
    · exact (congrArg (fun l : Vector Link 32 => l[n].slots) only.links).trans (slots n)
    · exact only.raster.trans (raster.trans frame.raster)

/-- Settles O31: a POWER_POLICY by what it switches, and a QUENCH_RELEASE by what it names. -/
theorem powerAndQuench : Obligations.PowerAndQuench := ⟨powerPolicyQueuesSwitches, releaseEndsQuench⟩

end Sys2Proof.Machine
end

section
/-! SUPPORT. The registers of a queue: doorbells and Q_CONTROL (R49, R50, R52, R66). -/

namespace Sys2Proof.Machine

/-! ### Words written to a queue's registers -/

theorem bits_toNat (v : Dword) (lo w : Nat) : bits v.toNat lo w = (v.extractLsb' lo w).toNat := by
  rw [bits, BitVec.extractLsb'_toNat, Nat.shiftRight_eq_div_pow]

/-- A field of a word does not see the bits set outside it. -/
theorem bits_or (v m : Dword) {lo w : Nat} (hm : m.extractLsb' lo w = 0) : bits (v ||| m).toNat lo w = bits v.toNat lo w := by
  rw [bits_toNat, bits_toNat, BitVec.extractLsb'_or, hm]
  exact congrArg BitVec.toNat BitVec.or_zero

/-- A field of a word does not see the bits cleared outside it. -/
theorem bits_and (v m : Dword) {lo w : Nat} (hm : m.extractLsb' lo w = BitVec.allOnes w) :
    bits (v &&& m).toNat lo w = bits v.toNat lo w := by
  rw [bits_toNat, bits_toNat, BitVec.extractLsb'_and, hm, BitVec.and_allOnes]

theorem ofNat_bits_vector (n : Nat) : Fin.ofNat 32 (bits n 20 5) = Fin.ofNat 32 (n / 2 ^ 20) :=
  Fin.ext (Nat.mod_mod _ 32)

/-- The settings of a queue that every write of Q_CONTROL takes (R49). -/
def Queue.configured (k : Queue) (v : Dword) : Queue :=
  { k with vector := Fin.ofNat 32 (v.toNat / 2 ^ 20), notifyAll := v.getLsbD 25 }

/-- A write of Q_CONTROL with ENABLE 1 (R50). -/
theorem Queue.control_enable (k : Queue) (v : Dword) (may : Bool) : k.control (v ||| 0x80000000) may =
    if k.enable then (if k.disabling then { k.configured v with configError := true } else k.configured v)
    else if may && decide (2 ≤ v.toNat % 512) && decide (v.toNat % 512 ≤ 256) then
      { k.configured v with
        size := v.toNat % 512, enable := true, sqHead := 0, sqTail := 0, cqHead := 0, cqTail := 0, phase := true }
    else { k.configured v with size := v.toNat % 512, configError := true } := by
  have on : (v ||| 0x80000000).getLsbD 31 = true := by simp
  have notify : (v ||| 0x80000000).getLsbD 25 = v.getLsbD 25 := by simp
  have size : bits (v ||| 0x80000000).toNat 0 9 = v.toNat % 512 :=
    (bits_or v _ (by decide)).trans (by rw [bits, pow_zero, Nat.div_one]; rfl)
  have vector : Fin.ofNat 32 (bits (v ||| 0x80000000).toNat 20 5) = Fin.ofNat 32 (v.toNat / 2 ^ 20) := by
    rw [bits_or v _ (by decide), ofNat_bits_vector]
  unfold Queue.control Queue.configured
  simp only [on, notify, size, vector, Bool.not_true, Bool.false_eq_true, if_true, if_false]

/-- A write of Q_CONTROL with ENABLE 0 (R50). -/
theorem Queue.control_disable (k : Queue) (v : Dword) (may : Bool) : k.control (v &&& 0x7FFFFFFF) may =
    if k.enable then { k.configured v with disabling := true } else { k.configured v with size := v.toNat % 512 } := by
  have off : (v &&& 0x7FFFFFFF).getLsbD 31 = false := by simp
  have notify : (v &&& 0x7FFFFFFF).getLsbD 25 = v.getLsbD 25 := by simp
  have size : bits (v &&& 0x7FFFFFFF).toNat 0 9 = v.toNat % 512 :=
    (bits_and v _ (by decide)).trans (by rw [bits, pow_zero, Nat.div_one]; rfl)
  have vector : Fin.ofNat 32 (bits (v &&& 0x7FFFFFFF).toNat 20 5) = Fin.ofNat 32 (v.toNat / 2 ^ 20) := by
    rw [bits_and v _ (by decide), ofNat_bits_vector]
  unfold Queue.control Queue.configured
  simp only [off, notify, size, vector, Bool.not_false, Bool.false_eq_true, if_true, if_false]

namespace State

/-! ### A queue and its doorbells -/

theorem queue_updQueue (s : State) (h : HostId) (q : QueueId) (f : Queue → Queue) :
    (s.updQueue h q f).queue h q = f (s.queue h q) := by
  simp [queue, updQueue]

theorem updQueue_congr {s : State} {h : HostId} {q : QueueId} {f g : Queue → Queue} (e : f (s.queue h q) = g (s.queue h q)) :
    s.updQueue h q f = s.updQueue h q g :=
  updHost_congr (congrArg (fun k => ({ s.hosts[h] with queues := vset s.hosts[h].queues q k } : HostRec)) e)

theorem updQueue_updQueue (s : State) (h : HostId) (q : QueueId) (f g : Queue → Queue) :
    (s.updQueue h q f).updQueue h q g = s.updQueue h q fun k => g (f k) := by
  rw [updQueue, updQueue, updHost_updHost]
  exact updHost_congr (by simp [vmod, vset])

theorem takesTail_iff {k : Queue} {i : Nat} : k.takesTail i = true ↔ k.enable = true ∧ i < k.size ∧
    (k.sqTail + k.size - k.sqHead) % k.size ≤ (i + k.size - k.sqHead) % k.size := by
  simp [Queue.takesTail, and_assoc]

theorem takesHead_iff {k : Queue} {i : Nat} : k.takesHead i = true ↔ k.enable = true ∧ i < k.size ∧
    (i + k.size - k.cqHead) % k.size ≤ (k.cqTail + k.size - k.cqHead) % k.size := by
  simp [Queue.takesHead, and_assoc]

/-- A doorbell that is ignored sets DB_ERROR, is logged, and changes nothing else (R52). -/
theorem badDoorbell_logs (s : State) (h : HostId) (q : QueueId) (cq : Bool) (v : Dword) : s.badDoorbell h q cq v =
    { s.updQueue h q fun k => { k with dbError := true } with logs := (s.badDoorbell h q cq v).logs } := rfl

theorem writeTail_eq (s : State) (h : HostId) (q : QueueId) (v : Dword) : s.writeTail h q v =
    if (s.queue h q).takesTail (v.toNat % 256) then s.updQueue h q fun k => { k with sqTail := v.toNat % 256 }
    else s.badDoorbell h q false v := by
  simp only [writeTail, bits, pow_zero, Nat.div_one, Nat.reducePow]

theorem writeHead_eq (s : State) (h : HostId) (q : QueueId) (v : Dword) : s.writeHead h q v =
    if (s.queue h q).takesHead (v.toNat % 256) then s.updQueue h q fun k => { k with cqHead := v.toNat % 256 }
    else s.badDoorbell h q true v := by
  simp only [writeHead, bits, pow_zero, Nat.div_one, Nat.reducePow]

/-! ### Q_CONTROL -/

/-- A queue that changes without a command in flight leaves service when it is on its way out (R50). -/
theorem settleDisable_updQueue_idle {s : State} {h : HostId} {q : QueueId} {f : Queue → Queue}
    (hd : (f (s.queue h q)).disabling = true) (hidle : s.queueFlight h q = 0) : (s.updQueue h q f).settleDisable h q =
      s.updQueue h q fun k => { f k with enable := false, disabling := false } := by
  have flight : (s.updQueue h q f).queueFlight h q = s.queueFlight h q := rfl
  rw [settleDisable, queue_updQueue, flight, hd, hidle, if_pos (by rfl), updQueue_updQueue]

/-- A queue that is not on its way out, or that has commands in flight, changes and stays. -/
theorem settleDisable_updQueue_stays {s : State} {h : HostId} {q : QueueId} {f : Queue → Queue}
    (hs : (f (s.queue h q)).disabling = false ∨ s.queueFlight h q ≠ 0) :
    (s.updQueue h q f).settleDisable h q = s.updQueue h q f := by
  have flight : (s.updQueue h q f).queueFlight h q = s.queueFlight h q := rfl
  rw [settleDisable, queue_updQueue, flight]
  refine if_neg fun both => ?_
  obtain ⟨disabling, idle⟩ := Bool.and_eq_true_iff.mp both
  rcases hs with hno | hbusy
  · exact Bool.false_ne_true (hno.symm.trans disabling)
  · exact hbusy (beq_iff_eq.mp idle)

end State

theorem exec_sqTail {s : State} {h : HostId} (ht : s.takesWrite h = true) (q : QueueId) (v : Dword) :
    exec (.sqTail h q v) s = .next (s.writeTail h q v) :=
  congrArg Host.Outcome.next (State.writeAs_taken ht fun t => t.writeTail h q v)

theorem exec_cqHead {s : State} {h : HostId} (ht : s.takesWrite h = true) (q : QueueId) (v : Dword) :
    exec (.cqHead h q v) s = .next (s.writeHead h q v) :=
  congrArg Host.Outcome.next (State.writeAs_taken ht fun t => t.writeHead h q v)

theorem exec_queueEnable {s : State} {h : HostId} (ht : s.takesWrite h = true) (q : QueueId) (v : Dword) :
    exec (.queueEnable h q v) s = .next ((s.updQueue h q fun k =>
      k.control (v ||| 0x80000000) (!s.banked || q == 0)).settleDisable h q) :=
  congrArg Host.Outcome.next (State.writeAs_taken ht fun t => t.writeControl h q (v ||| 0x80000000))

theorem exec_queueDisable {s : State} {h : HostId} (ht : s.takesWrite h = true) (q : QueueId) (v : Dword) :
    exec (.queueDisable h q v) s = .next ((s.updQueue h q fun k =>
      k.control (v &&& 0x7FFFFFFF) (!s.banked || q == 0)).settleDisable h q) :=
  congrArg Host.Outcome.next (State.writeAs_taken ht fun t => t.writeControl h q (v &&& 0x7FFFFFFF))

theorem doorbellsMove : Clause.DoorbellsMove := by
  intro s h q v ht k i tail head ignored
  rw [exec_sqTail ht, exec_cqHead ht, State.writeTail_eq, State.writeHead_eq]
  have ignores {x : Instr} (cq : Bool) (hx : exec x s = .next (s.badDoorbell h q cq v)) : ignored x :=
    ⟨_, hx, s.badDoorbell_logs h q cq v⟩
  refine ⟨fun htail => ?_, fun hno => ?_, fun hhead => ?_, fun hno => ?_⟩
  · rw [if_pos (State.takesTail_iff.mpr htail)]
  · refine ignores false ?_
    rw [exec_sqTail ht, State.writeTail_eq, if_neg fun hyes => hno (State.takesTail_iff.mp hyes)]
  · rw [if_pos (State.takesHead_iff.mpr hhead)]
  · refine ignores true ?_
    rw [exec_cqHead ht, State.writeHead_eq, if_neg fun hyes => hno (State.takesHead_iff.mp hyes)]

/-- The queue that a write of Q_CONTROL reaches may be put into service in banked mode only when it is queue 0 (R66). -/
theorem mayEnable_iff (s : State) (q : QueueId) : (!s.banked || q == 0) = true ↔ (s.banked = true → q = 0) := by
  cases s.banked <;> simp

/-- A queue is neither in service nor on its way out: what a write of Q_CONTROL makes of it. -/
theorem Queue.control_enable_off {k : Queue} (hoff : k.enable = false) {v : Dword} {may : Bool} :
    k.control (v ||| 0x80000000) may =
      if may = true ∧ 2 ≤ v.toNat % 512 ∧ v.toNat % 512 ≤ 256 then { k.configured v with
        size := v.toNat % 512, enable := true, sqHead := 0, sqTail := 0, cqHead := 0, cqTail := 0, phase := true }
      else { k.configured v with size := v.toNat % 512, configError := true } := by
  rw [Queue.control_enable, if_neg (Bool.eq_false_iff.mp hoff)]
  simp only [Bool.and_eq_true, decide_eq_true_eq, and_assoc]

theorem queueControl : Clause.QueueControl := by
  intro s h q v ht k size may set
  rw [exec_queueEnable ht, exec_queueDisable ht]
  have stays {f g : Queue → Queue} (e : f k = g k) (hs : (g k).disabling = false ∨ s.queueFlight h q ≠ 0) :
      (Host.Outcome.next ((s.updQueue h q f).settleDisable h q) : Host.Outcome State Fault Refusal) =
        .next (s.updQueue h q g) := by
    rw [State.updQueue_congr e, State.settleDisable_updQueue_stays hs]
  refine ⟨fun hoff hkeeps => ⟨fun hmay => ?enable, fun hno => ?refused, ?size⟩,
    fun hon => ⟨fun hkeeps => ?again, fun hidle => ?leaves, fun hbusy => ⟨?leaving, fun hleaving => ?late⟩⟩⟩
  case enable =>
    refine stays ((Queue.control_enable_off hoff).trans (if_pos ?_)) (.inl hkeeps)
    exact ⟨(mayEnable_iff s q).mpr hmay.1, hmay.2⟩
  case refused =>
    refine stays ((Queue.control_enable_off hoff).trans (if_neg fun hyes => hno ?_)) (.inl hkeeps)
    exact ⟨(mayEnable_iff s q).mp hyes.1, hyes.2⟩
  case size => exact stays ((k.control_disable v _).trans (if_neg (Bool.eq_false_iff.mp hoff))) (.inl hkeeps)
  case again =>
    refine stays ((k.control_enable v _).trans ((if_pos hon).trans (if_neg (Bool.eq_false_iff.mp hkeeps)))) (.inl hkeeps)
  case leaves =>
    have leaving : k.control (v &&& 0x7FFFFFFF) (!s.banked || q == 0) = { k.configured v with disabling := true } :=
      (k.control_disable v _).trans (if_pos hon)
    rw [State.settleDisable_updQueue_idle (congrArg Queue.disabling leaving) hidle]
    exact congrArg Host.Outcome.next (State.updQueue_congr
      (congrArg (fun x : Queue => { x with enable := false, disabling := false }) leaving))
  case leaving => exact stays ((k.control_disable v _).trans (if_pos hon)) (.inr hbusy)
  case late => exact stays ((k.control_enable v _).trans ((if_pos hon).trans (if_pos hleaving))) (.inr hbusy)

/-- Settles O33: a doorbell by its range, and Q_CONTROL by what the queue does and what is written. -/
theorem queueRegisters : Obligations.QueueRegisters := ⟨doorbellsMove, queueControl⟩

end Sys2Proof.Machine
end

section
/-! SUPPORT. The rows of registers, of holdoffs and of pulses take effect (R9, R39, R44, R49 to R52, R96, R176, R349, R382,
R413, R416, R417, R420, R423). -/

namespace Sys2Proof.Machine

namespace State

/-! ### EVENT_MASK -/

/-- The bits of a 96-bit register that one of its words holds take the word written. -/
theorem putWord_getLsbD (old : BitVec 96) (m : Fin 3) (v : Dword) {n : Fin 96} (hn : n.val / 32 = m.val) :
    (putWord old m v).getLsbD n.val = v.getLsbD (n.val % 32) := by
  have place : n.val = 32 * m.val + n.val % 32 := by omega
  have below : n.val % 32 < 32 := Nat.mod_lt _ (by decide)
  have ones : (BitVec.ofNat 96 0xFFFFFFFF).getLsbD (n.val % 32) = true := by
    generalize n.val % 32 = j at below
    revert j
    decide
  have shift : n.val - 32 * m.val = n.val % 32 := by omega
  have high : ¬ n.val < 32 * m.val := by omega
  simp [putWord, shift, high, ones]

/-- The sources of a list that the part has, on top of others. -/
theorem foldl_present (p : Part) (l : List (Fin 96)) (b : BitVec 96) (n : Fin 96) :
    (l.foldl (fun b k => if p.neverAsserts k.val then b else b ||| BitVec.twoPow 96 k.val) b).getLsbD n.val =
      (b.getLsbD n.val || (decide (n ∈ l) && !p.neverAsserts n.val)) := by
  induction l generalizing b with
  | nil => simp
  | cons k l ih =>
    rw [List.foldl_cons, ih]
    by_cases e : n = k
    · subst e
      cases hnever : p.neverAsserts n.val <;> simp
    · have other : n.val ≠ k.val := fun h => e (Fin.ext h)
      split <;> simp [other, e]

/-- The sources that the part has (R4). -/
theorem presentSources_getLsbD (s : State) (n : Fin 96) : s.presentSources.getLsbD n.val = !s.part.neverAsserts n.val := by
  rw [presentSources, foldl_present]
  simp

/-- The mask of a host after a write of one of its words. -/
def masked (s : State) (h : HostId) (m : Fin 3) (v : Dword) : State :=
  s.updHost h fun r => { r with mask := putWord s.hosts[h].mask m v &&& s.presentSources }

/-- A write of EVENT_MASK sets the mask, and counts raises besides. -/
theorem raised_writeMask (s : State) (h : HostId) (m : Fin 3) (v : Dword) : Raised (s.masked h m v) (s.writeMask h m v) :=
  raised_foldl (fun acc n => acc.countRaise h (acc.vectorOf h n)) (fun t n => raised_countRaise t h (t.vectorOf h n)) _ _

theorem Raised.mask {s t : State} (a : Raised s t) (h : HostId) : t.hosts[h].mask = s.hosts[h].mask := by
  obtain ⟨hs, ev, o, rfl, ha⟩ := a
  obtain ⟨b, v, hb⟩ := ha h
  exact (congrArg HostRec.mask hb).trans rfl

theorem writeMask_mask (s : State) (h : HostId) (m : Fin 3) (v : Dword) {n : Fin 96} (hn : n.val / 32 = m.val) :
    (s.writeMask h m v).hosts[h].mask.getLsbD n.val = (!s.part.neverAsserts n.val && v.getLsbD (n.val % 32)) := by
  have mask : (s.masked h m v).hosts[h].mask = putWord s.hosts[h].mask m v &&& s.presentSources := by simp [masked]
  rw [(s.raised_writeMask h m v).mask h, mask, BitVec.getLsbD_and, putWord_getLsbD _ m v hn, presentSources_getLsbD,
    Bool.and_comm]

/-! ### EVENT_ROUTE -/

/-- The steward sets the entry of a source to its own host of the role (R413). -/
theorem writeRoute_steward {s : State} {h : HostId} {n : Fin 96} {v : Dword} (hs : s.isSteward h = true) (hn : 16 ≤ n.val)
    (hp : s.part.neverAsserts n.val = false) (ht : v.toNat / 256 % 8 = 4) :
    s.writeRoute h n v = { s with events := { s.events with
      routes := vset s.events.routes n { enable := v.getLsbD 31, target := 4, vector := Fin.ofNat 32 v.toNat } } } := by
  have target : bits v.toNat 8 3 = 4 := ht
  have vector : Fin.ofNat 32 (bits v.toNat 0 5) = Fin.ofNat 32 v.toNat := Fin.ext (by simp [bits])
  have low : ¬ n.val < 16 := by omega
  unfold writeRoute
  simp only [hs, hp, target, vector, if_neg low, Bool.not_true, Bool.false_eq_true, if_false, false_or, Nat.lt_irrefl,
    false_and]
  rfl

/-! ### Holdoffs and pulses -/

theorem holdoffEnd_idle {s : State} {h : HostId} {v : Fin 32} {e : Nat} (hu : s.hosts[h].vecs[v].until_ = some e)
    (he : e ≤ s.time) (hg : s.hosts[h].vecs[v].gathered = 0) :
    s.holdoffEnd h v = s.updVec h v fun y => { y with until_ := none } := by
  have late : ¬ s.time < e := by omega
  simp only [holdoffEnd, hu, hg, if_neg late, if_true]

theorem pulseEnd_due {s : State} {k : Fin 2} {b : Nat} (hb : s.events.pulse[k] = some b) (hd : b + 160000 ≤ s.time) :
    s.pulseEnd k = { s with events := { s.events with pulse := vset s.events.pulse k none } } := by
  have due : b + Config.usTau ≤ s.time := hd
  simp only [pulseEnd, hb, if_pos due]

end State

/-! ### Each group of rows -/

theorem exec_eventMaskWrite {s : State} {h : HostId} (ht : s.takesWrite h = true) (m : Fin 3) (v : Dword) :
    exec (.eventMaskWrite h m v) s = .next (s.writeMask h m v) :=
  congrArg Host.Outcome.next (State.writeAs_taken ht fun t => t.writeMask h m v)

theorem exec_eventRouteWrite {s : State} {h : HostId} (ht : s.takesWrite h = true) (n : Fin 96) (v : Dword) :
    exec (.eventRouteWrite h n v) s = .next (s.writeRoute h n v) :=
  congrArg Host.Outcome.next (State.writeAs_taken ht fun t => t.writeRoute h n v)

section
variable {s : State} {h : HostId} (ht : s.takesWrite h = true)
include ht

theorem queueRowsComplete (q : QueueId) (v : Dword) :
    let k := s.queue h q
    let i := v.toNat % 256
    (k.enable = true → i < k.size →
      ((k.sqTail + k.size - k.sqHead) % k.size ≤ (i + k.size - k.sqHead) % k.size → ∃ t,
        exec (.sqTail h q v) s = .next t ∧ (t.queue h q).sqTail = i) ∧
      ((i + k.size - k.cqHead) % k.size ≤ (k.cqTail + k.size - k.cqHead) % k.size → ∃ t,
        exec (.cqHead h q v) s = .next t ∧ (t.queue h q).cqHead = i)) ∧
    (s.banked = false → k.enable = false → k.disabling = false → 2 ≤ v.toNat % 512 → v.toNat % 512 ≤ 256 → ∃ t,
      exec (.queueEnable h q v) s = .next t ∧ (t.queue h q).enable = true ∧ (t.queue h q).size = v.toNat % 512) ∧
    (k.enable = true → s.queueFlight h q = 0 → ∃ t, exec (.queueDisable h q v) s = .next t ∧ (t.queue h q).enable = false) := by
  intro k i
  obtain ⟨tail, -, head, -⟩ := doorbellsMove s h q v ht
  obtain ⟨off, on⟩ := queueControl s h q v ht
  refine ⟨fun hon hi => ⟨fun hmoves => ?_, fun hmoves => ?_⟩, fun hb hoff hkeeps h2 h256 => ?_, fun hon hidle => ?_⟩
  · exact ⟨_, tail ⟨hon, hi, hmoves⟩, congrArg Queue.sqTail (s.queue_updQueue h q _)⟩
  · exact ⟨_, head ⟨hon, hi, hmoves⟩, congrArg Queue.cqHead (s.queue_updQueue h q _)⟩
  · refine ⟨_, (off hoff hkeeps).1 ⟨fun hyes => absurd (hb.symm.trans hyes) Bool.false_ne_true, h2, h256⟩, ?_, ?_⟩
    · exact congrArg Queue.enable (s.queue_updQueue h q _)
    · exact congrArg Queue.size (s.queue_updQueue h q _)
  · exact ⟨_, (on hon).2.1 hidle, congrArg Queue.enable (s.queue_updQueue h q _)⟩

theorem hostRowsComplete (v : Dword) (ha : s.attached h = true) :
    (∃ t, exec (.heartbeatRegisterWrite h v) s = .next t ∧ t.hosts[h].lastHb = s.time) ∧
      ∃ t, exec (.mailboxRing h v) s = .next t ∧ ∀ m : Fin 8, v.getLsbD m.val = true → t.events.from_[m] = some h := by
  obtain ⟨attached, late, -⟩ := heartbeatWrite s h v ht
  obtain ⟨t, hring, rings, -⟩ := (mailboxRings s h v ht).1 ha
  refine ⟨?_, t, hring, fun m hm => (rings m).trans (if_pos hm)⟩
  rcases State.attached_iff.mp ha with hst | hst
  · exact ⟨_, attached hst, by simp⟩
  · obtain ⟨u, hu, -, beat, -⟩ := late hst
    exact ⟨u, hu, beat⟩

theorem eventRowsComplete (v : Dword) :
    (∀ m : Fin 3, ∃ t, exec (.eventMaskWrite h m v) s = .next t ∧ ∀ n : Fin 96, n.val / 32 = m.val →
      t.hosts[h].mask.getLsbD n.val = (!s.part.neverAsserts n.val && v.getLsbD (n.val % 32))) ∧
    (s.isSteward h = true → ∀ n : Fin 96, 16 ≤ n.val → s.part.neverAsserts n.val = false → v.toNat / 256 % 8 = 4 → ∃ t,
      exec (.eventRouteWrite h n v) s = .next t ∧ t.events.routes[n].enable = v.getLsbD 31 ∧
      t.events.routes[n].target = 4 ∧ t.events.routes[n].vector = Fin.ofNat 32 v.toNat) := by
  refine ⟨fun m => ⟨_, exec_eventMaskWrite ht m v, fun n hn => s.writeMask_mask h m v hn⟩, fun hs n hn hp htarget => ?_⟩
  refine ⟨_, (exec_eventRouteWrite ht n v).trans (congrArg Host.Outcome.next (State.writeRoute_steward hs hn hp htarget)), ?_⟩
  have entry : (vset s.events.routes n ⟨v.getLsbD 31, 4, Fin.ofNat 32 v.toNat⟩)[n] = ⟨v.getLsbD 31, 4, Fin.ofNat 32 v.toNat⟩ :=
    vset_same ..
  exact ⟨congrArg Route.enable entry, congrArg Route.target entry, congrArg Route.vector entry⟩

/-- The registers of the steward block take effect on the steward's port. -/
theorem stewardRowsComplete (v : Dword) (hs : s.isSteward h = true) :
    (s.applyRefusal = 0 → ∃ t, exec (.apply h v) s = .next t ∧ t.raster.mask = s.raster.maskShadow) ∧
    (∃ t, exec (.clear h v) s = .next t ∧ ∀ (c : ChanId) (r : RankId),
      s.chans[c].ranks[r].st = .inService → s.migrating c = false → t.chans[c].ranks[r].health = .good) ∧
    (s.keyRefusal = none → s.ks.accepted = none → ∃ t, exec (.keystoneRegisterWrite h v) s = .next t ∧
      t.ks.seq = s.ks.seq + 1) ∧
    (s.changeRefusal = 0 → v.getLsbD 30 = false → v.getLsbD 31 = false →
      (∃ t ch, exec (.goMem h v) s = .next t ∧ t.clk.change = some ch ∧ ch.loop = 1) ∧
      ∃ t ch, exec (.goCore h v) s = .next t ∧ t.clk.change = some ch ∧ ch.loop = 0) := by
  obtain ⟨-, applies⟩ := applyTakesMap s h v ht
  obtain ⟨-, clears⟩ := clearMakesGood s h v ht
  obtain ⟨-, keys⟩ := keystoneWrite s h v ht
  obtain ⟨-, goes⟩ := goStartsChange s h v ht
  refine ⟨fun hok => ?_, ?_, fun hok hnone => ?_, fun hok h30 h31 => ⟨?_, ?_⟩⟩
  · obtain ⟨t, hx, -, raster, -⟩ := (applies hs).2 hok
    exact ⟨t, hx, congrArg Raster.mask raster⟩
  · obtain ⟨t, hx, -, good⟩ := clears hs
    refine ⟨t, hx, fun c r hin hidle => congrArg Rank.health ((good c r).1 ⟨.inl hin, fun both => ?_⟩)⟩
    exact Bool.false_ne_true (hidle.symm.trans both.1)
  · obtain ⟨-, waits, takes⟩ := keys hs
    cases hrun : s.coursesRun with
    | true =>
      obtain ⟨t, hx, -, number, -⟩ := waits hok hrun
      exact ⟨t, hx, number⟩
    | false =>
      obtain ⟨t, hx, -, number, -⟩ := takes hok hrun hnone
      exact ⟨t, hx, number⟩
  · obtain ⟨t, ch, hx, change, loop, -⟩ := (goes hs 1 (.goMem h v) (.inl ⟨rfl, rfl, h30⟩)).2 hok
    exact ⟨t, ch, hx, change, loop⟩
  · obtain ⟨t, ch, hx, change, loop, -⟩ := (goes hs 0 (.goCore h v) (.inr ⟨rfl, rfl, h31⟩)).2 hok
    exact ⟨t, ch, hx, change, loop⟩

end

/-- An aligned access to BAR0 writes its register, or reads it. -/
theorem accessRowsComplete {s : State} {h : HostId} (hp : s.reachesPort h = true) {off : BitVec 16} (ha : off.toNat % 4 = 0) :
    (∀ x, exec (.registerWrite h off false x) s = .next (s.write32 h off.toNat (x.extractLsb' 0 32))) ∧
    (s.coreRuns = true → s.dark h off.toNat = false → (∀ x ∈ s.hosts[h].latch, x.1 + 4 ≠ off.toNat) → ∃ t,
      exec (.registerPairRead h off false) s = .next t ∧ s.Sent t (.readData h (BitVec.ofNat 64 (s.readReg h off.toNat)))) := by
  refine ⟨fun x => ?_, fun hcore hdark hlatch => ?_⟩
  · obtain ⟨aligned, -⟩ := barAccesses s h off false x hp
    exact (aligned ha).1 rfl
  · obtain ⟨aligned, -⟩ := barAccesses s h off false 0 hp
    obtain ⟨-, -, -, -, -, reads⟩ := aligned ha
    obtain ⟨-, low, other⟩ := reads hcore rfl
    cases hpair : State.pairLow off.toNat with
    | true =>
      obtain ⟨t, hx, out, -⟩ := low hdark hpair
      exact ⟨t, hx, [_], out, List.mem_cons_self⟩
    | false => exact ⟨_, other hdark hpair hlatch, [_], rfl, List.mem_cons_self⟩

/-- Settles O56: each group of rows by the clause on its register, or by the equation of its case. -/
theorem registerRowsComplete : Obligations.RegisterRowsComplete := by
  intro s h q v k i
  refine ⟨fun hp hf hv => ?fence, fun ht => ?write, fun hp off ha => accessRowsComplete hp ha, fun hp => ?odd,
    fun hup w a => ?unsupported, fun x e hu he hg => ?holdoff, fun p b hb hd => ?pulse⟩
  case fence =>
    obtain ⟨t, hx, st, -⟩ := (fenceAckRecovers s h v hp).1 hf hv
    exact ⟨t, hx, st⟩
  case write =>
    obtain ⟨doorbells, enables, disables⟩ := queueRowsComplete ht q v
    obtain ⟨masks, routes⟩ := eventRowsComplete ht v
    refine ⟨doorbells, enables, disables, hostRowsComplete ht v, masks, fun hs => ⟨routes hs, ?_⟩⟩
    exact stewardRowsComplete ht v hs
  case odd =>
    obtain ⟨hup, hserves, hd0⟩ := State.reachesPort_iff.mp hp
    obtain ⟨served, -⟩ := oddAccesses s h false 1 2 0 hup
    obtain ⟨t, hx, -, out⟩ := (served hserves hd0 (by decide)).1 rfl
    exact ⟨t, hx, [_], out, List.mem_cons_self⟩
  case unsupported =>
    obtain ⟨-, -, answers, -⟩ := oddAccesses s h w 0 0 a hup
    exact answers
  case holdoff =>
    refine ⟨_, congrArg Host.Outcome.next (State.holdoffEnd_idle hu he hg), ?_⟩
    simp [State.updVec]
  case pulse =>
    exact ⟨_, congrArg Host.Outcome.next (State.pulseEnd_due hb hd), vset_same ..⟩

end Sys2Proof.Machine
end

section
/-! SUPPORT. Numbers of the commands in flight (R61, R65): what the operations on the session, the grid and the events keep. -/

namespace Sys2Proof.Machine

namespace State

/-! ### The numbers of commands in flight -/

theorem freshNumbers_of_nil {s : State} (none_left : s.cmds = []) : s.FreshNumbers := by
  rw [FreshNumbers, none_left]
  exact ⟨fun c hc => absurd hc List.not_mem_nil, .nil⟩

/-- Fewer commands in flight, and a next number that is no lower, stay fresh. -/
theorem FreshNumbers.of_sublist {s t : State} (fresh : s.FreshNumbers) (fewer : t.cmds.Sublist s.cmds)
    (later : s.nextId ≤ t.nextId) : t.FreshNumbers :=
  ⟨fun c hc => (fresh.1 c (fewer.subset hc)).trans_le later, fresh.2.sublist fewer⟩

/-- A change of any parts of the state but the commands in flight and the next number. -/
theorem FreshNumbers.same {s : State} (fresh : s.FreshNumbers) {part pending time free hosts role parts logs events ks
    raster strips comps compTurn writeback seq engines anvilExtra staging shares links web chans buckets sr quench refilled
    integTest clk boot power reads out} :
    FreshNumbers ⟨part, pending, time, free, hosts, role, parts, s.cmds, s.nextId, logs, events, ks, raster, strips, comps,
      compTurn, writeback, seq, engines, anvilExtra, staging, shares, links, web, chans, buckets, sr, quench, refilled,
      integTest, clk, boot, power, reads, out⟩ :=
  fresh

/-- A command in flight that keeps its number may change in all else. -/
theorem FreshNumbers.updCmd_mem {s : State} (fresh : s.FreshNumbers) {id : Nat} {f : Cmd → Cmd}
    (hf : ∀ c ∈ s.cmds, c.id = id → (f c).id = c.id) : (s.updCmd id f).FreshNumbers := by
  have number : ∀ c ∈ s.cmds, (if c.id = id then f c else c).id = c.id := by
    intro c hc
    split
    · next e => exact hf c hc e
    · rfl
  refine ⟨fun d hd => ?_, List.pairwise_map.mpr (fresh.2.imp_of_mem fun {a b} ha hb ne => ?_)⟩
  · obtain ⟨c, hc, rfl⟩ := List.mem_map.mp hd
    exact (number c hc).trans_lt (fresh.1 c hc)
  · rw [number a ha, number b hb]
    exact ne

/-- One of two states is as fresh as both. -/
theorem FreshNumbers.ite {p : Prop} [Decidable p] {t u : State} (ht : t.FreshNumbers) (hu : u.FreshNumbers) :
    (if p then t else u).FreshNumbers := by
  split
  · exact ht
  · exact hu

/-- Changes each of which keeps the numbers fresh do so together. -/
theorem FreshNumbers.foldl {α : Type} {s : State} (fresh : s.FreshNumbers) {f : State → α → State} {l : List α}
    (hf : ∀ t x, t.FreshNumbers → (f t x).FreshNumbers) : (l.foldl f s).FreshNumbers := by
  induction l generalizing s with
  | nil => exact fresh
  | cons x l ih => exact ih (hf s x fresh)

/-! One lemma for each operation of the model, in the order of the model's files, and under its name: it keeps the
numbers fresh. A proof follows the operation's own definition. Commands come into flight in `fetched` alone; `updCmd`,
`dropCmd`, `start`, `hostData` and `resetLogic` are the others that touch them. -/

section
variable {s : State} (fresh : s.FreshNumbers)
include fresh

/-! ### Operations of the model's file Ops -/

theorem FreshNumbers.updHost {h : HostId} {f : HostRec → HostRec} : (s.updHost h f).FreshNumbers := by
  unfold State.updHost
  exact fresh.same

theorem FreshNumbers.updQueue {h : HostId} {q : QueueId} {f : Queue → Queue} : (s.updQueue h q f).FreshNumbers :=
  fresh.updHost

theorem FreshNumbers.updLink {n : LinkId} {f : Link → Link} : (s.updLink n f).FreshNumbers := by
  unfold State.updLink
  exact fresh.same

theorem FreshNumbers.updFetch {n : LinkId} {f : Fetch → Fetch} : (s.updFetch n f).FreshNumbers := fresh.updLink

theorem FreshNumbers.updChan {c : ChanId} {f : Chan → Chan} : (s.updChan c f).FreshNumbers := by
  unfold State.updChan
  exact fresh.same

theorem FreshNumbers.updRank {c : ChanId} {r : RankId} {f : Rank → Rank} : (s.updRank c r f).FreshNumbers := fresh.updChan

theorem FreshNumbers.updScrub {c : ChanId} {f : Scrub → Scrub} : (s.updScrub c f).FreshNumbers := fresh.updChan

theorem FreshNumbers.updMig {c : ChanId} {f : Mig → Mig} : (s.updMig c f).FreshNumbers := fresh.updChan

theorem FreshNumbers.updEngine {e : Fin 34} {f : Engine → Engine} : (s.updEngine e f).FreshNumbers := by
  unfold State.updEngine
  exact fresh.same

theorem FreshNumbers.updComp {n : Fin 8} {f : Compressor → Compressor} : (s.updComp n f).FreshNumbers := by
  unfold State.updComp
  exact fresh.same

theorem FreshNumbers.updLoop {l : LoopId} {f : Loop → Loop} : (s.updLoop l f).FreshNumbers := by
  unfold State.updLoop
  exact fresh.same

theorem FreshNumbers.updSeq {f : Seq → Seq} : (s.updSeq f).FreshNumbers := by
  unfold State.updSeq
  exact fresh.same

theorem FreshNumbers.updWeb {f : Web → Web} : (s.updWeb f).FreshNumbers := by
  unfold State.updWeb
  exact fresh.same

theorem FreshNumbers.updRaster {f : Raster → Raster} : (s.updRaster f).FreshNumbers := by
  unfold State.updRaster
  exact fresh.same

theorem FreshNumbers.updBoot {f : Boot → Boot} : (s.updBoot f).FreshNumbers := by
  unfold State.updBoot
  exact fresh.same

theorem FreshNumbers.updPower {f : Power → Power} : (s.updPower f).FreshNumbers := by
  unfold State.updPower
  exact fresh.same

theorem FreshNumbers.updClk {f : Clk → Clk} : (s.updClk f).FreshNumbers := by
  unfold State.updClk
  exact fresh.same

theorem FreshNumbers.emit {o : Out} : (s.emit o).FreshNumbers := by
  unfold State.emit
  exact fresh.same

theorem FreshNumbers.useFree : s.useFree.FreshNumbers := by
  unfold State.useFree
  exact fresh.same

/-- A command in flight changes, but not its number. -/
theorem FreshNumbers.updCmd {id : Nat} {f : Cmd → Cmd} (hf : ∀ c, (f c).id = c.id) :
    (s.updCmd id f).FreshNumbers :=
  fresh.updCmd_mem fun c _ _ => hf c

theorem FreshNumbers.dropCmd {id : Nat} : (s.dropCmd id).FreshNumbers := fresh.of_sublist List.filter_sublist le_rfl

theorem FreshNumbers.logErr {type host : Nat} {fs : List Nat} : (s.logErr type host fs).FreshNumbers := by
  unfold State.logErr
  exact fresh.same

theorem FreshNumbers.logErrMs {type host : Nat} {fs : List Nat} : (s.logErrMs type host fs).FreshNumbers := by
  unfold State.logErrMs
  exact fresh.same

theorem FreshNumbers.logLinkRun {type : Nat} {fs : List Nat} : (s.logLinkRun type fs).FreshNumbers := by
  unfold State.logLinkRun
  exact fresh.same

theorem FreshNumbers.logCourse {type ch : Nat} {sub rank : Nat} {bank slot : Nat} {idx value tid : Nat} :
    (s.logCourse type ch sub rank bank slot idx value tid).FreshNumbers := by
  unfold State.logCourse
  exact fresh.same

/-! ### Operations of the model's file Flags -/

theorem FreshNumbers.updVec {h : HostId} {v : Fin 32} {f : Vec → Vec} : (s.updVec h v f).FreshNumbers := fresh.updHost

theorem FreshNumbers.sendMsg {h : HostId} {v : Fin 32} : (s.sendMsg h v).FreshNumbers :=
  .ite fresh.updVec (.ite fresh.emit fresh)

theorem FreshNumbers.countRaise {h : HostId} {v : Fin 32} : (s.countRaise h v).FreshNumbers := by
  unfold State.countRaise
  refine .ite fresh.sendMsg ?_
  split
  · exact fresh.sendMsg.updVec
  · exact .ite fresh.sendMsg.updVec fresh.updVec

theorem FreshNumbers.deliver {n : Fin 96} {h : HostId} {v : Fin 32} : (s.deliver n h v).FreshNumbers :=
  .ite fresh.updHost fresh.updHost.countRaise

theorem FreshNumbers.hold {n : Fin 96} : (s.hold n).FreshNumbers := by
  unfold State.hold
  exact fresh.same

theorem FreshNumbers.latchPins {n : Fin 96} : (s.latchPins n).FreshNumbers := by
  unfold State.latchPins
  exact fresh.same

theorem FreshNumbers.raise {n : Fin 96} : (s.raise n).FreshNumbers := by
  unfold State.raise
  refine .ite fresh ?_
  extract_lets u
  have latched : u.FreshNumbers := fresh.latchPins
  clear_value u
  split
  · exact latched.deliver
  · extract_lets r dest s1
    clear_value dest
    have routed : s1.FreshNumbers := by
      unfold s1
      split
      · exact latched.deliver
      · exact .ite latched.hold latched
    clear_value s1
    refine .ite ?_ routed
    split
    · exact .ite routed routed.deliver
    · exact routed.hold

theorem FreshNumbers.deliverHeld {h : HostId} : (s.deliverHeld h).FreshNumbers := by
  unfold State.deliverHeld
  extract_lets s1
  have fresh_s1 : s1.FreshNumbers := fresh.foldl fun _ _ ht => .ite ht.deliver ht
  exact fresh_s1.same

theorem FreshNumbers.raiseHost {h : HostId} : (s.raiseHost h).FreshNumbers := fresh.raise

theorem FreshNumbers.raiseLink {n : LinkId} : (s.raiseLink n).FreshNumbers := fresh.raise

theorem FreshNumbers.raiseChan {c : ChanId} : (s.raiseChan c).FreshNumbers := fresh.raise

/-! ### Operations of the model's file Grid -/

theorem FreshNumbers.holdAt {c : ChanId} {m until_ : Nat} : (s.holdAt c m until_).FreshNumbers := fresh.updChan

theorem FreshNumbers.force {c : ChanId} {f : State → State} (hf : ∀ t, t.FreshNumbers → (f t).FreshNumbers) :
    (s.force c f).FreshNumbers := by
  unfold State.force
  extract_lets s1 next
  have fresh_s1 : s1.FreshNumbers := hf _ fresh
  exact .ite fresh_s1.updChan fresh_s1

theorem FreshNumbers.settleForced {c : ChanId} : (s.settleForced c).FreshNumbers := .ite fresh fresh.updChan

theorem FreshNumbers.traceCmd {c : ChanId} {u : SubId} {code : Nat} {r : RankId} {group bank : Nat} {col row : Nat} {by_ :
    By} : (s.traceCmd c u code r group bank col row by_).FreshNumbers :=
  fresh.updChan

theorem FreshNumbers.issue {c : ChanId} {code : Nat} {r : RankId} {u : SubId} {group bank : Nat} {by_ : By} :
    (s.issue c code r u group bank by_).FreshNumbers :=
  fresh.traceCmd.emit

theorem FreshNumbers.closeRows {c : ChanId} {test : Row → Bool} {by_ : By} : (s.closeRows c test by_).FreshNumbers := by
  unfold State.closeRows
  extract_lets s1
  have fresh_s1 : s1.FreshNumbers := fresh.foldl fun _ _ ht => ht.issue
  exact fresh_s1.updChan

theorem FreshNumbers.closeRank {c : ChanId} {r : RankId} {u : SubId} {by_ : By} : (s.closeRank c r u by_).FreshNumbers := by
  unfold State.closeRank
  extract_lets mine s1
  have fresh_s1 : s1.FreshNumbers := .ite fresh.issue fresh
  exact fresh_s1.updChan

theorem FreshNumbers.issueBoth {c : ChanId} {code : Nat} {r : RankId} {by_ : By} : (s.issueBoth c code r by_).FreshNumbers :=
  fresh.issue.issue

theorem FreshNumbers.closeBoth {c : ChanId} {r : RankId} {by_ : By} : (s.closeBoth c r by_).FreshNumbers :=
  fresh.closeRank.closeRank

theorem FreshNumbers.useRank {c : ChanId} {r : RankId} {by_ : By} : (s.useRank c r by_).FreshNumbers :=
  .updRank (.ite fresh.issueBoth fresh)

theorem FreshNumbers.sreRank {c : ChanId} {r : RankId} : (s.sreRank c r).FreshNumbers :=
  .ite fresh.useRank.issueBoth.issueBoth fresh

theorem FreshNumbers.issueSreOn {c : ChanId} : (s.issueSreOn c).FreshNumbers :=
  .updChan (fresh.foldl fun _ _ ht => ht.sreRank)

/-! ### Operations of the model's file Store -/

theorem FreshNumbers.storeBurst {a : Nat} {ws : List (BitVec 80)} : (s.storeBurst a ws).FreshNumbers := by
  unfold State.storeBurst
  extract_lets l ch
  split
  · exact .ite fresh.updRaster.updChan.same fresh.updRaster.updChan

theorem FreshNumbers.storeData {a : Nat} {b : BitVec 512} {poison : Nat → Bool} : (s.storeData a b poison).FreshNumbers :=
  fresh.storeBurst

/-! ### Operations of the model's file Commands -/

theorem FreshNumbers.settleDisable {h : HostId} {q : QueueId} : (s.settleDisable h q).FreshNumbers :=
  .ite fresh.updQueue fresh

theorem FreshNumbers.finish {id : Nat} {a : Answer} : (s.finish id a).FreshNumbers := by
  unfold State.finish
  split
  · exact fresh
  · exact .ite fresh.emit.updQueue.dropCmd.settleDisable.raise fresh.emit.updQueue.dropCmd.settleDisable

theorem FreshNumbers.succeed {id r0 r1 : Nat} : (s.succeed id r0 r1).FreshNumbers := fresh.finish

theorem FreshNumbers.fail {id : Nat} {st : Status} {detail r0 r1 : Nat} : (s.fail id st detail r0 r1).FreshNumbers :=
  fresh.finish

theorem FreshNumbers.withdraw {id : Nat} : (s.withdraw id).FreshNumbers := by
  unfold State.withdraw
  exact fresh.same

theorem FreshNumbers.orphanFills {c : Cmd} : (s.orphanFills c).FreshNumbers := fresh.updRaster

theorem FreshNumbers.levelWrites {c : Cmd} : (s.levelWrites c).FreshNumbers := by
  unfold State.levelWrites
  refine .ite ?_ fresh
  extract_lets open_ start n done
  split
  · exact fresh
  · exact fresh.foldl fun _ _ ht => ht.storeBurst

theorem FreshNumbers.release {id : Nat} : (s.release id).FreshNumbers := by
  unfold State.release
  split
  · exact fresh
  · exact fresh.levelWrites.orphanFills.withdraw.same

theorem FreshNumbers.abort {id : Nat} {a : Answer} : (s.abort id a).FreshNumbers := fresh.release.finish

theorem FreshNumbers.freeTaken {c : Cmd} : (s.freeTaken c).FreshNumbers := fresh.updRaster

theorem FreshNumbers.stopHost {h : HostId} : (s.stopHost h).FreshNumbers := by
  unfold State.stopHost
  extract_lets s1
  have fresh_s1 : s1.FreshNumbers := fresh.foldl fun _ _ ht => ht.release.freeTaken.dropCmd
  exact fresh_s1.foldl fun _ _ ht => ht.settleDisable

theorem FreshNumbers.reserve {h : HostId} : (s.reserve h).FreshNumbers := by
  unfold State.reserve
  exact fresh.same

theorem FreshNumbers.vacate {h : HostId} : (s.vacate h).FreshNumbers := by
  unfold State.vacate
  exact .ite fresh.same fresh

theorem FreshNumbers.logFence {h : HostId} {cause issuer : Nat} {steward : Bool} {cs : List Cmd} :
    (s.logFence h cause issuer steward cs).FreshNumbers :=
  fresh.foldl fun _ _ ht => ht.logErr

theorem FreshNumbers.fence {h : HostId} {cause : Fin 4} {issuer : Nat} : (s.fence h cause issuer).FreshNumbers :=
  fresh.updHost.vacate.stopHost.logFence.raiseHost

/-- A packet that is fetched takes the next number (R61). -/
theorem FreshNumbers.fetched {op : Byte} {i : Issue} : (s.fetched op i).FreshNumbers := by
  obtain ⟨below, distinct⟩ := fresh
  have cmds : (s.fetched op i).cmds = s.cmds ++ [s.mkCmd op i] := rfl
  refine ⟨fun c hc => ?_, ?_⟩
  · rw [cmds, List.mem_append, List.mem_singleton] at hc
    rcases hc with hc | rfl
    · exact (below c hc).trans (Nat.lt_succ_self _)
    · exact Nat.lt_succ_self s.nextId
  · rw [cmds, List.pairwise_append]
    refine ⟨distinct, List.pairwise_singleton _ _, fun c hc d hd => ?_⟩
    rw [List.mem_singleton.mp hd]
    exact (below c hc).ne

/-! ### Operations of the model's file Travel -/

theorem FreshNumbers.inCore {f : State → State} (hf : ∀ t, t.FreshNumbers → (f t).FreshNumbers) :
    (s.inCore f).FreshNumbers :=
  .ite (hf _ fresh) fresh

/-! ### Operations of the model's file Pages -/

theorem FreshNumbers.updPage {id : BitVec 16} {f : Page → Page} : (s.updPage id f).FreshNumbers := fresh.updSeq

theorem FreshNumbers.updPageLink {id : BitVec 16} {n : LinkId} {f : PageLink → PageLink} :
    (s.updPageLink id n f).FreshNumbers :=
  fresh.updPage

theorem FreshNumbers.checkFloor : s.checkFloor.FreshNumbers := by
  unfold State.checkFloor
  dsimp only
  split
  · exact .ite fresh.updSeq.updSeq.raise fresh.updSeq
  · exact fresh.updSeq

theorem FreshNumbers.freeSlot {n : LinkId} {page : BitVec 16} {i : Nat} : (s.freeSlot n page i).FreshNumbers :=
  fresh.updLink

theorem FreshNumbers.noteLast {page : BitVec 16} : (s.noteLast page).FreshNumbers := by
  unfold State.noteLast
  split
  · exact fresh
  · exact fresh.updSeq

theorem FreshNumbers.noteSkip {page : BitVec 16} : (s.noteSkip page).FreshNumbers := by
  unfold State.noteSkip
  split
  · exact .ite fresh.noteLast fresh
  · exact fresh

theorem FreshNumbers.countSkips {k : Nat} : (s.countSkips k).FreshNumbers := fresh.updWeb

theorem FreshNumbers.skipLine {n : LinkId} {page : BitVec 16} {i : Nat} : (s.skipLine n page i).FreshNumbers :=
  fresh.updPageLink.freeSlot.countSkips.noteSkip

theorem FreshNumbers.withdrawMarkers {drop : LinkId → Marker → Bool} : (s.withdrawMarkers drop).FreshNumbers := by
  unfold State.withdrawMarkers
  exact fresh.updSeq.same

theorem FreshNumbers.sendFrame {n : LinkId} {ftype flags : Nat} {len line : Nat} {page : BitVec 16} {pageLine :
    Nat} {payload : List Byte} : (s.sendFrame n ftype flags len line page pageLine payload).FreshNumbers :=
  fresh.emit.updLink

theorem FreshNumbers.flush : s.flush.FreshNumbers := fresh.foldl fun _ _ ht => ht.sendFrame.updLink

theorem FreshNumbers.dropPages {which : Page → Bool} : (s.dropPages which).FreshNumbers := by
  unfold State.dropPages
  exact fresh.updSeq.same

theorem FreshNumbers.haltDone : s.haltDone.FreshNumbers := by
  unfold State.haltDone
  split
  · exact fresh.useFree.updSeq.foldl fun _ _ ht => ht.succeed

theorem FreshNumbers.stopFill : s.stopFill.FreshNumbers := by
  unfold State.stopFill
  exact fresh.updSeq.same

theorem FreshNumbers.endPages : s.endPages.FreshNumbers := by
  unfold State.endPages
  exact fresh.dropPages.stopFill.updSeq.same

theorem FreshNumbers.haltNow : s.haltNow.FreshNumbers := .ite fresh fresh.endPages.flush.haltDone

theorem FreshNumbers.haltAtLine : s.haltAtLine.FreshNumbers := fresh.updSeq.stopFill.withdrawMarkers

theorem FreshNumbers.settlePages : s.settlePages.FreshNumbers := by
  unfold State.settlePages
  extract_lets s1
  split
  · exact .ite (.ite fresh.dropPages fresh.dropPages.haltDone) (.ite (.ite fresh.dropPages.endPages.flush.haltDone
      fresh.dropPages) fresh.dropPages)
  · exact fresh.dropPages

/-! ### Operations of the model's file Integrity -/

theorem FreshNumbers.logEcc {type path a : Nat} {d : Decoded} {stored : BitVec 80} :
    (s.logEcc type path a d stored).FreshNumbers := by
  unfold State.logEcc
  exact fresh.same

theorem FreshNumbers.keepRecord {path a : Nat} {stored : BitVec 80} {d : Decoded} :
    (s.keepRecord path a stored d).FreshNumbers := by
  unfold State.keepRecord
  exact .ite fresh fresh.same

theorem FreshNumbers.noteWord {path a : Nat} {stored : BitVec 80} {d : Decoded} :
    (s.noteWord path a stored d).FreshNumbers := by
  unfold State.noteWord
  extract_lets s c s1
  have fresh_s1 : s1.FreshNumbers := .ite fresh.keepRecord fresh.keepRecord.logEcc.updChan
  split
  · exact fresh_s1.logEcc.updChan
  · exact fresh_s1.logEcc
  · exact fresh_s1

theorem FreshNumbers.logInteg {type c : Nat} {rank before : Nat} {after value : Nat} :
    (s.logInteg type c rank before after value).FreshNumbers :=
  fresh.logErr

theorem FreshNumbers.startMigration {c : ChanId} {source target : RankId} : (s.startMigration c source target).FreshNumbers :=
  fresh.updMig.updRank

theorem FreshNumbers.captureDump {scope cause mask : Nat} : (s.captureDump scope cause mask).FreshNumbers := by
  unfold State.captureDump
  exact fresh.same

theorem FreshNumbers.quenchChan {c : ChanId} : (s.quenchChan c).FreshNumbers := by
  unfold State.quenchChan
  exact fresh.issueSreOn.updChan.same

theorem FreshNumbers.enterQuench {scope0 cause0 : Nat} : (s.enterQuench scope0 cause0).FreshNumbers := by
  unfold State.enterQuench
  extract_lets other scope cause cs mask s1 stopped s2 s3 s4 s5 s6
  have fresh_s3 : s3.FreshNumbers := fresh.captureDump.updRaster.foldl fun _ _ ht => ht.abort
  have fresh_s5 : s5.FreshNumbers := fresh_s3.haltNow.foldl fun _ _ ht => ht.quenchChan
  exact fresh_s5.same.raise.logInteg

theorem FreshNumbers.actOnHealth {c : ChanId} {r : RankId} {failing : Bool} : (s.actOnHealth c r failing).FreshNumbers := by
  unfold State.actOnHealth
  extract_lets st
  split
  · exact .ite fresh.startMigration fresh.updMig
  · exact fresh
  · exact .ite fresh.enterQuench fresh

theorem FreshNumbers.riseHealth {c : ChanId} {r : RankId} {h : Health} {count : Nat} :
    (s.riseHealth c r h count).FreshNumbers := by
  unfold State.riseHealth
  refine .ite fresh ?_
  extract_lets s1
  split
  · exact fresh.updRank.logInteg.raiseChan.actOnHealth
  · exact fresh.updRank.logInteg.raiseChan.actOnHealth
  · exact fresh.updRank.logInteg

theorem FreshNumbers.countHealth {c : ChanId} {r : RankId} {a ce : Nat} {ue : Bool} :
    (s.countHealth c r a ce ue).FreshNumbers := by
  unfold State.countHealth
  refine .ite fresh ?_
  split
  · extract_lets s1 k s2 s3
    have fresh_s2 : s2.FreshNumbers := .ite fresh.updChan.updRank.updRank.riseHealth.raise fresh.updChan.updRank
    have fresh_s3 : s3.FreshNumbers := .ite fresh_s2.riseHealth (.ite fresh_s2.riseHealth fresh_s2)
    exact .ite fresh_s3.riseHealth fresh_s3

theorem FreshNumbers.queueScrub {c : ChanId} {a : Nat} : (s.queueScrub c a).FreshNumbers := fresh.updScrub

theorem FreshNumbers.noteRead {path a : Nat} : (s.noteRead path a).FreshNumbers := by
  unfold State.noteRead
  extract_lets ws ds l r ce ue s1 s2
  have fresh_s1 : s1.FreshNumbers := fresh.foldl fun _ _ ht => ht.noteWord
  have fresh_s2 : s2.FreshNumbers := .ite fresh_s1.queueScrub fresh_s1
  exact .ite fresh_s2 fresh_s2.countHealth

theorem FreshNumbers.logPoisonWritten {path a : Nat} {d : Decoded} {stored : BitVec 80} :
    (s.logPoisonWritten path a d stored).FreshNumbers :=
  fresh.logEcc

theorem FreshNumbers.rewriteBurst {path a : Nat} : (s.rewriteBurst path a).FreshNumbers := by
  unfold State.rewriteBurst
  extract_lets ws s1
  have fresh_s1 : s1.FreshNumbers := fresh.foldl fun _ _ ht => .ite ht.logPoisonWritten ht
  exact fresh_s1.storeBurst

end

end State

end Sys2Proof.Machine
end

section
/-! SUPPORT. Numbers of the commands in flight (R61, R65): what transfers, the start of a packet and the commands of the session
and of raster memory keep. -/

namespace Sys2Proof.Machine

namespace State

section
variable {s : State} (fresh : s.FreshNumbers)
include fresh

/-! ### Operations of the model's file Transfers -/

theorem FreshNumbers.updBank {c : ChanId} {r : RankId} {u : SubId} {b : Fin 4} {f : BankIdx → BankIdx} :
    (s.updBank c r u b f).FreshNumbers :=
  fresh.updRank

theorem FreshNumbers.holdAccess {r : RankId} {a : Nat} : (s.holdAccess r a).FreshNumbers :=
  .ite (fresh.force fun _ ht => ht.updChan) fresh

theorem FreshNumbers.columnOn {r : RankId} {a code : Nat} {by_ : By} : (s.columnOn r a code by_).FreshNumbers :=
  fresh.traceCmd

theorem FreshNumbers.column {a code : Nat} {by_ : By} : (s.column a code by_).FreshNumbers := fresh.columnOn

theorem FreshNumbers.activateOn {r : RankId} {a : Nat} {by_ : By} : (s.activateOn r a by_).FreshNumbers :=
  fresh.closeRows.traceCmd.updChan.updBank

theorem FreshNumbers.touchRowOn {r : RankId} {a code : Nat} {by_ : By} : (s.touchRowOn r a code by_).FreshNumbers := by
  unfold State.touchRowOn
  extract_lets c s0 s1
  have fresh_s1 : s1.FreshNumbers := .ite fresh.useRank.updChan fresh.useRank.activateOn
  exact fresh_s1.columnOn

theorem FreshNumbers.touchRow {a code : Nat} {by_ : By} : (s.touchRow a code by_).FreshNumbers := fresh.touchRowOn

theorem FreshNumbers.repeatRead {a : Nat} {by_ : By} : (s.repeatRead a by_).FreshNumbers := fresh.closeRows.touchRow

theorem FreshNumbers.readRow {a : Nat} {by_ : By} : (s.readRow a by_).FreshNumbers :=
  .ite fresh.touchRow.repeatRead (.ite fresh.touchRow (.ite fresh.touchRow.useFree.repeatRead.logErr fresh.touchRow.useFree))

theorem FreshNumbers.presentXfer {c : ChanId} {r : Fin 12} {src : Src} {bs : List Burst} :
    (s.presentXfer c r src bs).FreshNumbers :=
  fresh.updChan

theorem FreshNumbers.presentOne {c : ChanId} {r : Fin 12} : (s.presentOne c r).FreshNumbers := by
  unfold State.presentOne
  refine .ite fresh ?_
  split
  · exact fresh.presentXfer
  · split
    · exact fresh.same.presentXfer
    · split
      · exact (fresh.updCmd fun _ => by rfl).presentXfer
      · exact fresh

theorem FreshNumbers.present : s.present.FreshNumbers := fresh.foldl fun _ _ ht => ht.foldl fun _ _ hu => hu.presentOne

theorem FreshNumbers.handOut {id : Nat} : (s.handOut id).FreshNumbers := by
  unfold State.handOut
  split
  · exact fresh
  · split
    · exact (fresh.updCmd fun _ => by rfl).present

theorem FreshNumbers.beginFills {id : Nat} {ashlars : List Nat} : (s.beginFills id ashlars).FreshNumbers := fresh.updRaster

theorem FreshNumbers.doRead {id a : Nat} : (s.doRead id a).FreshNumbers := fresh.noteRead.updCmd fun _ => by rfl

theorem FreshNumbers.doRawRead {id a : Nat} : (s.doRawRead id a).FreshNumbers := fresh.updCmd fun _ => by rfl

theorem FreshNumbers.doMerge {id a : Nat} : (s.doMerge id a).FreshNumbers := by
  unfold State.doMerge
  extract_lets ws s1
  split
  · exact fresh.noteRead
  · extract_lets out s2
    have fresh_s2 : s2.FreshNumbers := fresh.noteRead.foldl fun _ _ ht => .ite ht.logPoisonWritten ht
    exact fresh_s2.storeBurst.updCmd fun _ => by rfl

theorem FreshNumbers.doWrite {c : Cmd} {a : Nat} : (s.doWrite c a).FreshNumbers := fresh.storeBurst

theorem FreshNumbers.doRawWrite {c : Cmd} {a : Nat} : (s.doRawWrite c a).FreshNumbers := by
  unfold State.doRawWrite
  split
  · exact .ite fresh.storeBurst fresh.storeBurst

theorem FreshNumbers.doInject {id : Nat} {c : Cmd} {a : Nat} {kind : BurstKind} : (s.doInject id c a kind).FreshNumbers :=
  .ite (fresh.storeBurst.logEcc.updCmd fun _ => by rfl) fresh.storeBurst

theorem FreshNumbers.doOutput {c : Cmd} {b : Burst} {by_ : By} : (s.doOutput c b by_).FreshNumbers :=
  .ite (.ite fresh.noteRead.abort fresh.noteRead.column.storeData) fresh.storeData

theorem FreshNumbers.doBurst {id : Nat} {b : Burst} : (s.doBurst id b).FreshNumbers := by
  unfold State.doBurst
  split
  · exact fresh
  · extract_lets by_ s1
    have fresh_s1 : s1.FreshNumbers := .ite fresh.touchRow fresh.readRow
    split
    · exact fresh_s1.doOutput
    · exact fresh_s1.doOutput
    · exact fresh_s1.doRead
    · exact fresh_s1.doRawRead
    · exact fresh_s1.doRawWrite
    · exact fresh_s1.column.doInject
    · exact fresh_s1.doInject
    · exact fresh_s1.column.doMerge
    · exact fresh_s1.doWrite

theorem FreshNumbers.doFill {n a : Nat} : (s.doFill n a).FreshNumbers := fresh.touchRow.storeBurst.updRaster

theorem FreshNumbers.doScrub {c : ChanId} {b : Burst} : (s.doScrub c b).FreshNumbers :=
  .ite fresh.readRow.noteRead (.ite fresh.readRow.noteRead.column.rewriteBurst fresh.readRow.noteRead.updScrub)

theorem FreshNumbers.doMigrate {c : ChanId} {b : Burst} : (s.doMigrate c b).FreshNumbers :=
  .ite fresh.readRow.noteRead fresh.touchRowOn.rewriteBurst

theorem FreshNumbers.doXfer {c : ChanId} {src : Src} {b : Burst} : (s.doXfer c src b).FreshNumbers := by
  unfold State.doXfer
  split
  · exact fresh.doBurst
  · exact fresh.doFill
  · exact fresh.doScrub
  · exact fresh.doMigrate

theorem FreshNumbers.putStrip {t : Strip} : (s.putStrip t).FreshNumbers := by
  unfold State.putStrip
  exact fresh.same

theorem FreshNumbers.deliverBurst {c : Cmd} {a : Nat} {b : BitVec 512} : (s.deliverBurst c a b).FreshNumbers := by
  unfold State.deliverBurst
  split
  · exact fresh.emit.updCmd fun _ => by rfl

theorem FreshNumbers.deliverRaw {c : Cmd} {a : Nat} {ws : List (BitVec 80 × Nat)} : (s.deliverRaw c a ws).FreshNumbers := by
  unfold State.deliverRaw
  split
  · exact fresh.emit.updCmd fun _ => by rfl

theorem FreshNumbers.deliverLoop {id fuel : Nat} : (deliverLoop id fuel s).FreshNumbers := by
  induction fuel generalizing s with
  | zero => exact fresh
  | succ fuel ih =>
    unfold State.deliverLoop
    split
    · exact fresh
    · refine .ite fresh ?_
      extract_lets a
      split
      · split
        · exact fresh.abort
        · exact ih (.ite fresh.deliverRaw fresh.deliverBurst)
      · exact .ite fresh (.ite (ih fresh.deliverRaw) (ih fresh.deliverBurst))

theorem FreshNumbers.sealDone {c : Cmd} : (s.sealDone c).FreshNumbers := by
  unfold State.sealDone
  split
  · exact fresh.fail
  · exact fresh.putStrip.succeed

theorem FreshNumbers.progress {id : Nat} : (s.progress id).FreshNumbers := by
  unfold State.progress
  split
  · exact fresh
  · refine .ite ?_ (.ite (.ite fresh.sealDone fresh.finish) fresh)
    extract_lets s1
    split
    · exact fresh.deliverLoop
    · exact .ite fresh.deliverLoop.finish fresh.deliverLoop

theorem FreshNumbers.issueBursts {c : ChanId} {src : Src} {bs : List Burst} {n : Nat} :
    (issueBursts c src bs n s).1.FreshNumbers := by
  induction bs generalizing n s with
  | nil => exact fresh
  | cons b bs ih =>
    unfold State.issueBursts
    dsimp only
    split
    · exact fresh.holdAccess
    · exact ih fresh.doXfer

theorem FreshNumbers.settleHalf {c : ChanId} {x : Xfer} : (s.settleHalf c x).FreshNumbers :=
  .ite fresh.holdAt.logCourse fresh

theorem FreshNumbers.migNext {c : ChanId} : (s.migNext c).FreshNumbers := .ite fresh.updMig fresh.updMig.presentXfer

theorem FreshNumbers.afterXfer {c : ChanId} {src : Src} : (s.afterXfer c src).FreshNumbers := by
  unfold State.afterXfer
  split
  · exact fresh.present.progress
  · exact fresh.migNext.present
  · exact fresh.present

theorem FreshNumbers.spoilGot {id a : Nat} : (s.spoilGot id a).FreshNumbers := fresh.updCmd fun _ => by rfl

theorem FreshNumbers.issueGranted {c : ChanId} {x : Xfer} {bad : Option (Cmd × Burst × Nat)} :
    (s.issueGranted c x bad).1.FreshNumbers := by
  unfold State.issueGranted
  split
  · exact fresh.issueBursts
  · dsimp only
    split
    · exact fresh.issueBursts.spoilGot
    · split
      · exact fresh.issueBursts.abort
      · exact fresh.issueBursts

theorem FreshNumbers.transferDone {c : ChanId} {staging : Option Nat} : (s.transferDone c staging).FreshNumbers := by
  unfold State.transferDone
  split
  · exact fresh
  · next r x _ =>
    refine .ite fresh ?_
    have issued := fresh.issueGranted (c := c) (x := x) (bad := s.stagingBad x staging)
    split
    · next s1 n granted =>
      rw [granted] at issued
      exact .ite issued.present (.ite issued.updChan issued.settleHalf.updChan.afterXfer)

theorem FreshNumbers.fillDone {n : Nat} : (s.fillDone n).FreshNumbers := by
  unfold State.fillDone
  split
  · exact fresh
  · extract_lets done
    split
    · exact .ite fresh.updRaster fresh
    · split
      · exact fresh
      · exact .ite fresh fresh.updRaster.progress

/-! ### Operations of the model's file Start -/

theorem FreshNumbers.beat {h : HostId} : (s.beat h).FreshNumbers := by
  unfold State.beat
  split
  · exact fresh.updHost
  · exact fresh.updHost.raiseHost
  · exact fresh

theorem FreshNumbers.steer : s.steer.FreshNumbers := by
  unfold State.steer
  exact fresh.same

theorem FreshNumbers.logSelfRefresh {c : ChanId} {what : Nat} : (s.logSelfRefresh c what).FreshNumbers := fresh.logErr

theorem FreshNumbers.wantDram : s.wantDram.FreshNumbers := by
  unfold State.wantDram
  exact .ite fresh (.ite fresh.same (.ite fresh.same.steer (.steer (fresh.same.foldl fun _ _ ht =>
      ht.updChan.logSelfRefresh))))

theorem FreshNumbers.resume {body : Cmd → State → State} (hbody : ∀ x t, t.FreshNumbers → (body x t).FreshNumbers) {id :
    Nat} : (s.resume body id).FreshNumbers := by
  unfold State.resume
  split
  · exact fresh
  · split
    · exact fresh.finish
    · extract_lets s1
      have fresh_s1 : s1.FreshNumbers := .ite fresh.wantDram fresh
      exact .ite fresh_s1 (hbody _ _ (fresh_s1.updCmd fun _ => by rfl))

/-- A command that starts is HELD first, and takes a number for its place in the order of starts (R65). -/
theorem FreshNumbers.start {body : Cmd → State → State}
    (hbody : ∀ x t, t.FreshNumbers → (body x t).FreshNumbers) {c : Cmd} :
    (s.start body c).FreshNumbers := by
  unfold State.start
  split
  · exact fresh.finish
  · split
    · exact fresh.finish
    · have held := fresh.updCmd (id := c.id) (f := fun x => { x with prog := .held, started := s.nextId }) fun _ => rfl
      refine FreshNumbers.resume ?_ hbody
      exact held.of_sublist (.refl _) (Nat.le_succ _)

theorem FreshNumbers.submit {op : Byte} {body : Cmd → State → State}
    (hbody : ∀ x t, t.FreshNumbers → (body x t).FreshNumbers) {i : Issue} : (s.submit op body i).FreshNumbers := by
  unfold State.submit
  refine .ite ?_ fresh
  extract_lets c s1
  split
  · exact fresh.fetched.fail
  · have fresh2 : (if op = 0x07 then s1.beat i.host else s1).FreshNumbers := .ite fresh.fetched.beat fresh.fetched
    exact .ite (fresh2.start hbody) fresh2

/-! ### Operations of the model's file Session -/

theorem FreshNumbers.enterRunning : s.enterRunning.FreshNumbers := .ite fresh.updBoot fresh

theorem FreshNumbers.dueRetirements : s.dueRetirements.FreshNumbers := by
  unfold State.dueRetirements
  refine fresh.foldl fun acc c ht => ?_
  split
  · exact ht
  · extract_lets k a1
    split
    · exact .ite ht.updMig.startMigration ht.updMig
    · exact ht.updMig

theorem FreshNumbers.takeRole {id : Nat} {h : HostId} : (s.takeRole id h).FreshNumbers := by
  unfold State.takeRole
  exact fresh.same.succeed.enterRunning.deliverHeld.dueRetirements

theorem FreshNumbers.setFeature {c : Cmd} : (s.setFeature c).FreshNumbers := by
  unfold State.setFeature
  extract_lets i v
  split
  · exact fresh.same
  · exact fresh.same
  · exact fresh.same
  · exact fresh.updHost
  · exact fresh.updHost
  · exact fresh.updHost
  · exact fresh

theorem FreshNumbers.becomeLate {h : HostId} : (s.becomeLate h).FreshNumbers := fresh.updHost.raiseHost

theorem FreshNumbers.judge {h : HostId} : (s.judge h).FreshNumbers := by
  unfold State.judge
  split
  · exact .ite fresh.becomeLate fresh
  · exact .ite fresh.updHost.raiseHost (.ite fresh.fence fresh)
  · exact fresh

theorem FreshNumbers.bodyNop {c : Cmd} : (bodyNop c s).FreshNumbers := fresh.succeed

theorem FreshNumbers.bodyIdentify {c : Cmd} : (bodyIdentify c s).FreshNumbers := fresh.emit.succeed

theorem FreshNumbers.bodyGetLog {c : Cmd} : (bodyGetLog c s).FreshNumbers := by
  unfold Machine.bodyGetLog
  extract_lets es out s1
  have fresh_s1 : s1.FreshNumbers := .ite fresh fresh.emit
  exact .ite fresh_s1.same.succeed fresh_s1.succeed

theorem FreshNumbers.bodySetFeature {c : Cmd} : (bodySetFeature c s).FreshNumbers :=
  .ite fresh.fail (.ite fresh.setFeature.succeed.judge fresh.setFeature.succeed)

theorem FreshNumbers.bodyGetFeature {c : Cmd} : (bodyGetFeature c s).FreshNumbers := fresh.succeed

theorem FreshNumbers.bodyAttach {c : Cmd} : (bodyAttach c s).FreshNumbers := by
  unfold Machine.bodyAttach
  refine .ite fresh.fail ?_
  split
  · exact fresh.fail
  · exact fresh.same.updHost.succeed.raiseHost

theorem FreshNumbers.bodyDetach {c : Cmd} : (bodyDetach c s).FreshNumbers := fresh.vacate.reserve.updHost.succeed.raiseHost

theorem FreshNumbers.bodyHeartbeat {c : Cmd} : (bodyHeartbeat c s).FreshNumbers := fresh.succeed

theorem FreshNumbers.bodyClaimSteward {c : Cmd} : (bodyClaimSteward c s).FreshNumbers := by
  unfold Machine.bodyClaimSteward
  refine .ite fresh.succeed ?_
  refine .ite fresh.fail ?_
  split
  · exact fresh.takeRole
  · exact .ite fresh.fail (.ite fresh.fail fresh.fence.takeRole)

theorem FreshNumbers.bodyReleaseSteward {c : Cmd} : (bodyReleaseSteward c s).FreshNumbers := fresh.vacate.succeed.raiseHost

theorem FreshNumbers.bodyFenceHost {c : Cmd} : (bodyFenceHost c s).FreshNumbers :=
  .ite fresh.fail (.ite fresh.fail fresh.fence.succeed)

/-! ### Operations of the model's file RasterCmds -/

theorem FreshNumbers.allocate {p : Fin 16} {ns : List Nat} : (s.allocate p ns).FreshNumbers := fresh.updRaster

theorem FreshNumbers.bodyAllocAshlars {c : Cmd} : (bodyAllocAshlars c s).FreshNumbers := by
  unfold Machine.bodyAllocAshlars
  refine .ite ?_ (.ite fresh.fail fresh.allocate.emit.succeed)
  split
  · exact fresh.fail
  · exact fresh.allocate.succeed

theorem FreshNumbers.bodyFreeAshlars {c : Cmd} : (bodyFreeAshlars c s).FreshNumbers := by
  unfold Machine.bodyFreeAshlars
  extract_lets mine
  split
  · exact fresh.finish
  · exact fresh.updRaster.succeed

theorem FreshNumbers.beginWrite {c : Cmd} {a len bytes : Nat} : (beginWrite c a len bytes s).FreshNumbers :=
  (fresh.beginFills.updCmd fun _ => by rfl).handOut

theorem FreshNumbers.bodyWriteRaw {c : Cmd} : (bodyWriteRaw c s).FreshNumbers := fresh.beginWrite

theorem FreshNumbers.beginRead {c : Cmd} {a len : Nat} : (beginRead c a len s).FreshNumbers :=
  (fresh.updCmd fun _ => by rfl).present.progress

theorem FreshNumbers.bodyRead {c : Cmd} : (bodyRead c s).FreshNumbers := fresh.beginRead

theorem FreshNumbers.bodyZero {c : Cmd} : (bodyZero c s).FreshNumbers :=
  (fresh.updRaster.updCmd fun _ => by rfl).present.progress

/-! ### Operations of the model's file Strips -/

theorem FreshNumbers.engineShares : s.engineShares.FreshNumbers := by
  unfold State.engineShares
  exact fresh.same

theorem FreshNumbers.settlePool : s.settlePool.FreshNumbers := by
  unfold State.settlePool
  exact fresh.same.engineShares

theorem FreshNumbers.cutAnvil : s.cutAnvil.FreshNumbers := by
  unfold State.cutAnvil
  exact .ite fresh.same.settlePool fresh.settlePool

theorem FreshNumbers.createStrip {r t : Strip} {u : State} (made : s.createStrip r = some (u, t)) : u.FreshNumbers := by
  unfold State.createStrip at made
  split at made
  · exact nomatch made
  · cases made
    exact fresh.useFree.same

theorem FreshNumbers.logComp {type : Nat} {n : Fin 8} {c : Cmd} {what strip : Nat} {value addr : Nat} :
    (s.logComp type n c what strip value addr).FreshNumbers :=
  fresh.logErr

theorem FreshNumbers.testComp {n : Fin 8} {id : Nat} : (s.testComp n id).FreshNumbers := by
  unfold State.testComp
  split
  · exact fresh
  · extract_lets step addr s1 s2
    have fresh_s2 : s2.FreshNumbers := .ite fresh.useFree.updComp.engineShares.logComp.raise
        fresh.useFree.updComp.engineShares.logComp
    exact fresh_s2.succeed

theorem FreshNumbers.engineFree {n : Fin 8} : (s.engineFree n).FreshNumbers := by
  unfold State.engineFree
  extract_lets s1
  split
  · exact fresh.updComp.settlePool.testComp
  · exact fresh.updComp.settlePool

theorem FreshNumbers.engineFails {n : Fin 8} {id : Nat} {a : Answer} : (s.engineFails n id a).FreshNumbers :=
  fresh.abort.engineFree

theorem FreshNumbers.compFault {n : Fin 8} {cause addr : Nat} : (s.compFault n cause addr).FreshNumbers := by
  unfold State.compFault
  split
  · exact fresh
  · exact fresh.logComp.updComp.raise.engineFails

theorem FreshNumbers.dispatch {n : Fin 8} {stream : List Byte} {bits : Nat} : (s.dispatch n stream bits).FreshNumbers := by
  unfold State.dispatch
  refine .ite fresh ?_
  split
  · exact fresh
  · extract_lets s1
    split
    · exact fresh.same.finish
    · exact fresh.same.updComp.updCmd fun _ => by rfl

theorem FreshNumbers.keepOutput {id : Nat} {o : Output} : (s.keepOutput id o).FreshNumbers :=
  (fresh.updCmd fun _ => by rfl).beginFills

theorem FreshNumbers.sendWhole {id : Nat} : (s.sendWhole id).FreshNumbers := by
  unfold State.sendWhole
  split
  · exact fresh
  · exact fresh.same.updCmd fun _ => by rfl

theorem FreshNumbers.sendRest {id : Nat} : (s.sendRest id).FreshNumbers := by
  unfold State.sendRest
  split
  · exact fresh
  · exact fresh.same.updCmd fun _ => by rfl

theorem FreshNumbers.endOutput {c : Cmd} {p : Fin 16} {u : State} (ended : s.endOutput c p = some u) : u.FreshNumbers := by
  obtain ⟨o, -, eq⟩ := Option.map_eq_some_iff.mp ended
  exact eq ▸ fresh.keepOutput.sendRest.present

theorem FreshNumbers.compressLoop {n : Fin 8} {id fuel : Nat} : (compressLoop n id fuel s).FreshNumbers := by
  induction fuel generalizing s with
  | zero => exact fresh
  | succ fuel ih =>
    unfold State.compressLoop
    split
    · exact fresh
    · extract_lets lb k
      refine .ite fresh ?_
      split
      · exact fresh.compFault
      · split
        · exact fresh.engineFails
        · extract_lets s1
          have fresh1 : s1.FreshNumbers := fresh.keepOutput.sendWhole.present
          refine .ite (ih fresh1) ?_
          split
          · next ended =>
            obtain ⟨d, -, ended⟩ := Option.bind_eq_some_iff.mp ended
            exact fresh1.endOutput ended
          · exact fresh1.engineFails

theorem FreshNumbers.compressInput {id : Nat} : (s.compressInput id).FreshNumbers := by
  unfold State.compressInput
  split
  · exact fresh.compressLoop
  · exact fresh

theorem FreshNumbers.unwrite {ns : List Nat} : (s.unwrite ns).FreshNumbers := fresh.updRaster

theorem FreshNumbers.compressDone {n : Fin 8} : (s.compressDone n).FreshNumbers := by
  unfold State.compressDone
  split
  · exact fresh
  · refine .ite fresh (.ite fresh.engineFails ?_)
    split
    · exact fresh.putStrip.succeed.engineFree
    · split
      · next s1 v made =>
        have created : s1.FreshNumbers := fresh.createStrip made
        exact created.succeed.engineFree
      · exact fresh.engineFails

theorem FreshNumbers.bodyWriteCompress {c : Cmd} : (bodyWriteCompress c s).FreshNumbers := by
  unfold Machine.bodyWriteCompress
  split
  · exact fresh.finish
  · exact fresh.updCmd fun _ => by rfl

theorem FreshNumbers.bodySealStrip {c : Cmd} : (bodySealStrip c s).FreshNumbers := by
  unfold Machine.bodySealStrip
  split
  · exact fresh.fail
  · refine .ite fresh.succeed ?_
    extract_lets d
    split
    · next ended => exact (fresh.updCmd fun _ => by rfl).endOutput ended
    · exact fresh.fail

theorem FreshNumbers.bodyGetStripInfo {c : Cmd} : (bodyGetStripInfo c s).FreshNumbers := by
  unfold Machine.bodyGetStripInfo
  split
  · exact fresh.fail
  · exact fresh.succeed

theorem FreshNumbers.bodyDefineRawStrip {c : Cmd} : (bodyDefineRawStrip c s).FreshNumbers := by
  unfold Machine.bodyDefineRawStrip
  extract_lets t
  split
  · exact fresh.fail
  · next made => exact (fresh.createStrip made).succeed

theorem FreshNumbers.bodyFreeStrip {c : Cmd} : (bodyFreeStrip c s).FreshNumbers := by
  unfold Machine.bodyFreeStrip
  split
  · exact fresh.fail
  · exact .ite fresh.fail fresh.unwrite.putStrip.succeed

end

end State

end Sys2Proof.Machine
end

section
/-! SUPPORT. Numbers of the commands in flight (R61, R65): what courses, the web, the links and the drain keep. -/

namespace Sys2Proof.Machine

namespace State

section
variable {s : State} (fresh : s.FreshNumbers)
include fresh

/-! ### Operations of the model's file Schedule -/

theorem FreshNumbers.loadTable {c : Cmd} : (s.loadTable c).FreshNumbers := by
  unfold State.loadTable
  refine .ite fresh.fail ?_
  split
  · exact fresh.logCourse.fail
  · exact fresh.updChan.succeed

theorem FreshNumbers.queuePages {c : Cmd} : (s.queuePages c).FreshNumbers := by
  unfold State.queuePages
  extract_lets ds
  split
  · exact fresh.finish
  · exact fresh.updSeq.succeed

theorem FreshNumbers.cancelPages {which : Page → Bool} : (s.cancelPages which).FreshNumbers := by
  unfold State.cancelPages
  exact fresh.dropPages.same

theorem FreshNumbers.halt {mode : Fin 3} : (s.halt mode).FreshNumbers :=
  .ite fresh.haltNow (.ite (.ite fresh fresh.haltAtLine) (.ite fresh.updSeq.settlePages fresh))

theorem FreshNumbers.bodyLoadCourse {c : Cmd} : (bodyLoadCourse c s).FreshNumbers :=
  .ite fresh.fail (fresh.updCmd fun _ => by rfl)

theorem FreshNumbers.bodyPageQueue {c : Cmd} : (bodyPageQueue c s).FreshNumbers := fresh.updCmd fun _ => by rfl

theorem FreshNumbers.bodyPageCancel {c : Cmd} : (bodyPageCancel c s).FreshNumbers := by
  unfold Machine.bodyPageCancel
  refine .ite fresh.cancelPages.succeed ?_
  extract_lets id
  split
  · exact fresh.fail
  · exact .ite fresh.fail fresh.cancelPages.succeed

theorem FreshNumbers.bodySetLookahead {c : Cmd} : (bodySetLookahead c s).FreshNumbers := by
  unfold Machine.bodySetLookahead
  exact fresh.same.succeed

theorem FreshNumbers.bodyRun {c : Cmd} : (bodyRun c s).FreshNumbers := .ite fresh.updSeq.succeed fresh.succeed

theorem FreshNumbers.bodyHaltDrain {c : Cmd} : (bodyHaltDrain c s).FreshNumbers := .ite fresh.succeed fresh.updSeq.halt

/-! ### Operations of the model's file WebLoop -/

theorem FreshNumbers.logWeb {type link : Nat} {cause before after : Nat} {value : Int} {page : Nat} :
    (s.logWeb type link cause before after value page).FreshNumbers :=
  fresh.logErr

theorem FreshNumbers.moveWeb {f : Web → Web} : (s.moveWeb f).FreshNumbers := fresh.updWeb

theorem FreshNumbers.setWeb {st : WebState} : (s.setWeb st).FreshNumbers := .ite fresh fresh.moveWeb.logWeb.raise

theorem FreshNumbers.acquire : s.acquire.FreshNumbers := fresh.setWeb.moveWeb

theorem FreshNumbers.rebase : s.rebase.FreshNumbers := fresh.updWeb

theorem FreshNumbers.pulsePins {fn : Nat} : (s.pulsePins fn).FreshNumbers := by
  unfold State.pulsePins
  exact fresh.same

theorem FreshNumbers.noteHigh : s.noteHigh.FreshNumbers := .ite fresh fresh.updWeb

theorem FreshNumbers.disarm : s.disarm.FreshNumbers := fresh.updWeb.withdrawMarkers

theorem FreshNumbers.noteEnded : s.noteEnded.FreshNumbers := by
  unfold State.noteEnded
  split
  · exact .ite fresh.updSeq fresh
  · exact fresh

theorem FreshNumbers.endPass : s.endPass.FreshNumbers :=
  fresh.withdrawMarkers.countSkips.noteEnded.endPages.flush.updSeq.settlePages

theorem FreshNumbers.checkReversal : s.checkReversal.FreshNumbers :=
  .ite fresh.updWeb (.ite fresh.updWeb.logWeb.raise.endPass fresh.updWeb.logWeb.raise)

theorem FreshNumbers.oneCount {fwd : Bool} : (s.oneCount fwd).FreshNumbers := by
  unfold State.oneCount
  extract_lets s0 next boundary err s1 s2
  have fresh_s2 : s2.FreshNumbers := .ite fresh.noteHigh.updWeb.disarm fresh.noteHigh.updWeb
  split
  · exact fresh_s2
  · exact fresh_s2
  · extract_lets s3 s4 s5
    have fresh_s4 : s4.FreshNumbers := .ite fresh_s2.updWeb.moveWeb fresh_s2.updWeb
    have fresh_s5 : s5.FreshNumbers := .ite fresh_s4 fresh_s4.checkReversal
    exact fresh_s5.noteHigh.settlePages

theorem FreshNumbers.encoderCount {a b : Bool} : (s.encoderCount a b).FreshNumbers :=
  .ite fresh.updWeb fresh.updWeb.oneCount

theorem FreshNumbers.lockChange : s.lockChange.FreshNumbers := by
  unfold State.lockChange
  split
  · exact .ite fresh.setWeb fresh
  · exact .ite fresh.acquire fresh
  · exact fresh

theorem FreshNumbers.webLost : s.webLost.FreshNumbers := fresh.setWeb.withdrawMarkers.logWeb.haltNow.raise

theorem FreshNumbers.encoderLost {loss : EncoderLoss} : (s.encoderLost loss).FreshNumbers := by
  unfold State.encoderLost
  refine .ite fresh ?_
  extract_lets cause s0
  split
  · exact fresh.updWeb.setWeb.updWeb.logWeb.raise
  · exact fresh.updWeb.webLost
  · exact fresh.updWeb

theorem FreshNumbers.coastLimit : s.coastLimit.FreshNumbers := .ite fresh.webLost fresh

theorem FreshNumbers.encoderRebase : s.encoderRebase.FreshNumbers := .ite fresh.updWeb.setWeb fresh

theorem FreshNumbers.webKeep : s.webKeep.FreshNumbers :=
  fresh.noteHigh.encoderLost.encoderLost.encoderRebase.coastLimit.lockChange

theorem FreshNumbers.commitLink {n : LinkId} {fuel : Nat} : (commitLink n fuel s).FreshNumbers := by
  induction fuel generalizing s with
  | zero => exact fresh
  | succ fuel ih =>
    unfold State.commitLink
    split
    · exact fresh
    · refine .ite (ih fresh.updPageLink) ?_
      split
      · exact fresh
      · exact ih fresh.skipLine
      · exact ih fresh.updLink.updPageLink

theorem FreshNumbers.commitAll : s.commitAll.FreshNumbers :=
  .settlePages (.checkFloor (fresh.foldl fun _ _ ht => ht.commitLink))

theorem FreshNumbers.loopUpdate : s.loopUpdate.FreshNumbers := by
  unfold State.loopUpdate
  refine .ite fresh ?_
  extract_lets s0 err corrects s1
  have fresh_s1 : s1.FreshNumbers := .ite fresh.noteHigh.moveWeb fresh.noteHigh
  exact fresh_s1.updWeb.noteHigh.commitAll

theorem FreshNumbers.indexEdge : s.indexEdge.FreshNumbers := by
  unfold State.indexEdge
  refine .ite fresh ?_
  extract_lets s1
  split
  · exact fresh.updWeb
  · exact .ite fresh.updWeb fresh.updWeb.updWeb.logWeb

theorem FreshNumbers.markSeen {rising : Bool} {held : Nat} : (s.markSeen rising held).FreshNumbers := by
  unfold State.markSeen
  refine .ite fresh ?_
  refine .ite fresh.updWeb ?_
  refine .ite fresh ?_
  refine .ite fresh.updWeb.pulsePins.raise ?_
  extract_lets s1 l
  split
  · exact fresh.updWeb.same
  · exact .ite fresh.updWeb.logWeb fresh.updWeb.logWeb.raise

theorem FreshNumbers.pageBoundary {id : BitVec 16} : (s.pageBoundary id).FreshNumbers := by
  unfold State.pageBoundary
  split
  · exact fresh
  · exact .ite fresh.updPage.updWeb.pulsePins.raise.settlePages fresh

theorem FreshNumbers.ratioInForce {c : WebCfg} : (s.ratioInForce c).FreshNumbers := by
  unfold State.ratioInForce
  refine .ite ?_ (.ite fresh.updWeb.updSeq fresh.updWeb)
  refine .ite fresh.updWeb ?_
  extract_lets s2
  have fresh_s2 : s2.FreshNumbers := fresh.updWeb.foldl fun _ _ ht => ht.logCourse
  exact fresh_s2.cancelPages.raise

theorem FreshNumbers.commitWeb {c : WebCfg} : (s.commitWeb c).FreshNumbers := by
  unfold State.commitWeb
  split
  · exact fresh.updWeb.acquire
  · exact .ite fresh.updWeb.rebase.acquire fresh.updWeb

theorem FreshNumbers.settleWeb : s.settleWeb.FreshNumbers := by
  unfold State.settleWeb
  split
  · exact .ite fresh.ratioInForce fresh
  · exact fresh

theorem FreshNumbers.bodyWebConfig {c : Cmd} : (bodyWebConfig c s).FreshNumbers := by
  unfold Machine.bodyWebConfig
  exact fresh.same.succeed

theorem FreshNumbers.bodyFirePhase {c : Cmd} : (bodyFirePhase c s).FreshNumbers := by
  unfold Machine.bodyFirePhase
  refine .ite ?_ fresh.updLink.succeed
  extract_lets s1 s2 k s3
  have fresh_s3 : s3.FreshNumbers := .ite fresh.updSeq.updLink fresh.updSeq.updLink.logWeb
  exact fresh_s3.succeed

theorem FreshNumbers.bodyWaveBank {c : Cmd} : (bodyWaveBank c s).FreshNumbers := by
  unfold Machine.bodyWaveBank
  exact fresh.same.succeed

/-! ### Operations of the model's file Links -/

theorem FreshNumbers.setLink {n : LinkId} {st : LinkState} : (s.setLink n st).FreshNumbers :=
  .ite fresh fresh.updLink.raiseLink

theorem FreshNumbers.goDown {n : LinkId} {cause : Nat} : (s.goDown n cause).FreshNumbers := by
  unfold State.goDown
  refine .ite fresh ?_
  split
  · exact fresh.logLinkRun.updLink.setLink

theorem FreshNumbers.settleTrain {id : Nat} : (s.settleTrain id).FreshNumbers := by
  unfold State.settleTrain
  split
  · exact fresh
  · refine .ite fresh ?_
    extract_lets links s1
    have fresh_s1 : s1.FreshNumbers := fresh.foldl fun _ _ ht => ht.raiseLink
    exact .ite fresh_s1.fail fresh_s1.succeed

theorem FreshNumbers.trainEnd {n : LinkId} {ok silent : Bool} : (s.trainEnd n ok silent).FreshNumbers := by
  unfold State.trainEnd
  extract_lets bit s1
  split
  · exact fresh.updLink
  · exact (fresh.updLink.updCmd fun _ => by rfl).settleTrain

theorem FreshNumbers.trainStop {n : LinkId} : (s.trainStop n).FreshNumbers := .ite fresh.trainEnd fresh

theorem FreshNumbers.disableLink {n : LinkId} : (s.disableLink n).FreshNumbers := by
  unfold State.disableLink
  extract_lets s1 s2
  have fresh_s2 : s2.FreshNumbers := .ite fresh.trainStop.goDown fresh.trainStop
  exact .ite fresh_s2 fresh_s2.updLink.setLink

theorem FreshNumbers.enableLink {n : LinkId} {rate : Fin 3} : (s.enableLink n rate).FreshNumbers := fresh.updLink.setLink

theorem FreshNumbers.applyLink {n : LinkId} {old new : LinkCfg} : (s.applyLink n old new).FreshNumbers :=
  .ite fresh (.ite fresh.disableLink (.ite fresh (.ite fresh.enableLink (.ite (.enableLink (.ite fresh.trainStop.goDown
      fresh.trainStop)) fresh))))

theorem FreshNumbers.trainFail {n : LinkId} {cause : Nat} : (s.trainFail n cause).FreshNumbers :=
  fresh.logLinkRun.updLink.setLink.trainEnd

theorem FreshNumbers.renumber {n : LinkId} : (s.renumber n).FreshNumbers := by
  unfold State.renumber
  split
  · exact fresh.updSeq.updLink

theorem FreshNumbers.trainPass {n : LinkId} : (s.trainPass n).FreshNumbers :=
  fresh.sendFrame.updLink.renumber.setLink.trainEnd

theorem FreshNumbers.enterStep {n : LinkId} {st : TrainStep} : (s.enterStep n st).FreshNumbers := fresh.updLink

theorem FreshNumbers.trainStart {id : Nat} {n : LinkId} : (s.trainStart id n).FreshNumbers :=
  fresh.trainStop.updLink.enterStep

theorem FreshNumbers.sendAsking {n : LinkId} {ftype : Nat} : (s.sendAsking n ftype).FreshNumbers := fresh.sendFrame.updLink

theorem FreshNumbers.answered {n : LinkId} {seq : Byte} : (s.answered n seq).FreshNumbers := fresh.updLink

theorem FreshNumbers.badReturn {n : LinkId} : (s.badReturn n).FreshNumbers := fresh.updLink

theorem FreshNumbers.heard {n : LinkId} : (s.heard n).FreshNumbers := fresh.updLink

theorem FreshNumbers.onReturn {n : LinkId} {f : ReturnFrame} {rtype lo hi : Nat} {act : State → State}
    (hact : ∀ t, t.FreshNumbers → (act t).FreshNumbers) : (s.onReturn n f rtype lo hi act).FreshNumbers :=
  .ite (hact _ fresh.heard) fresh.badReturn

theorem FreshNumbers.comma {n : LinkId} {symbols : Nat} : (s.comma n symbols).FreshNumbers :=
  .ite fresh.sendAsking.enterStep fresh

theorem FreshNumbers.ident {n : LinkId} {f : ReturnFrame} : (s.ident n f).FreshNumbers :=
  .ite (.ite fresh.answered.trainFail (.ite fresh.answered.trainFail (.enterStep (fresh.answered.updLink.foldl fun _ _ ht
      => ht.sendFrame)))) fresh

theorem FreshNumbers.testReturn {n : LinkId} {f : ReturnFrame} : (s.testReturn n f).FreshNumbers := .ite fresh.updLink fresh

theorem FreshNumbers.measureEcho {n : LinkId} : (s.measureEcho n).FreshNumbers := .ite fresh.sendAsking.updLink fresh

theorem FreshNumbers.stepTimeout {n : LinkId} : (s.stepTimeout n).FreshNumbers := .ite fresh fresh.trainFail

theorem FreshNumbers.logDrain {type : Nat} {n : LinkId} {cause engine : Nat} {strip page : Nat} {stripLine line value :
    Nat} : (s.logDrain type n cause engine strip page stripLine line value).FreshNumbers :=
  fresh.logErr

theorem FreshNumbers.slotUe {n : LinkId} {p : Page} {i addr : Nat} : (s.slotUe n p i addr).FreshNumbers :=
  fresh.updLink.logDrain.raise

theorem FreshNumbers.sendLine {n : LinkId} {p : Page} {i flag : Nat} {payload : List Byte} :
    (s.sendLine n p i flag payload).FreshNumbers :=
  fresh.sendFrame.updLink.updPageLink

theorem FreshNumbers.countNoData {n : LinkId} : (s.countNoData n).FreshNumbers := fresh.updLink

theorem FreshNumbers.lineFrame {n : LinkId} {ue : SlotRead} : (s.lineFrame n ue).FreshNumbers := by
  unfold State.lineFrame
  split
  · exact fresh
  · refine .ite fresh ?_
    refine .ite fresh.sendLine ?_
    split
    · exact fresh
    · refine .ite fresh ?_
      refine .ite fresh.sendLine.countNoData ?_
      refine .ite fresh.sendLine ?_
      split
      · exact fresh.sendLine
      · exact fresh.slotUe.sendLine
      · extract_lets s1 s2
        have fresh_s2 : s2.FreshNumbers := by
          unfold s2
          split
          · exact fresh.slotUe.sendLine.same
          · exact fresh.slotUe.sendLine
        exact fresh_s2.updLink.logLinkRun

theorem FreshNumbers.noDataFrame {n : LinkId} : (s.noDataFrame n).FreshNumbers := by
  unfold State.noDataFrame
  split
  · exact fresh
  · exact .ite fresh (.ite fresh.sendLine.countNoData.logLinkRun fresh.updPageLink)

theorem FreshNumbers.fireMarker {n : LinkId} : (s.fireMarker n).FreshNumbers := by
  unfold State.fireMarker
  split
  · exact fresh
  · exact .ite fresh (.ite fresh.updLink.freeSlot.countSkips.noteSkip.checkFloor.settlePages fresh.emit.updLink)

theorem FreshNumbers.fireInstant {n : LinkId} : (s.fireInstant n).FreshNumbers := by
  unfold State.fireInstant
  split
  · exact fresh
  · exact fresh.updLink.freeSlot.noteLast.checkFloor.settlePages

theorem FreshNumbers.echoTracking {n : LinkId} : (s.echoTracking n).FreshNumbers := .ite fresh.sendAsking.updLink fresh

theorem FreshNumbers.echo {n : LinkId} {f : ReturnFrame} {rt : Nat} : (s.echo n f rt).FreshNumbers :=
  .ite fresh (.ite (.ite fresh.answered (.ite fresh.answered.updLink (.ite fresh.answered.updLink.trainFail
      fresh.answered.updLink.trainPass))) (.ite (.ite fresh.answered.updLink.goDown fresh.answered.updLink) fresh.answered))

theorem FreshNumbers.status {n : LinkId} {f : ReturnFrame} : (s.status n f).FreshNumbers :=
  .ite (.ite fresh.updLink.trainFail fresh.updLink.enterStep) (.ite (.ite fresh.updLink.goDown (.ite fresh.updLink.goDown
      fresh.updLink)) fresh.updLink)

theorem FreshNumbers.message {n : LinkId} {f : ReturnFrame} : (s.message n f).FreshNumbers :=
  .ite fresh.updLink.raiseLink fresh.logLinkRun

theorem FreshNumbers.statusTimeout {n : LinkId} : (s.statusTimeout n).FreshNumbers := .ite fresh.goDown fresh

theorem FreshNumbers.serveMessages {n : LinkId} : (s.serveMessages n).FreshNumbers := by
  unfold State.serveMessages
  extract_lets s1
  have fresh_s1 : s1.FreshNumbers := by
    unfold s1
    split
    · exact fresh.updLink
    · exact fresh
  split
  · exact fresh_s1
  · split
    · exact .ite fresh_s1.sendFrame.updLink fresh_s1
    · exact fresh_s1

theorem FreshNumbers.endSend {n : LinkId} {a : Answer} : (s.endSend n a).FreshNumbers := by
  unfold State.endSend
  split
  · exact fresh
  · exact fresh.updLink.finish.serveMessages

theorem FreshNumbers.gapTimeout {n : LinkId} : (s.gapTimeout n).FreshNumbers := by
  unfold State.gapTimeout
  split
  · exact .ite fresh.endSend fresh
  · exact fresh

theorem FreshNumbers.ackTimeout {n : LinkId} : (s.ackTimeout n).FreshNumbers := by
  unfold State.ackTimeout
  split
  · exact .ite fresh.endSend fresh
  · exact fresh

theorem FreshNumbers.ack {n : LinkId} {f : ReturnFrame} : (s.ack n f).FreshNumbers := by
  unfold State.ack
  split
  · exact .ite fresh.endSend fresh
  · exact fresh

theorem FreshNumbers.messageReady {c : Cmd} : (s.messageReady c).FreshNumbers :=
  (fresh.updCmd fun _ => by rfl).serveMessages

theorem FreshNumbers.bodyLinkConfig {c : Cmd} : (bodyLinkConfig c s).FreshNumbers := by
  unfold Machine.bodyLinkConfig
  exact fresh.same.succeed

theorem FreshNumbers.bodyLinkTrain {c : Cmd} : (bodyLinkTrain c s).FreshNumbers :=
  .ite fresh.fail (.settleTrain ((fresh.updCmd fun _ => by rfl).foldl fun _ _ ht => ht.trainStart))

theorem FreshNumbers.bodyLinkMsg {c : Cmd} : (bodyLinkMsg c s).FreshNumbers := by
  unfold Machine.bodyLinkMsg
  refine .ite ?_ (.ite fresh.fail (fresh.updCmd fun _ => by rfl))
  split
  · exact fresh.succeed
  · exact fresh.updLink.emit.succeed

/-! ### Operations of the model's file Keys -/

theorem FreshNumbers.swapBanks : s.swapBanks.FreshNumbers := by
  unfold State.swapBanks
  exact fresh.same

theorem FreshNumbers.noteDisabled {new : Ks} : (s.noteDisabled new).FreshNumbers := by
  unfold State.noteDisabled
  exact fresh.same

theorem FreshNumbers.freshWaves {new : Ks} : (s.freshWaves new).FreshNumbers := by
  unfold State.freshWaves
  exact fresh.same

theorem FreshNumbers.settleBuckets {old new : Ks} : (s.settleBuckets old new).FreshNumbers := by
  unfold State.settleBuckets
  exact fresh.same

theorem FreshNumbers.holdClkouts {old new : Ks} : (s.holdClkouts old new).FreshNumbers := fresh.updClk

theorem FreshNumbers.settleHalted : s.settleHalted.FreshNumbers := .ite fresh.settleWeb.cutAnvil fresh

theorem FreshNumbers.completeKeys {course : Nat} : (s.completeKeys course).FreshNumbers := by
  unfold State.completeKeys
  exact fresh.same.foldl fun _ _ ht => ht.succeed

theorem FreshNumbers.takeForce {course : Nat} : (s.takeForce course).FreshNumbers := by
  unfold State.takeForce
  split
  · exact fresh
  · next new _ =>
    extract_lets old s1 _ s2 s3 s4 s5
    have held : s1.FreshNumbers := fresh.noteDisabled.freshWaves.settleBuckets.holdClkouts
    have taken : s2.FreshNumbers := held.same
    have linked : s4.FreshNumbers := taken.swapBanks.foldl fun _ _ ht => ht.applyLink
    have joined : s5.FreshNumbers := .ite linked.commitWeb linked
    exact joined.settlePool.checkFloor.completeKeys

theorem FreshNumbers.acceptKey {cmd : Option Nat} : (s.acceptKey cmd).FreshNumbers := by
  unfold State.acceptKey
  extract_lets k
  split
  · exact .ite fresh.same fresh.same.takeForce.settleHalted

theorem FreshNumbers.refuseKey {detail : Nat} : (s.refuseKey detail).FreshNumbers := by
  unfold State.refuseKey
  exact fresh.same

theorem FreshNumbers.bodyKeystone {c : Cmd} : (bodyKeystone c s).FreshNumbers := by
  unfold Machine.bodyKeystone
  split
  · exact .fail (.ite fresh fresh.refuseKey)
  · exact .ite fresh.succeed fresh.acceptKey

/-! ### Operations of the model's file Drain -/

theorem FreshNumbers.pageFilled {id : BitVec 16} : (s.pageFilled id).FreshNumbers := by
  unfold State.pageFilled
  split
  · exact fresh
  · exact .ite fresh.updPage.updSeq.raise.settlePages fresh

theorem FreshNumbers.fillSlot {n : LinkId} {page : BitVec 16} {i : Nat} {image : List Byte} {poison : Bool} :
    (s.fillSlot n page i image poison).FreshNumbers :=
  fresh.updLink

theorem FreshNumbers.endLine {n : LinkId} {page : BitVec 16} : (s.endLine n page).FreshNumbers :=
  fresh.updFetch.checkFloor.pageFilled

theorem FreshNumbers.markStrip {t : Strip} {cause : Nat} : (s.markStrip t cause).FreshNumbers := .ite fresh.putStrip fresh

theorem FreshNumbers.poisonLine {n : LinkId} {p : Page} {t : Strip} {i cause value : Nat} {rest : Bool} :
    (s.poisonLine n p t i cause value rest).FreshNumbers :=
  fresh.fillSlot.updFetch.logDrain.raise.markStrip.endLine

theorem FreshNumbers.placeBurst {n : LinkId} {u : Used} {data : BitVec 512} {bad : List (Nat × Bool)} :
    (s.placeBurst n u data bad).FreshNumbers := by
  unfold State.placeBurst
  extract_lets words input badLines
  have placed (b : Nat) : (input b).FreshNumbers := by
    unfold input
    dsimp only
    split
    · exact fresh.updEngine.updFetch
    · exact fresh.updFetch
  split
  · exact placed _
  · exact placed _
  · exact fresh.updFetch

theorem FreshNumbers.sampleAct {a : Nat} : (s.sampleAct a).FreshNumbers :=
  .ite fresh (.ite fresh.useFree.updBank fresh.useFree)

theorem FreshNumbers.fetchBurst {i : Nat} {n : LinkId} {u : Used} : (s.fetchBurst i n u).FreshNumbers :=
  .ite fresh.sampleAct.readRow.noteRead.placeBurst fresh.placeBurst

theorem FreshNumbers.loseBurst {n : LinkId} {u : Used} : (s.loseBurst n u).FreshNumbers := fresh.updFetch

theorem FreshNumbers.readGiven {c : ChanId} {i : Nat} {n : LinkId} {u : SubId} {xs : List Used} :
    (readGiven c i n u xs s).FreshNumbers := by
  induction xs generalizing s with
  | nil => exact fresh
  | cons x xs ih =>
    unfold State.readGiven
    exact .ite fresh.holdAccess (ih fresh.fetchBurst.updFetch.updChan)

theorem FreshNumbers.logEntry {type : Nat} {c : ChanId} {i : Nat} {e : Entry} {value : Nat} :
    (s.logEntry type c i e value).FreshNumbers :=
  fresh.logCourse

theorem FreshNumbers.endHold {c : ChanId} {i : Nat} {e : Entry} {m until_ : Nat} : (s.endHold c i e m until_).FreshNumbers :=
  .ite fresh fresh.holdAt.logEntry

theorem FreshNumbers.passEntry {c : ChanId} {i : Nat} {e : Entry} {until_ : Nat} : (s.passEntry c i e until_).FreshNumbers :=
  fresh.endHold.updChan

theorem FreshNumbers.stall {c : ChanId} {i : Nat} : (s.stall c i).FreshNumbers := by
  unfold State.stall
  split
  · exact fresh
  · exact .ite fresh (.ite (.updFetch (fresh.passEntry.logEntry.raiseChan.foldl fun _ _ ht => ht.loseBurst))
      fresh.passEntry.logEntry.raiseChan)

theorem FreshNumbers.actEntry {c : ChanId} {i type : Nat} {act : Entry → State} (hact : ∀ x, (act x).FreshNumbers) :
    (s.actEntry c i type act).FreshNumbers := by
  unfold State.actEntry
  split
  · exact fresh
  · exact .ite fresh (.ite fresh.stall (hact _))

theorem FreshNumbers.fetchEntry {c : ChanId} {i : Nat} : (s.fetchEntry c i).FreshNumbers :=
  fresh.actEntry fun _ => .ite fresh.readGiven.readGiven.passEntry fresh.readGiven.readGiven

theorem FreshNumbers.engageSpare {n : LinkId} {p : Page} : (s.engageSpare n p).FreshNumbers := by
  unfold State.engageSpare
  extract_lets l
  split
  · exact fresh.updLink.updEngine.logDrain.raise
  · exact fresh.updLink.updFetch.logDrain.raise

theorem FreshNumbers.checkWidth {n : LinkId} {p : Page} {t : Strip} : (s.checkWidth n p t).FreshNumbers :=
  .ite fresh.logLinkRun.raiseLink fresh

theorem FreshNumbers.stripStart {n : LinkId} {p : Page} {t : Strip} : (s.stripStart n p t).FreshNumbers := by
  unfold State.stripStart
  extract_lets s1 s2 s3
  have fresh_s2 : s2.FreshNumbers := .ite fresh.updFetch fresh.updFetch.engageSpare
  have fresh_s3 : s3.FreshNumbers := by
    unfold s3
    split
    · exact fresh_s2.updEngine
    · exact fresh_s2
  exact fresh_s3.checkWidth

theorem FreshNumbers.takeSlot {n : LinkId} {p : Page} {t : Strip} {i : Nat} : (s.takeSlot n p t i).FreshNumbers := by
  unfold State.takeSlot
  extract_lets s1
  have fresh_s1 : s1.FreshNumbers := .ite fresh fresh.updLink
  exact fresh_s1.updPageLink

theorem FreshNumbers.takeLine {n : LinkId} {p : Page} {t : Strip} {i : Nat} : (s.takeLine n p t i).FreshNumbers := by
  unfold State.takeLine
  refine .ite fresh.takeSlot.updFetch.fillSlot.endLine ?_
  split
  · exact fresh.takeSlot.updFetch.poisonLine
  · exact fresh.takeSlot.updFetch.poisonLine
  · split
    · extract_lets due extra s2
      have fresh_s2 : s2.FreshNumbers := by
        unfold s2
        split
        · exact .ite fresh.takeSlot.updFetch.updEngine fresh.takeSlot.updFetch
        · exact fresh.takeSlot.updFetch
      exact fresh_s2.updFetch

theorem FreshNumbers.logLate {n : LinkId} {p : Page} {i : Nat} : (s.logLate n p i).FreshNumbers := by
  unfold State.logLate
  extract_lets l t
  exact FreshNumbers.updFetch (.ite fresh.same fresh.logDrain)

theorem FreshNumbers.planLink {p : Page} {leff : Nat} {n : LinkId} : (s.planLink p leff n).FreshNumbers := by
  unfold State.planLink
  split
  · exact fresh
  · exact .ite fresh (.ite fresh.updFetch (.ite fresh (.ite (.ite fresh.logLate fresh) (.ite fresh (.takeLine (.ite
      fresh.stripStart fresh))))))

theorem FreshNumbers.shortfall {n : LinkId} {c : ChanId} {u : Nat} : (s.shortfall n c u).FreshNumbers := by
  unfold State.shortfall
  refine .ite fresh ?_
  extract_lets s1
  have fresh_s1 : s1.FreshNumbers := .updFetch (fresh.foldl fun _ _ ht => ht.loseBurst)
  exact fresh_s1.logCourse.raise

theorem FreshNumbers.shortfalls {n : LinkId} : (s.shortfalls n).FreshNumbers :=
  fresh.foldl fun _ _ ht => ht.foldl fun _ _ hu => hu.shortfall

theorem FreshNumbers.engineFault {n : LinkId} {where_ : BitVec 64} : (s.engineFault n where_).FreshNumbers := by
  unfold State.engineFault
  split
  · exact fresh
  · refine .ite fresh ?_
    dsimp only
    split
    · exact .ite fresh.updEngine.updFetch.logDrain.raise.poisonLine (.ite
        fresh.updEngine.updFetch.logDrain.raise.updFetch.logDrain.raise fresh.updEngine.updFetch.logDrain.raise)
    · exact fresh.updEngine.updFetch.logDrain.raise

theorem FreshNumbers.decodeRaw {n : LinkId} {p : Page} {t : Strip} {i : Nat} {e : Fin 34} :
    (s.decodeRaw n p t i e).FreshNumbers := by
  unfold State.decodeRaw
  refine .ite fresh ?_
  extract_lets lost
  split
  · exact fresh.poisonLine
  · exact .ite fresh.poisonLine fresh.poisonLine
  · exact fresh.poisonLine
  · exact fresh.fillSlot.endLine

theorem FreshNumbers.decodeStream {n : LinkId} {p : Page} {t : Strip} {i : Nat} {e : Fin 34} :
    (s.decodeStream n p t i e).FreshNumbers := by
  unfold State.decodeStream
  dsimp only
  split
  · exact .ite fresh.updEngine.poisonLine fresh.updEngine.fillSlot.endLine
  · exact fresh.poisonLine
  · exact fresh.poisonLine
  · split
    · exact .ite fresh.poisonLine (.ite fresh fresh.poisonLine)
    · exact .ite fresh fresh.poisonLine

theorem FreshNumbers.decodeLine {n : LinkId} {fault : Option (BitVec 64)} : (s.decodeLine n fault).FreshNumbers := by
  unfold State.decodeLine
  split
  · exact fresh.engineFault
  · refine .ite fresh ?_
    split
    · split
      · exact .ite fresh.decodeRaw fresh.decodeStream
      · exact fresh
    · exact fresh

end

end State

end Sys2Proof.Machine
end

section
/-! SUPPORT. Numbers of the commands in flight (R61, R65): what the DRAM, the arbiter, resets, clocks and upkeep keep. -/

namespace Sys2Proof.Machine

namespace State

section
variable {s : State} (fresh : s.FreshNumbers)
include fresh

/-! ### Operations of the model's file Dram -/

theorem FreshNumbers.logDram {type : Nat} {c : ChanId} {sub rank : Nat} {b15 temp value : Nat} :
    (s.logDram type c sub rank b15 temp value).FreshNumbers :=
  fresh.logErr

theorem FreshNumbers.serviced {c : ChanId} {r : RankId} {by_ : By} {act : State → State}
    (hact : ∀ t, t.FreshNumbers → (act t).FreshNumbers) : (s.serviced c r by_ act).FreshNumbers := by
  unfold State.serviced
  extract_lets k s1
  have fresh_s1 : s1.FreshNumbers := hact _ fresh.useRank
  exact .ite fresh_s1.issueBoth.updRank fresh_s1

theorem FreshNumbers.refreshCmd {c : ChanId} {code : Nat} {r : RankId} {u : SubId} {b : Fin 4} {by_ : By} :
    (s.refreshCmd c code r u b by_).FreshNumbers :=
  .updChan (fresh.serviced fun _ ht => ht.closeRows.issue.updBank)

theorem FreshNumbers.refresh {c : ChanId} {r : RankId} {u : SubId} {b : Fin 4} {by_ : By} :
    (s.refresh c r u b by_).FreshNumbers :=
  fresh.refreshCmd.updBank.settleForced

theorem FreshNumbers.mitigate {c : ChanId} {r : RankId} {u : SubId} {b : Fin 4} {by_ : By} :
    (s.mitigate c r u b by_).FreshNumbers :=
  fresh.refreshCmd.updBank.settleForced

theorem FreshNumbers.block {c : ChanId} {i : Nat} {u : SubId} : (s.block c i u).FreshNumbers := fresh.updChan

theorem FreshNumbers.refsbOn {c : ChanId} {i : Nat} {e : Entry} {u : SubId} : (refsbOn c i e s u).FreshNumbers :=
  .ite fresh (.ite fresh.logCourse fresh.refresh.block)

theorem FreshNumbers.mitigOn {c : ChanId} {i : Nat} {e : Entry} {u : SubId} : (mitigOn c i e s u).FreshNumbers :=
  .ite fresh.mitigate.block fresh

theorem FreshNumbers.bankEntry {c : ChanId} {i type : Nat} {on : Entry → State → SubId → State}
    (hon : ∀ e t, t.FreshNumbers → ∀ u, (on e t u).FreshNumbers) : (s.bankEntry c i type on).FreshNumbers :=
  fresh.actEntry fun _ => .ite fresh (fresh.passEntry.foldl fun _ _ ht => hon _ _ ht _)

theorem FreshNumbers.refsbEntry {c : ChanId} {i : Nat} : (s.refsbEntry c i).FreshNumbers :=
  fresh.bankEntry fun _ _ ht _ => ht.refsbOn

theorem FreshNumbers.mitigEntry {c : ChanId} {i : Nat} : (s.mitigEntry c i).FreshNumbers :=
  fresh.bankEntry fun _ _ ht _ => ht.mitigOn

theorem FreshNumbers.zqStart {c : ChanId} {i : Nat} {e : Entry} : (s.zqStart c i e).FreshNumbers := by
  unfold State.zqStart
  refine .ite fresh ?_
  extract_lets by_ s1
  have fresh_s1 : s1.FreshNumbers := fresh.serviced fun _ ht => ht.foldl fun _ _ hu => hu.issue
  exact fresh_s1.updRank.updChan

theorem FreshNumbers.zqLatch {c : ChanId} {i : Nat} {e : Entry} : (s.zqLatch c i e).FreshNumbers := by
  unfold State.zqLatch
  refine .ite fresh ?_
  extract_lets by_ s1 s2
  have fresh_s2 : s2.FreshNumbers := .ite fresh.endHold.updChan (.updRank (fresh.endHold.updChan.serviced fun _ ht =>
      ht.foldl fun _ _ hu => hu.closeRank.issue.block))
  exact fresh_s2

theorem FreshNumbers.zqcalEntry {c : ChanId} {i : Nat} : (s.zqcalEntry c i).FreshNumbers := by
  unfold State.zqcalEntry
  split
  · exact fresh
  · exact .ite fresh.zqLatch (fresh.actEntry fun _ => fresh.passEntry.zqStart)

theorem FreshNumbers.noteTemp {c : ChanId} {r : RankId} {temp : Nat} : (s.noteTemp c r temp).FreshNumbers :=
  .ite fresh.updRank.logDram.raise fresh.updRank

theorem FreshNumbers.applyBaseline {c : ChanId} {r : RankId} {b : Baseline} : (s.applyBaseline c r b).FreshNumbers :=
  fresh.updRank.noteTemp

theorem FreshNumbers.noteMismatch {c : ChanId} {r : RankId} {reg : Byte} {by_ : By} :
    (s.noteMismatch c r reg by_).FreshNumbers :=
  .ite fresh.issueBoth.updRank.updChan.logDram.raiseChan fresh.issueBoth.updRank.updChan.logDram

theorem FreshNumbers.updCentring {c : ChanId} {r : RankId} {u : SubId} {f : Centring → Centring} :
    (s.updCentring c r u f).FreshNumbers :=
  fresh.updRank

theorem FreshNumbers.oscOn {c : ChanId} {r : RankId} {x : TemperResult} {by_ : By} {u : SubId} :
    (oscOn c r x by_ s u).FreshNumbers :=
  fresh.issue.updCentring

theorem FreshNumbers.oscStep {c : ChanId} {r : RankId} {us : List SubId} {x : TemperResult} {by_ : By} :
    (s.oscStep c r us x by_).FreshNumbers := by
  unfold State.oscStep
  extract_lets reg s1 s2
  have fresh_s1 : s1.FreshNumbers := .noteTemp (fresh.foldl fun _ _ ht => ht.oscOn)
  exact .ite fresh_s1.updRank.noteMismatch fresh_s1.updRank

theorem FreshNumbers.centreOn {c : ChanId} {r : RankId} {kind : Nat} {x : TemperResult} {u : SubId} :
    (centreOn c r kind x s u).FreshNumbers := by
  unfold State.centreOn
  extract_lets m s1
  have fresh_s1 : s1.FreshNumbers := .ite fresh.updRank fresh.updCentring
  exact .ite fresh_s1.logDram.raiseChan fresh_s1

theorem FreshNumbers.restoreSaved {c : ChanId} {r : RankId} {us : List SubId} {a : Nat} :
    (s.restoreSaved c r us a).FreshNumbers :=
  .ite fresh.updChan fresh

theorem FreshNumbers.temperStep {c : ChanId} {r : RankId} {us : List SubId} {kind : Nat} {x : TemperResult} {by_ : By} :
    (s.temperStep c r us kind x by_).FreshNumbers := by
  unfold State.temperStep
  refine .ite fresh ?_
  refine fresh.serviced fun _ ht => ?_
  refine .ite ht.oscStep ?_
  extract_lets t1
  have fresh_t1 : t1.FreshNumbers := ht.foldl fun _ _ hu => hu.centreOn
  exact .ite fresh_t1.restoreSaved fresh_t1

theorem FreshNumbers.temperEntry {c : ChanId} {i : Nat} {x : TemperResult} : (s.temperEntry c i x).FreshNumbers :=
  fresh.actEntry fun _ => fresh.passEntry.temperStep

theorem FreshNumbers.resetCredits {c : ChanId} {r : RankId} : (s.resetCredits c r).FreshNumbers := fresh.updRank

theorem FreshNumbers.creditTimer {c : ChanId} {r : RankId} {u : SubId} {b : Fin 4} : (s.creditTimer c r u b).FreshNumbers :=
  .ite (fresh.force fun _ ht => ht.updBank) fresh

theorem FreshNumbers.forcedHold {c : ChanId} {r : RankId} {u : SubId} {b : Fin 4} {value : Nat} :
    (s.forcedHold c r u b value).FreshNumbers :=
  .ite fresh.updChan.logCourse fresh.updChan.logCourse.holdAt.logCourse

theorem FreshNumbers.forced {c : ChanId} {r : RankId} {u : SubId} {b : Fin 4} {value : Nat} {go : State → State} (hgo :
    ∀ t, t.FreshNumbers → (go t).FreshNumbers) : (s.forced c r u b value go).FreshNumbers :=
  .ite (hgo _ fresh.forcedHold) fresh

theorem FreshNumbers.forcedRefresh {c : ChanId} {r : RankId} {u : SubId} {b : Fin 4} :
    (s.forcedRefresh c r u b).FreshNumbers :=
  .ite (fresh.forced fun _ ht => ht.refresh) fresh

theorem FreshNumbers.forcedRfm {c : ChanId} {r : RankId} {u : SubId} {b : Fin 4} : (s.forcedRfm c r u b).FreshNumbers :=
  .ite (fresh.forced fun _ ht => ht.mitigate) fresh

theorem FreshNumbers.rowClose {c : ChanId} {u : SubId} {r : RankId} {bg : Fin 8} {b : Fin 4} :
    (s.rowClose c u r bg b).FreshNumbers :=
  fresh.closeRows

theorem FreshNumbers.powerDown {c : ChanId} {r : RankId} : (s.powerDown c r).FreshNumbers :=
  .ite fresh.closeBoth.issueBoth.updRank fresh

theorem FreshNumbers.updSub {c : ChanId} {u : SubId} {f : SubRec → SubRec} : (s.updSub c u f).FreshNumbers := fresh.updChan

theorem FreshNumbers.logAlert {c : ChanId} {u : SubId} : (s.logAlert c u).FreshNumbers := by
  unfold State.logAlert
  exact fresh.same

theorem FreshNumbers.checkStorm {c : ChanId} {u : SubId} : (s.checkStorm c u).FreshNumbers :=
  .ite fresh (.ite fresh.updChan.updSub.logDram.raiseChan fresh.updChan.updSub.updChan)

theorem FreshNumbers.replays {c : ChanId} {u : SubId} {xs : List Kept} : (replays c u xs s).FreshNumbers := by
  induction xs generalizing s with
  | nil => exact fresh.updSub
  | cons x xs ih =>
    unfold State.replays
    exact .ite fresh.holdAccess.updSub (ih fresh.touchRow.updRaster.updChan)

theorem FreshNumbers.replayOn {c : ChanId} : (s.replayOn c).FreshNumbers := .ite fresh.replays.replays fresh

theorem FreshNumbers.crcAlert {c : ChanId} {u : SubId} {window : Nat} : (s.crcAlert c u window).FreshNumbers :=
  .ite fresh fresh.updSub.replays.logAlert.checkStorm

theorem FreshNumbers.stormDone {c : ChanId} {u : SubId} : (s.stormDone c u).FreshNumbers := by
  unfold State.stormDone
  split
  · exact fresh.updSub.holdAt.logCourse.logDram.raiseChan
  · exact fresh

/-! ### Operations of the model's file Course -/

theorem FreshNumbers.restartChan {t : Nat} {c : ChanId} : (s.restartChan t c).FreshNumbers := fresh.updChan

theorem FreshNumbers.leaveCourse {t : Nat} {c : ChanId} : (s.leaveCourse t c).FreshNumbers := fresh.updChan.restartChan

theorem FreshNumbers.endCourse : s.endCourse.FreshNumbers := by
  unfold State.endCourse
  extract_lets len full long t s1
  have fresh_s1 : s1.FreshNumbers := .updSeq (fresh.foldl fun _ _ ht => ht.leaveCourse)
  exact .ite fresh_s1.raise fresh_s1

theorem FreshNumbers.hotRefresh {c : ChanId} : (s.hotRefresh c).FreshNumbers :=
  .ite fresh.updChan.updChan.logDram.raise fresh.updChan

theorem FreshNumbers.testPage : s.testPage.FreshNumbers := .ite fresh.updSeq.raise fresh.updSeq

theorem FreshNumbers.rejoin {n : LinkId} : (s.rejoin n).FreshNumbers := .ite fresh fresh.renumber.setLink

theorem FreshNumbers.beginPage {p : Page} : (s.beginPage p).FreshNumbers := by
  unfold State.beginPage
  split
  · extract_lets s1 s2 s3 s4 s5 s6
    have logged : s1.FreshNumbers := by
      unfold s1
      split
      · exact fresh.logWeb
      · exact fresh
    have joined : s2.FreshNumbers := logged.foldl fun _ _ ht => ht.rejoin
    have shifted : s3.FreshNumbers := joined.same
    have linked : s4.FreshNumbers := shifted.updPage
    have counted : s5.FreshNumbers := linked.same
    have ended : s6.FreshNumbers := counted.updSeq
    exact ended.pageFilled

theorem FreshNumbers.startPage : s.startPage.FreshNumbers := by
  unfold State.startPage
  extract_lets waits
  split
  · exact .ite fresh.beginPage fresh.updSeq
  · exact fresh.updSeq

theorem FreshNumbers.restCourse : s.restCourse.FreshNumbers := .ite fresh.updSeq.raise fresh.updSeq

theorem FreshNumbers.fillOrRest : s.fillOrRest.FreshNumbers := .ite fresh.updSeq fresh.restCourse

theorem FreshNumbers.planChan {c : ChanId} : (s.planChan c).FreshNumbers := .ite fresh.updChan fresh

theorem FreshNumbers.closeFetch : s.closeFetch.FreshNumbers :=
  fresh.foldl fun _ _ ht => .updFetch (ht.foldl fun _ _ hu => hu.loseBurst)

theorem FreshNumbers.retrainDone {id : Nat} : (s.retrainDone id).FreshNumbers := by
  unfold State.retrainDone
  split
  · exact fresh
  · exact .ite fresh (.ite fresh.succeed fresh.fail)

theorem FreshNumbers.rankResult {id : Nat} {c : ChanId} {r : RankId} {ok : Bool} : (s.rankResult id c r ok).FreshNumbers :=
  by
  unfold State.rankResult
  extract_lets bit s1
  have fresh_s1 : s1.FreshNumbers := .ite fresh fresh.updRank.raiseChan
  exact (fresh_s1.updCmd fun _ => by rfl).retrainDone

theorem FreshNumbers.logTrainFail {c : ChanId} {r : RankId} {cause : TrainCause} {mask : BitVec 16} :
    (s.logTrainFail c r cause mask).FreshNumbers :=
  fresh.logErr

theorem FreshNumbers.retrainStep {x : Cmd} : (s.retrainStep x).FreshNumbers := by
  unfold State.retrainStep
  extract_lets ranks kind reading bad
  split
  · exact fresh.retrainDone
  · refine .ite fresh ?_
    extract_lets hold s1 s2 s3
    have tempered : s1.FreshNumbers := FreshNumbers.temperStep fresh.same
    have held : s2.FreshNumbers := .ite tempered tempered.holdAt.logCourse
    have logged : s3.FreshNumbers := .ite held.logTrainFail held
    exact .ite (logged.updCmd fun _ => by rfl) (logged.updCmd fun _ => by rfl).rankResult

theorem FreshNumbers.retrainBoundary : s.retrainBoundary.FreshNumbers := by
  unfold State.retrainBoundary
  split
  · exact fresh.retrainStep
  · exact fresh

theorem FreshNumbers.startCourse : s.startCourse.FreshNumbers := by
  unfold State.startCourse
  extract_lets s1 s2 s3 s4
  have fresh_s1 : s1.FreshNumbers := .takeForce (fresh.foldl fun _ _ ht => ht.hotRefresh)
  have fresh_s3 : s3.FreshNumbers := by
    unfold s3
    split
    · refine .ite ?_ fresh_s1.settleHalted.closeFetch.testPage.startPage.fillOrRest
      extract_lets leff t
      have fresh_t : t.FreshNumbers := fresh_s1.settleHalted.closeFetch.testPage.startPage.fillOrRest.foldl fun _ _ ht =>
          ht.planLink
      exact fresh_t.foldl fun _ _ ht => ht.shortfalls
    · exact fresh_s1.settleHalted.closeFetch.testPage.startPage.fillOrRest
  have fresh_s4 : s4.FreshNumbers := fresh_s3.foldl fun _ _ ht => ht.planChan
  exact fresh_s4.updSeq.retrainBoundary.settlePages.checkFloor

theorem FreshNumbers.beginCourses : s.beginCourses.FreshNumbers :=
  .startCourse (.updSeq (fresh.foldl fun _ _ ht => ht.restartChan))

theorem FreshNumbers.issueSre : s.issueSre.FreshNumbers := by
  unfold State.issueSre
  extract_lets s1
  have fresh_s1 : s1.FreshNumbers := fresh.foldl fun _ _ ht => ht.issueSreOn
  exact .ite fresh_s1.startCourse fresh_s1.takeForce.settleHalted.closeFetch.testPage.restCourse.settlePages

theorem FreshNumbers.boundary : s.boundary.FreshNumbers :=
  .ite (.ite fresh.endCourse.issueSre fresh.endCourse.startCourse) fresh

/-! ### Operations of the model's file Arbiter -/

theorem FreshNumbers.updArb {c : ChanId} {f : Arb → Arb} : (s.updArb c f).FreshNumbers := fresh.updChan

theorem FreshNumbers.updBucket {h : HostId} {f : Bucket → Bucket} : (s.updBucket h f).FreshNumbers := by
  unfold State.updBucket
  exact fresh.same

theorem FreshNumbers.countPassed {ks : List (Fin 12 × Xfer × List Burst)} : (s.countPassed ks).FreshNumbers :=
  fresh.foldl fun _ _ ht => .ite ht.updBucket ht

theorem FreshNumbers.configure {c : ChanId} : (s.configure c).FreshNumbers := fresh.updArb

theorem FreshNumbers.chargeTokens {r : Fin 12} {x : Xfer} {back : Bool} : (s.chargeTokens r x back).FreshNumbers := by
  unfold State.chargeTokens
  split
  · exact fresh
  · exact .ite fresh.updBucket fresh

theorem FreshNumbers.grant {c : ChanId} {r : Fin 12} {x : Xfer} {bs : List Burst} : (s.grant c r x bs).FreshNumbers :=
  fresh.updArb.chargeTokens.presentOne

theorem FreshNumbers.decision {c : ChanId} : (s.decision c).FreshNumbers := by
  unfold State.decision
  refine .ite fresh ?_
  split
  · exact fresh.grant
  · extract_lets s1
    split
    · exact fresh.configure.countPassed.grant
    · exact fresh.configure.countPassed

theorem FreshNumbers.issuedBurst {c : ChanId} {r : Fin 12} {src : Src} {b : Burst} :
    (s.issuedBurst c r src b).FreshNumbers := by
  unfold State.issuedBurst
  split
  · exact fresh.doBurst
  · exact fresh.doMigrate
  · exact fresh.touchRow
  · exact .ite fresh.readRow fresh.readRow.noteRead
  · exact fresh.readRow.noteRead
  · exact fresh.readRow.noteRead

theorem FreshNumbers.represent {c : ChanId} {r : Fin 12} {x : Xfer} : (s.represent c r x).FreshNumbers :=
  fresh.updArb.chargeTokens

theorem FreshNumbers.protect {c : ChanId} {r : Fin 12} {x : Xfer} : (s.protect c r x).FreshNumbers := by
  unfold State.protect
  have first := fresh.issueBursts (c := c) (src := x.src) (bs := x.bursts) (n := 0)
  split
  · next s1 n issued =>
    rw [issued] at first
    exact .ite first first.updArb

theorem FreshNumbers.preempt {c : ChanId} {issued : Nat} : (s.preempt c issued).FreshNumbers := by
  unfold State.preempt
  split
  · exact fresh
  · refine .ite fresh ?_
    refine .ite fresh.protect ?_
    extract_lets s1
    have fresh_s1 : s1.FreshNumbers := fresh.foldl fun _ _ ht => ht.issuedBurst
    exact .ite fresh_s1 fresh_s1.represent

theorem FreshNumbers.refill : s.refill.FreshNumbers := by
  unfold State.refill
  exact .ite fresh fresh.same

/-! ### Operations of the model's file Ports -/

theorem FreshNumbers.resetPort {h : HostId} : (s.resetPort h).FreshNumbers := by
  unfold State.resetPort
  exact .ite fresh.stopHost.vacate.reserve.updHost.same fresh.stopHost.vacate.reserve.updHost.same.raiseHost

theorem FreshNumbers.linkPort {h : HostId} : (s.linkPort h).FreshNumbers := .ite fresh.updHost.raiseHost fresh

theorem FreshNumbers.hbTimeout {h : HostId} : (s.hbTimeout h).FreshNumbers := .ite fresh.becomeLate fresh

theorem FreshNumbers.hbExpiry {h : HostId} : (s.hbExpiry h).FreshNumbers := .ite fresh.fence fresh

/-! ### Operations of the model's file Reset -/

omit fresh in
/-- A reset leaves no command in flight, whatever was in flight (R26, R405). -/
theorem FreshNumbers.resetLogic (_ : s.FreshNumbers) {warm : Bool} {src : Nat} : (s.resetLogic warm src).FreshNumbers :=
  freshNumbers_of_nil rfl

theorem FreshNumbers.warmReset {src : Nat} : (s.warmReset src).FreshNumbers :=
  .resetLogic (fresh.haltNow.foldl fun _ _ ht => ht.stopHost)

theorem FreshNumbers.fullReset {src : Nat} : (s.fullReset src).FreshNumbers := fresh.resetLogic

theorem FreshNumbers.resetDevice {full : Bool} : (s.resetDevice full).FreshNumbers := .ite fresh.fullReset fresh.warmReset

theorem FreshNumbers.failStart {cause : Nat} {warm : Bool} : (s.failStart cause warm).FreshNumbers :=
  .ite fresh.updBoot.warmReset fresh.updBoot.fullReset

/-! ### Operations of the model's file Loops -/

theorem FreshNumbers.logClk {type : Nat} {l : LoopId} {before after : Nat} {cause err : Nat} {r0 r1 : Fin 4} :
    (s.logClk type l before after cause err r0 r1).FreshNumbers :=
  fresh.logErr

theorem FreshNumbers.setLoop {l : LoopId} {st : LoopState} {cause : Nat} : (s.setLoop l st cause).FreshNumbers :=
  .ite fresh fresh.updLoop.logClk.raise

theorem FreshNumbers.coast {l : LoopId} {cause : Nat} : (s.coast l cause).FreshNumbers := .ite fresh.setLoop fresh

theorem FreshNumbers.stopDevice : s.stopDevice.FreshNumbers := .steer (.withdrawMarkers (.ite fresh fresh.halt))

theorem FreshNumbers.orderlyStop {l : LoopId} {cause : Nat} : (s.orderlyStop l cause).FreshNumbers := by
  unfold State.orderlyStop
  refine .ite fresh ?_
  extract_lets s1 k s2
  have fresh_s2 : s2.FreshNumbers := fresh.updClk.stopDevice.foldl fun _ _ ht => .ite ht.setLoop ht
  exact fresh_s2.logClk

theorem FreshNumbers.enterRelock : s.enterRelock.FreshNumbers := by
  unfold State.enterRelock
  split
  · exact fresh
  · exact fresh.updClk.setLoop

theorem FreshNumbers.builtinBanks {c : ChanId} : (s.builtinBanks c).FreshNumbers := fresh.updChan

theorem FreshNumbers.finishChange : s.finishChange.FreshNumbers := by
  unfold State.finishChange
  split
  · exact fresh
  · extract_lets s1 s2 st
    have fresh_s2 : s2.FreshNumbers := .ite (fresh.updClk.foldl fun _ _ ht => ht.builtinBanks) fresh.updClk
    exact fresh_s2.logClk.steer

theorem FreshNumbers.relocked {l : LoopId} : (s.relocked l).FreshNumbers := by
  unfold State.relocked
  split
  · exact fresh
  · exact .ite (.steer (fresh.updClk.foldl fun _ _ ht => ht.updChan)) fresh.updClk.finishChange

theorem FreshNumbers.changeBack {reason : Nat} : (s.changeBack reason).FreshNumbers := by
  unfold State.changeBack
  split
  · exact fresh
  · extract_lets st s1 s2 s3
    have fresh_s3 : s3.FreshNumbers := fresh.updClk.logClk.foldl fun _ _ ht => ht.issueSreOn.updChan
    exact .ite fresh_s3.enterRelock fresh_s3

theorem FreshNumbers.changeTimeout {l : LoopId} : (s.changeTimeout l).FreshNumbers := by
  unfold State.changeTimeout
  split
  · exact fresh
  · exact .ite fresh (.ite fresh.changeBack fresh.failStart)

theorem FreshNumbers.towardLock {l : LoopId} {ppm : Int} : (s.towardLock l ppm).FreshNumbers :=
  .ite fresh (.ite fresh.updLoop (.ite fresh.updLoop (.ite fresh.updLoop.setLoop.relocked fresh.updLoop.setLoop)))

theorem FreshNumbers.watchLock {l : LoopId} {ppm : Int} : (s.watchLock l ppm).FreshNumbers :=
  .ite fresh.updLoop (.ite fresh.updLoop fresh.coast)

theorem FreshNumbers.noteErr {l : LoopId} {err : Int} : (s.noteErr l err).FreshNumbers := fresh.updLoop

theorem FreshNumbers.watchCoast {l : LoopId} {err : Int} : (s.watchCoast l err).FreshNumbers :=
  .ite fresh.noteErr.updLoop (.ite fresh.noteErr.updLoop fresh.noteErr.orderlyStop)

theorem FreshNumbers.judgeWindow {l : LoopId} {ppm err : Int} : (s.judgeWindow l ppm err).FreshNumbers := by
  unfold State.judgeWindow
  split
  · exact fresh
  · exact fresh.towardLock
  · exact fresh.towardLock
  · exact fresh.watchLock
  · exact .ite fresh.watchCoast.towardLock fresh.watchCoast
  · exact fresh.noteErr

theorem FreshNumbers.lockWindow {l : LoopId} {ppm err : Int} : (s.lockWindow l ppm err).FreshNumbers :=
  .ite fresh fresh.updLoop.judgeWindow

theorem FreshNumbers.refLost {periods : Nat} : (s.refLost periods).FreshNumbers :=
  .ite (fresh.updClk.foldl fun _ _ ht => ht.coast) fresh

theorem FreshNumbers.refPresent {periods : Nat} : (s.refPresent periods).FreshNumbers := .ite fresh fresh.updClk

theorem FreshNumbers.coastTrust {l : LoopId} : (s.coastTrust l).FreshNumbers := .ite fresh.orderlyStop fresh

theorem FreshNumbers.calibrate : s.calibrate.FreshNumbers := .ite fresh.updClk fresh

theorem FreshNumbers.goChange {l : LoopId} : (s.goChange l).FreshNumbers := by
  unfold State.goChange
  extract_lets k st
  split
  · exact .ite fresh.same.enterRelock fresh.same.steer
  · exact fresh.updClk.logClk

/-! ### Operations of the model's file Service -/

theorem FreshNumbers.regrid {ran : Bool} : (s.regrid ran).FreshNumbers :=
  .ite (.ite fresh fresh.beginCourses) (.ite fresh.takeForce.settleHalted fresh)

theorem FreshNumbers.enterService {ran : Bool} {c : ChanId} : (s.enterService ran c).FreshNumbers :=
  fresh.restartChan.updChan

theorem FreshNumbers.restEntry : s.restEntry.FreshNumbers := by
  unfold State.restEntry
  exact .ite fresh.same fresh

theorem FreshNumbers.stopCommands : s.stopCommands.FreshNumbers := fresh.foldl fun _ _ ht => ht.abort

theorem FreshNumbers.allRest : s.allRest.FreshNumbers := by
  unfold State.allRest
  extract_lets _ s1 s2
  have rested : s1.FreshNumbers := .ite fresh.same fresh
  have stopped : s2.FreshNumbers := .ite rested.stopCommands rested
  clear_value s2
  split
  · exact .ite stopped.enterRelock stopped
  · exact stopped

theorem FreshNumbers.restEntered {c : ChanId} : (s.restEntered c).FreshNumbers :=
  .ite fresh (.steer (.ite fresh.updChan.logSelfRefresh.allRest fresh.updChan.logSelfRefresh))

theorem FreshNumbers.srxRank {c : ChanId} {r : RankId} : (s.srxRank c r).FreshNumbers :=
  fresh.issueBoth.updRank.resetCredits

theorem FreshNumbers.pdeRank {c : ChanId} {r : RankId} : (s.pdeRank c r).FreshNumbers := fresh.issueBoth.updRank

theorem FreshNumbers.wakeRank {c : ChanId} {r : RankId} : (s.wakeRank c r).FreshNumbers := by
  unfold State.wakeRank
  exact .ite fresh.srxRank.issueBoth.issueBoth.same.temperStep.pdeRank fresh.srxRank.issueBoth.issueBoth.same.temperStep

theorem FreshNumbers.exitChan {ran : Bool} {c : ChanId} : (s.exitChan ran c).FreshNumbers := by
  unfold State.exitChan
  extract_lets rs s2 next
  have woken : s2.FreshNumbers := fresh.foldl fun _ _ ht => ht.wakeRank
  refine FreshNumbers.logSelfRefresh ?_
  clear_value next
  split
  · exact woken.updChan
  · exact woken.enterService

theorem FreshNumbers.restExit : s.restExit.FreshNumbers := by
  unfold State.restExit
  refine .ite fresh ?_
  extract_lets s1 s2
  have fresh_s1 : s1.FreshNumbers := fresh.foldl fun _ _ ht => ht.exitChan
  exact fresh_s1.same.regrid.steer

theorem FreshNumbers.setPower {d : DomainId} {up : Bool} : (s.setPower d up).FreshNumbers := fresh.updPower

theorem FreshNumbers.noteSwitch {d : DomainId} {up : Bool} {cause : Nat} : (s.noteSwitch d up cause).FreshNumbers :=
  fresh.logErr.raise

theorem FreshNumbers.popSwitch : s.popSwitch.FreshNumbers := by
  unfold State.popSwitch
  split
  · exact fresh
  · extract_lets s1
    split
    · exact fresh.updPower.noteSwitch.updPower.succeed.steer
    · exact fresh.updPower.noteSwitch.steer

theorem FreshNumbers.linkOn {n : LinkId} : (s.linkOn n).FreshNumbers := .ite fresh.enableLink fresh

theorem FreshNumbers.clearPool : s.clearPool.FreshNumbers := by
  unfold State.clearPool
  exact fresh.dropPages.same.foldl fun _ _ ht => ht.builtinBanks

theorem FreshNumbers.switchOff {d : DomainId} : (s.switchOff d).FreshNumbers := by
  unfold State.switchOff
  split
  · exact .ite fresh.steer fresh.updChan.setPower.popSwitch
  · exact .ite fresh.steer fresh.updChan.setPower.popSwitch
  · exact .ite fresh.setPower.popSwitch fresh.steer
  · exact .popSwitch (.setPower (fresh.foldl fun _ _ ht => ht.disableLink))

theorem FreshNumbers.switchOn {d : DomainId} : (s.switchOn d).FreshNumbers := by
  unfold State.switchOn
  refine .ite fresh ?_
  extract_lets s1
  split
  · exact .ite fresh.setPower.updChan fresh.setPower.popSwitch
  · exact .ite fresh.setPower.updChan fresh.setPower.popSwitch
  · exact fresh.setPower.clearPool.same.popSwitch
  · exact .popSwitch (fresh.setPower.foldl fun _ _ ht => ht.linkOn)

theorem FreshNumbers.domainSwitch {d : DomainId} : (s.domainSwitch d).FreshNumbers := by
  unfold State.domainSwitch
  split
  · exact .ite fresh (.ite fresh.switchOn (.ite fresh fresh.switchOff))
  · exact fresh

theorem FreshNumbers.serve {cs : List ChanId} : (s.serve cs).FreshNumbers :=
  .steer (.regrid (fresh.foldl fun _ _ ht => .ite ht.updChan (.ite ht.updChan.issueSreOn ht.updChan.enterService)))

theorem FreshNumbers.chanDone {c : ChanId} {k : TrainFor} : (s.chanDone c k).FreshNumbers := by
  unfold State.chanDone
  split
  · exact .ite fresh.updChan fresh.updChan.finishChange.serve
  · exact fresh.serve.popSwitch
  · exact fresh.serve

theorem FreshNumbers.nextRank {c : ChanId} {k : TrainFor} {rest : List RankId} : (s.nextRank c k rest).FreshNumbers :=
  .ite fresh.chanDone fresh.updChan

theorem FreshNumbers.clearHealth {c : ChanId} {r : RankId} : (s.clearHealth c r).FreshNumbers := fresh.updRank.updChan

theorem FreshNumbers.reinstated {id : Nat} {c : ChanId} {r : RankId} {res : TrainResult} :
    (s.reinstated id c r res).FreshNumbers := by
  unfold State.reinstated
  split
  · exact fresh.updRank.applyBaseline.pdeRank.clearHealth.logInteg.serve.succeed
  · exact fresh.issueBoth.issueBoth.updRank.logInteg.serve.fail

theorem FreshNumbers.speedFailed : s.speedFailed.FreshNumbers := .ite fresh.failStart fresh.changeBack

theorem FreshNumbers.rankPassed {c : ChanId} {r : RankId} {b : Baseline} {k : TrainFor} :
    (s.rankPassed c r b k).FreshNumbers :=
  .ite fresh fresh.issueBoth.issueBoth.applyBaseline

theorem FreshNumbers.rankDone {c : ChanId} {r : RankId} {res : TrainResult} : (s.rankDone c r res).FreshNumbers := by
  unfold State.rankDone
  split
  · refine .ite fresh ?_
    split
    · exact fresh.reinstated
    · exact fresh.rankPassed.nextRank.rankResult
    · exact fresh.rankPassed.nextRank
    · extract_lets s1
      split
      · exact fresh.logTrainFail.nextRank.rankResult
      · exact fresh.logTrainFail.reinstated
      · exact fresh.logTrainFail.speedFailed
      · exact fresh.logTrainFail.updRank.raiseChan.nextRank
  · exact fresh

theorem FreshNumbers.beginTraining {id : Nat} {cs : List ChanId} : (s.beginTraining id cs).FreshNumbers :=
  .regrid (fresh.foldl fun _ _ ht => .updChan (ht.foldl fun _ _ hu => hu.closeBoth))

theorem FreshNumbers.unquench {c : ChanId} : (s.unquench c).FreshNumbers := by
  unfold State.unquench
  exact fresh.updChan.same

theorem FreshNumbers.released {scope : Nat} : (s.released scope).FreshNumbers := by
  unfold State.released
  exact fresh.same.steer.logInteg.raise

theorem FreshNumbers.bodyRankReinstate {c : Cmd} : (bodyRankReinstate c s).FreshNumbers :=
  .ite fresh.fail (.ite fresh.fail (.ite fresh.fail fresh.srxRank.updChan))

theorem FreshNumbers.bodyRetrain {c : Cmd} : (bodyRetrain c s).FreshNumbers :=
  .ite (fresh.updCmd fun _ => by rfl).retrainDone (.ite fresh.fail (fresh.updCmd fun _ => by rfl).beginTraining.retrainDone)

theorem FreshNumbers.bodyPowerPolicy {c : Cmd} : (bodyPowerPolicy c s).FreshNumbers :=
  .ite fresh.fail (.ite fresh.updPower.updPower.succeed fresh.updPower.steer)

theorem FreshNumbers.bodyQuenchRelease {c : Cmd} : (bodyQuenchRelease c s).FreshNumbers := by
  unfold Machine.bodyQuenchRelease
  split
  · exact .ite fresh.fail (.succeed (.released (fresh.clearPool.same.foldl fun _ _ ht => ht.unquench)))
  · exact .ite fresh.fail fresh.unquench.released.succeed

/-! ### Operations of the model's file Upkeep -/

theorem FreshNumbers.beginPass {c : ChanId} : (s.beginPass c).FreshNumbers := fresh.updScrub

theorem FreshNumbers.passStart {c : ChanId} : (s.passStart c).FreshNumbers :=
  .ite fresh (.ite (.ite fresh fresh.updScrub.logInteg) fresh.beginPass)

theorem FreshNumbers.patrol {c : ChanId} : (s.patrol c).FreshNumbers := by
  unfold State.patrol
  extract_lets x
  split
  · exact fresh
  · exact fresh.updScrub.presentXfer

theorem FreshNumbers.scrubTransfer {c : ChanId} : (s.scrubTransfer c).FreshNumbers := by
  unfold State.scrubTransfer
  refine .ite fresh ?_
  split
  · exact .ite fresh.updScrub.presentXfer fresh.updScrub
  · exact .ite fresh (.ite fresh.updScrub.presentXfer fresh.updScrub)
  · exact .ite fresh.patrol fresh

theorem FreshNumbers.passDone {c : ChanId} : (s.passDone c).FreshNumbers := .ite fresh.updScrub.raise fresh

theorem FreshNumbers.intervalEnd {c : ChanId} {r : RankId} {kind : HealthInterval} :
    (s.intervalEnd c r kind).FreshNumbers := by
  unfold State.intervalEnd
  refine .ite fresh ?_
  extract_lets seen
  split
  · exact fresh.updRank
  · exact fresh.updRank.updChan
  · exact fresh.updRank.updChan

theorem FreshNumbers.clearAll : s.clearAll.FreshNumbers :=
  fresh.foldl fun _ _ ht => ht.foldl fun _ _ hu => .ite hu.clearHealth hu

theorem FreshNumbers.migrate {c : ChanId} : (s.migrate c).FreshNumbers := by
  unfold State.migrate
  refine .ite fresh ?_
  split
  · exact fresh
  · exact .ite fresh fresh.updMig.presentXfer

theorem FreshNumbers.cutover {c : ChanId} : (s.cutover c).FreshNumbers :=
  .ite fresh fresh.updRaster.updRank.sreRank.updRank.updChan.clearHealth.logInteg.raise

theorem FreshNumbers.bodyRankRetire {c : Cmd} : (bodyRankRetire c s).FreshNumbers := by
  unfold Machine.bodyRankRetire
  refine .ite fresh.fail ?_
  refine .ite fresh.updMig.succeed ?_
  refine .ite fresh.fail ?_
  split
  · exact fresh.fail
  · exact fresh.startMigration.succeed

theorem FreshNumbers.bodyMigrateStatus {c : Cmd} : (bodyMigrateStatus c s).FreshNumbers := fresh.succeed

theorem FreshNumbers.bodyScrubConfig {c : Cmd} : (bodyScrubConfig c s).FreshNumbers := by
  unfold Machine.bodyScrubConfig
  refine FreshNumbers.succeed ?_
  refine .ite ?_ (.ite (.ite fresh.updScrub.updScrub fresh.updScrub) fresh)
  extract_lets on t1
  have fresh_t1 : t1.FreshNumbers := .updScrub (.ite (.ite fresh.updScrub.updScrub fresh.updScrub) fresh)
  exact .ite fresh_t1.updScrub fresh_t1

end

end State

end Sys2Proof.Machine
end

section
/-! SUPPORT. Numbers of the commands in flight (R61, R65): what boot, tests, registers, events and fetch keep. -/

namespace Sys2Proof.Machine

namespace State

section
variable {s : State} (fresh : s.FreshNumbers)
include fresh

/-! ### Operations of the model's file Boot -/

theorem FreshNumbers.powerOn {rise : Bool} {refSel : BitVec 2} : (s.powerOn rise refSel).FreshNumbers := by
  unfold State.powerOn
  exact fresh.fullReset.same

theorem FreshNumbers.crash {cause : Nat} : (s.crash cause).FreshNumbers := by
  unfold State.crash
  exact fresh.same.failStart

theorem FreshNumbers.logReset : s.logReset.FreshNumbers := fresh.logErr

theorem FreshNumbers.logImage {slotB : Bool} {i : ImageInfo} {revoked : BitVec 4} :
    (s.logImage slotB i revoked).FreshNumbers := fresh.logErr

theorem FreshNumbers.enterBanked : s.enterBanked.FreshNumbers := by
  unfold State.enterBanked
  exact FreshNumbers.logReset fresh.same

theorem FreshNumbers.chooseImage {b : BootInput} : (s.chooseImage b).1.FreshNumbers := by
  unfold State.chooseImage
  extract_lets comm first img s1 s2
  split
  · exact fresh.logImage
  · split
    · exact fresh.logImage.logImage
    · exact fresh.logImage.logImage

theorem FreshNumbers.startClocks {i : ImageInfo} : (s.startClocks i).FreshNumbers :=
  fresh.updClk.foldl fun _ _ ht => ht.setLoop.setLoop

theorem FreshNumbers.logOpen {what : Nat} : (s.logOpen what).FreshNumbers := by
  unfold State.logOpen
  exact fresh.same

theorem FreshNumbers.readRank {b : BootInput} {c : ChanId} {r : RankId} : (readRank b c s r).FreshNumbers :=
  fresh.applyBaseline.resetCredits

theorem FreshNumbers.trainDram {i : ImageInfo} {b : BootInput} {single : Bool} {only : ChanId} :
    (s.trainDram i b single only).FreshNumbers := by
  unfold State.trainDram
  extract_lets passed kept s1 raster t1 u1 s2 after s3 s4 s5
  have failures : s1.FreshNumbers := fresh.foldl fun _ _ ht => ht.logTrainFail
  have lost : t1.FreshNumbers := .ite failures.logOpen failures
  have refused : u1.FreshNumbers := .ite lost.logOpen lost
  have cleared : s2.FreshNumbers := .ite refused refused.same
  have trained : s3.FreshNumbers := cleared.same
  have passing : s4.FreshNumbers := trained.foldl fun _ _ ht => ht.builtinBanks.beginPass
  have raised : s5.FreshNumbers := passing.foldl fun _ _ ht => .ite ht ht.raiseChan
  exact raised.foldl fun _ _ ht => ht.foldl fun _ _ hu => hu.readRank

theorem FreshNumbers.start_ {b : BootInput} : (s.start_ b).FreshNumbers := by
  unfold State.start_
  extract_lets known s0 s1 on
  refine .ite fresh.updBoot.enterBanked ?_
  have chosen : (s1.chooseImage b).1.FreshNumbers := fresh.updBoot.logReset.chooseImage
  split
  · next s2 choice =>
    rw [choice] at chosen
    exact chosen.updBoot.failStart
  · next s2 slotB fell i choice =>
    rw [choice] at chosen
    extract_lets s3
    have clocked : s3.FreshNumbers := chosen.updBoot.startClocks
    split
    · exact clocked.updBoot.failStart
    · extract_lets s4 s5 s6
      have trained : s4.FreshNumbers := clocked.trainDram
      have ready : s6.FreshNumbers := trained.updPower.updBoot.same
      exact ready.beginCourses

theorem FreshNumbers.bootStart {b : BootInput} : (s.bootStart b).FreshNumbers := .ite fresh.start_ fresh

theorem FreshNumbers.dieHot {t : BitVec 16} : (s.dieHot t).FreshNumbers :=
  .ite fresh.updPower fresh.updPower.updPower.logErr.raise

theorem FreshNumbers.thermalStop {t : BitVec 16} : (s.thermalStop t).FreshNumbers := by
  unfold State.thermalStop
  exact .ite fresh.updPower (.ite fresh.updPower.same.failStart fresh.updPower.updPower.updBoot.stopDevice.logErr.raise)

theorem FreshNumbers.logSupply {rail : Fin 7} {what : Nat} : (s.logSupply rail what).FreshNumbers := fresh.logErr

theorem FreshNumbers.railWarning {rail : Fin 7} : (s.railWarning rail).FreshNumbers :=
  .ite fresh fresh.updPower.logSupply.raise

theorem FreshNumbers.railRecovered {rail : Fin 7} : (s.railRecovered rail).FreshNumbers :=
  .ite fresh (.ite fresh.updPower fresh.updPower.logSupply.raise)

theorem FreshNumbers.supplyStop {rail : Fin 7} {low : Nat} : (s.supplyStop rail low).FreshNumbers := by
  unfold State.supplyStop
  exact .ite fresh fresh.same.logSupply.failStart

theorem FreshNumbers.action {act : State → State} (hact : ∀ t, t.FreshNumbers → (act t).FreshNumbers) :
    (s.action act).FreshNumbers := by
  unfold State.action
  extract_lets s1
  split
  · exact .ite (hact _ fresh.updPower) fresh.updPower
  · exact fresh.updPower

theorem FreshNumbers.hostOn : s.hostOn.FreshNumbers := .ite fresh fresh.setPower.noteSwitch

theorem FreshNumbers.hostOff : s.hostOff.FreshNumbers :=
  .ite fresh (.noteSwitch (.setPower (fresh.foldl fun _ _ ht => ht.resetPort)))

theorem FreshNumbers.shutdown : s.shutdown.FreshNumbers := .ite fresh fresh.haltNow.updPower.steer.raise

/-! ### Operations of the model's file TestFw -/

theorem FreshNumbers.stage {c : Cmd} : (s.stage c).FreshNumbers := fresh.updBoot.emit.succeed

theorem FreshNumbers.commit {id : Nat} {bs : List Byte} : (s.commit id bs).FreshNumbers := fresh.updBoot.succeed

theorem FreshNumbers.testDecoder {id : Nat} {e : Fin 34} : (s.testDecoder id e).FreshNumbers := by
  unfold State.testDecoder
  exact .ite fresh.fail (.ite fresh.useFree.updEngine.same.logErr.raise.succeed fresh.useFree.updEngine.succeed)

theorem FreshNumbers.askCompTest {id : Nat} {n : Fin 8} : (s.askCompTest id n).FreshNumbers :=
  .ite fresh.updComp fresh.testComp

theorem FreshNumbers.testPool {id : Nat} : (s.testPool id).FreshNumbers := by
  unfold State.testPool
  exact .ite fresh.fail (.ite fresh.useFree.same.succeed fresh.useFree.same.succeed)

theorem FreshNumbers.bodyRawWrite {c : Cmd} : (bodyRawWrite c s).FreshNumbers := fresh.beginWrite

theorem FreshNumbers.bodyRawRead {c : Cmd} : (bodyRawRead c s).FreshNumbers := fresh.beginRead

theorem FreshNumbers.bodyEccInject {c : Cmd} : (bodyEccInject c s).FreshNumbers :=
  .ite fresh.updChan.succeed (fresh.beginFills.updCmd fun _ => by rfl).present.progress

theorem FreshNumbers.bodyQuenchDump {c : Cmd} : (bodyQuenchDump c s).FreshNumbers := by
  unfold Machine.bodyQuenchDump
  split
  · exact fresh.fail
  · extract_lets len s1
    have fresh_s1 : s1.FreshNumbers := .ite fresh fresh.emit
    exact fresh_s1.succeed

theorem FreshNumbers.bodySelfTest {c : Cmd} : (bodySelfTest c s).FreshNumbers := by
  unfold Machine.bodySelfTest
  split
  · exact fresh.testDecoder
  · exact fresh.askCompTest
  · exact fresh.testPool

theorem FreshNumbers.bodyFwStage {c : Cmd} : (bodyFwStage c s).FreshNumbers := fresh.updCmd fun _ => by rfl

theorem FreshNumbers.bodyFwCommit {c : Cmd} : (bodyFwCommit c s).FreshNumbers :=
  .ite fresh.fail (.ite fresh.fail fresh.commit)

theorem FreshNumbers.bodyResetDevice {c : Cmd} : (bodyResetDevice c s).FreshNumbers := fresh.succeed.updBoot

/-! ### Operations of the model's file RegRead -/

theorem FreshNumbers.read32 {h : HostId} {off : Nat} : (s.read32 h off).1.FreshNumbers := by
  unfold State.read32
  dsimp only
  split
  · exact fresh
  · split
    · exact fresh.updHost
    · split
      · exact fresh.updHost
      · exact fresh

theorem FreshNumbers.readAccess {h : HostId} {off : Nat} {wide : Bool} : (s.readAccess h off wide).FreshNumbers := by
  unfold State.readAccess
  dsimp only
  exact .ite fresh.read32.read32.emit fresh.read32.emit

/-! ### Operations of the model's file RegWrite -/

theorem FreshNumbers.request {h : HostId} {act : State → State} (hact : ∀ t, t.FreshNumbers → (act t).FreshNumbers) :
    (s.request h act).FreshNumbers :=
  .ite fresh (.ite (hact _ fresh) fresh.emit)

theorem FreshNumbers.countIgnored {h : HostId} : (s.countIgnored h).FreshNumbers := fresh.updHost

theorem FreshNumbers.writeAs {h : HostId} {act : State → State} (hact : ∀ t, t.FreshNumbers → (act t).FreshNumbers) :
    (s.writeAs h act).FreshNumbers :=
  fresh.request fun _ ht => .ite ht.countIgnored (hact _ ht)

theorem FreshNumbers.writeControl {h : HostId} {q : QueueId} {v : Dword} : (s.writeControl h q v).FreshNumbers :=
  fresh.updQueue.settleDisable

theorem FreshNumbers.badDoorbell {h : HostId} {q : QueueId} {cq : Bool} {v : Dword} : (s.badDoorbell h q cq v).FreshNumbers :=
  fresh.updQueue.logErrMs

theorem FreshNumbers.writeTail {h : HostId} {q : QueueId} {v : Dword} : (s.writeTail h q v).FreshNumbers :=
  .ite fresh.updQueue fresh.badDoorbell

theorem FreshNumbers.writeHead {h : HostId} {q : QueueId} {v : Dword} : (s.writeHead h q v).FreshNumbers :=
  .ite fresh.updQueue fresh.badDoorbell

theorem FreshNumbers.writeQueue {h : HostId} {off : Nat} {v : Dword} : (s.writeQueue h off v).FreshNumbers := by
  unfold State.writeQueue
  refine .ite (.ite fresh.writeTail fresh.writeHead) ?_
  refine .ite ?_ fresh
  extract_lets q on base
  split
  · exact fresh.updQueue
  · exact fresh.updQueue
  · exact fresh.updQueue
  · exact fresh.updQueue
  · exact fresh.writeControl
  · exact fresh.updQueue
  · exact fresh

theorem FreshNumbers.fenceAck {h : HostId} : (s.fenceAck h).FreshNumbers := .ite fresh.updHost.raiseHost fresh

theorem FreshNumbers.ring {h : HostId} {v : Dword} : (s.ring h v).FreshNumbers := by
  unfold State.ring
  exact .ite (fresh.same.foldl fun _ _ ht => ht.raise) fresh

theorem FreshNumbers.writeHost {h : HostId} {off : Nat} {v : Dword} : (s.writeHost h off v).FreshNumbers := by
  unfold State.writeHost
  exact .ite (.ite fresh.fenceAck fresh) (.ite fresh.beat (.ite fresh.ring (.ite (.ite fresh.same fresh) fresh)))

theorem FreshNumbers.writeRoute {h : HostId} {n : Fin 96} {v : Dword} : (s.writeRoute h n v).FreshNumbers := by
  unfold State.writeRoute
  exact .ite fresh (.ite fresh.logErrMs (.ite fresh fresh.same))

theorem FreshNumbers.writeMask {h : HostId} {m : Fin 3} {v : Dword} : (s.writeMask h m v).FreshNumbers :=
  fresh.updHost.foldl fun _ _ ht => ht.countRaise

theorem FreshNumbers.writeEvents {h : HostId} {off : Nat} {v : Dword} : (s.writeEvents h off v).FreshNumbers :=
  .ite fresh.writeRoute (.ite fresh.updHost (.ite fresh.writeMask (.ite fresh.updVec fresh)))

theorem FreshNumbers.writeMsix {h : HostId} {off : Nat} {v : Dword} : (s.writeMsix h off v).FreshNumbers := by
  unfold State.writeMsix
  refine .ite ?_ fresh
  extract_lets n
  split
  · exact fresh.updVec
  · exact fresh.updVec
  · exact fresh.updVec
  · exact .ite fresh.updVec.updVec.sendMsg fresh.updVec

theorem FreshNumbers.applyRank {new : Raster} {c : ChanId} {r : RankId} : (applyRank new c s r).FreshNumbers :=
  .ite fresh (.ite (.updRank (.ite fresh.useRank fresh)) (.updRank (.ite fresh fresh.closeBoth.pdeRank)))

theorem FreshNumbers.applyMap : s.applyMap.FreshNumbers := by
  unfold State.applyMap
  split
  · extract_lets new s1
    have fresh_s1 : s1.FreshNumbers := fresh.foldl fun _ _ ht => ht.foldl fun _ _ hu => hu.applyRank
    exact fresh_s1.same
  · exact fresh.updRaster

theorem FreshNumbers.writeMap {off : Nat} {v : Dword} : (s.writeMap off v).FreshNumbers :=
  .ite fresh.updRaster (.ite fresh.updRaster (.ite (.ite fresh.updRaster.applyMap fresh.updRaster) fresh))

theorem FreshNumbers.updShadow {f : Ks → Ks} : (s.updShadow f).FreshNumbers := by
  unfold State.updShadow
  exact fresh.same

theorem FreshNumbers.writeKeystone : s.writeKeystone.FreshNumbers := by
  unfold State.writeKeystone
  split
  · exact fresh.refuseKey
  · exact fresh.acceptKey

theorem FreshNumbers.writeCommit {off : Nat} {v : Dword} : (s.writeCommit off v).FreshNumbers := by
  unfold State.writeCommit
  split
  · exact fresh.writeKeystone
  · exact .ite fresh.updShadow fresh
  · exact fresh.updShadow
  · exact fresh.updShadow
  · exact fresh.same
  · exact fresh

theorem FreshNumbers.writePool {off : Nat} {v : Dword} : (s.writePool off v).FreshNumbers := .ite fresh.updShadow fresh

theorem FreshNumbers.writeLink {off : Nat} {v : Dword} : (s.writeLink off v).FreshNumbers := .ite fresh.updLink fresh

theorem FreshNumbers.writeWeb {off : Nat} {v : Dword} : (s.writeWeb off v).FreshNumbers := by
  unfold State.writeWeb
  split
  · exact fresh.updShadow
  · exact fresh.updShadow
  · exact fresh.updShadow
  · exact fresh.updShadow
  · exact fresh.updShadow
  · exact fresh.updWeb
  · exact fresh.updWeb
  · exact fresh

theorem FreshNumbers.updShown {c : ChanId} {f : Chan → Chan} : (s.updShown c f).FreshNumbers := .ite fresh.updChan fresh

theorem FreshNumbers.writeDram {off : Nat} {v : Dword} : (s.writeDram off v).FreshNumbers := by
  unfold State.writeDram
  split
  · exact fresh.updShadow
  · exact fresh.updShown
  · exact fresh.updShown
  · exact fresh.same
  · exact fresh

theorem FreshNumbers.writeArb {off : Nat} {v : Dword} : (s.writeArb off v).FreshNumbers := by
  unfold State.writeArb
  extract_lets h
  split
  · exact fresh.updShadow
  · exact fresh.updShadow
  · exact fresh.updShadow
  · exact .ite fresh.updArb fresh
  · exact .ite fresh.updArb fresh
  · exact .ite fresh.updShadow fresh
  · exact .ite fresh.updShadow fresh
  · exact .ite fresh.updShadow fresh
  · exact .ite fresh.updShadow fresh
  · exact .ite fresh.same fresh
  · exact .ite fresh.same fresh
  · exact .ite fresh.same fresh
  · exact .ite fresh.same fresh
  · exact fresh

theorem FreshNumbers.writeInteg {off : Nat} {v : Dword} : (s.writeInteg off v).FreshNumbers := by
  unfold State.writeInteg
  split
  · exact fresh.updShadow.same
  · exact .ite fresh.clearAll fresh
  · exact fresh.updShown
  · exact fresh.updShown
  · exact fresh.updShadow
  · exact fresh

theorem FreshNumbers.writeClk {off : Nat} {v : Dword} : (s.writeClk off v).FreshNumbers := by
  unfold State.writeClk
  split
  · exact fresh.updClk
  · extract_lets s1 s2
    have fresh_s2 : s2.FreshNumbers := .ite fresh.updClk.goChange fresh.updClk
    exact .ite fresh_s2.goChange fresh_s2
  · exact fresh.updShadow
  · exact fresh.updShadow
  · exact fresh

theorem FreshNumbers.writeSteward {off : Nat} {v : Dword} : (s.writeSteward off v).FreshNumbers :=
  .ite fresh.writeCommit (.ite fresh.writeMap (.ite fresh.writePool (.ite fresh.writeLink (.ite fresh.writeWeb (.ite
      fresh.writeDram (.ite fresh.writeArb (.ite fresh.writeInteg fresh.writeClk)))))))

theorem FreshNumbers.write32 {h : HostId} {off : Nat} {v : Dword} : (s.write32 h off v).FreshNumbers :=
  .ite fresh.countIgnored (.ite fresh (.ite fresh.writeHost (.ite fresh.writeQueue (.ite fresh (.ite fresh.writeEvents
      (.ite fresh (.ite (.ite fresh.writeSteward fresh) fresh.writeMsix)))))))

theorem FreshNumbers.badAccess {h : HostId} {write : Bool} {off size : Nat} :
    (s.badAccess h write off size).FreshNumbers := by
  unfold State.badAccess
  refine .ite ?_ fresh.logErrMs.emit
  extract_lets s2
  have fresh_s2 : s2.FreshNumbers := .ite fresh.logErrMs.countIgnored fresh.logErrMs
  exact fresh_s2.emit

theorem FreshNumbers.readBar {h : HostId} {off : BitVec 16} {wide : Bool} : (s.readBar h off wide).FreshNumbers := by
  unfold State.readBar
  exact fresh.request fun _ ht => .ite ht.badAccess (.ite ht.readAccess ht.same)

theorem FreshNumbers.writeBar {h : HostId} {off : BitVec 16} {wide : Bool} {v : BitVec 64} :
    (s.writeBar h off wide v).FreshNumbers :=
  fresh.request fun _ ht => .ite ht.badAccess (.ite ht.write32 (.ite (.ite ht.write32 ht.write32) ht.write32.write32))

theorem FreshNumbers.answerReads : s.answerReads.FreshNumbers := by
  unfold State.answerReads
  exact .ite (fresh.same.foldl fun _ _ ht => ht.readAccess) fresh

/-! ### Operations of the model's file EventsMgmt -/

theorem FreshNumbers.holdoffEnd {h : HostId} {v : Fin 32} : (s.holdoffEnd h v).FreshNumbers := by
  unfold State.holdoffEnd
  extract_lets x
  split
  · exact fresh
  · exact .ite fresh (.ite fresh.updVec (.ite fresh.updVec fresh.updVec.sendMsg))

theorem FreshNumbers.pulseEnd {k : Fin 2} : (s.pulseEnd k).FreshNumbers := by
  unfold State.pulseEnd
  split
  · exact .ite fresh.same fresh
  · exact fresh

/-! ### Operations of the model's file Fetch -/

/-- Every command's own meaning keeps the numbers fresh. -/
theorem FreshNumbers.bodyOf {op : Nat} {c : Cmd} : (bodyOf op c s).FreshNumbers := by
  unfold Machine.bodyOf
  split
  · exact fresh.bodyNop
  · exact fresh.bodyIdentify
  · exact fresh.bodyGetLog
  · exact fresh.bodySetFeature
  · exact fresh.bodyGetFeature
  · exact fresh.bodyAttach
  · exact fresh.bodyDetach
  · exact fresh.bodyHeartbeat
  · exact fresh.bodyClaimSteward
  · exact fresh.bodyReleaseSteward
  · exact fresh.bodyFenceHost
  · exact fresh.bodyAllocAshlars
  · exact fresh.bodyFreeAshlars
  · exact fresh.bodyWriteRaw
  · exact fresh.bodyWriteCompress
  · exact fresh.bodyRead
  · exact fresh.bodyZero
  · exact fresh.bodySealStrip
  · exact fresh.bodyGetStripInfo
  · exact fresh.bodyDefineRawStrip
  · exact fresh.bodyFreeStrip
  · exact fresh.bodyLoadCourse
  · exact fresh.bodyKeystone
  · exact fresh.bodyPageQueue
  · exact fresh.bodyPageCancel
  · exact fresh.bodySetLookahead
  · exact fresh.bodyRun
  · exact fresh.bodyHaltDrain
  · exact fresh.bodyLinkConfig
  · exact fresh.bodyLinkTrain
  · exact fresh.bodyWebConfig
  · exact fresh.bodyFirePhase
  · exact fresh.bodyWaveBank
  · exact fresh.bodyLinkMsg
  · exact fresh.bodyRankRetire
  · exact fresh.bodyRankReinstate
  · exact fresh.bodyScrubConfig
  · exact fresh.bodyMigrateStatus
  · exact fresh.bodyRetrain
  · exact fresh.bodyPowerPolicy
  · exact fresh.bodyRawWrite
  · exact fresh.bodyRawRead
  · exact fresh.bodyEccInject
  · exact fresh.bodyQuenchDump
  · exact fresh.bodyQuenchRelease
  · exact fresh.bodySelfTest
  · exact fresh.bodyFwStage
  · exact fresh.bodyFwCommit
  · exact fresh.bodyResetDevice
  · exact fresh

theorem FreshNumbers.sourced {c : Cmd} : (s.sourced c).FreshNumbers := by
  unfold State.sourced
  refine .ite fresh.handOut.progress ?_
  refine .ite fresh.compressInput ?_
  refine .ite fresh ?_
  split
  · exact fresh.loadTable
  · exact fresh.queuePages
  · exact fresh.messageReady
  · exact fresh.stage
  · exact fresh

/-- The data of a read go to the command that waits for them, which keeps its number (R101). -/
theorem FreshNumbers.hostData {h : HostId} {id : Nat} {data : List Byte} : (s.hostData h id data).FreshNumbers := by
  cases reading : s.reading h id with
  | none =>
    rw [hostData_none reading]
    exact fresh
  | some c =>
    rw [hostData_some reading]
    have number : c.id = id := id_of_find (find_of_reading reading)
    have kept : (s.given id (s.withData c data)).FreshNumbers :=
      fresh.updCmd_mem fun d _ hd => number.trans hd.symm
    exact kept.sourced

theorem FreshNumbers.readFails {h : HostId} {id : Nat} {a : Answer} : (s.readFails h id a).FreshNumbers := by
  unfold State.readFails
  split
  · exact fresh
  · split
    · exact fresh.abort.engineFree
    · exact fresh.abort.settlePool

theorem FreshNumbers.dueTests : s.dueTests.FreshNumbers := by
  unfold State.dueTests
  refine fresh.foldl fun acc n ht => ?_
  split
  · exact ht.testComp
  · exact ht

theorem FreshNumbers.houseKeep : s.houseKeep.FreshNumbers := by
  unfold State.houseKeep
  extract_lets s0 s1 s2 s3 s4
  have fresh_s0 : s0.FreshNumbers := .foldl (fresh.inCore fun _ ht => ht.webKeep) fun _ _ ht => ht.replayOn
  have fresh_s2 : s2.FreshNumbers := fresh_s0.dueTests.settlePool.foldl fun _ _ ht => ht.serveMessages
  have fresh_s3 : s3.FreshNumbers := .ite fresh_s2.wantDram fresh_s2
  have fresh_s4 : s4.FreshNumbers := .ite fresh_s3 fresh_s3.takeForce.settleHalted
  exact fresh_s4.steer

theorem FreshNumbers.tick : s.tick.FreshNumbers := by
  unfold State.tick
  refine .ite fresh.answerReads ?_
  split
  · exact fresh.start fun _ _ ht => ht.bodyOf
  · split
    · exact fresh.resume fun _ _ ht => ht.bodyOf
    · exact fresh.houseKeep.same

end

end State

end Sys2Proof.Machine
end

section
/-! SUPPORT. Numbers of the commands in flight (R61, R65): what every row of the table and the clock keep. -/

namespace Sys2Proof.Machine

namespace State

/-- The state that an outcome holds is fresh when the state that it was made of is. -/
theorem FreshNumbers.of_next {t u : State}
    (outcome : (.next u : Host.Outcome State Fault Refusal) = .next t) (fresh : u.FreshNumbers) : t.FreshNumbers := by
  cases outcome
  exact fresh

/-- Every row of the table keeps the numbers fresh. -/
theorem FreshNumbers.exec {s t : State} (fresh : s.FreshNumbers) {i : Instr} (stepped : exec i s = .next t) :
    t.FreshNumbers := by
  cases i with
  | nop _ => exact of_next stepped (fresh.submit fun _ _ ht => ht.bodyNop)
  | identify _ => exact of_next stepped (fresh.submit fun _ _ ht => ht.bodyIdentify)
  | getLog _ => exact of_next stepped (fresh.submit fun _ _ ht => ht.bodyGetLog)
  | setFeature _ => exact of_next stepped (fresh.submit fun _ _ ht => ht.bodySetFeature)
  | getFeature _ => exact of_next stepped (fresh.submit fun _ _ ht => ht.bodyGetFeature)
  | attach _ => exact of_next stepped (fresh.submit fun _ _ ht => ht.bodyAttach)
  | detach _ => exact of_next stepped (fresh.submit fun _ _ ht => ht.bodyDetach)
  | heartbeat _ => exact of_next stepped (fresh.submit fun _ _ ht => ht.bodyHeartbeat)
  | claimSteward _ => exact of_next stepped (fresh.submit fun _ _ ht => ht.bodyClaimSteward)
  | releaseSteward _ => exact of_next stepped (fresh.submit fun _ _ ht => ht.bodyReleaseSteward)
  | fenceHost _ => exact of_next stepped (fresh.submit fun _ _ ht => ht.bodyFenceHost)
  | allocAshlars _ => exact of_next stepped (fresh.submit fun _ _ ht => ht.bodyAllocAshlars)
  | freeAshlars _ => exact of_next stepped (fresh.submit fun _ _ ht => ht.bodyFreeAshlars)
  | writeRaw _ => exact of_next stepped (fresh.submit fun _ _ ht => ht.bodyWriteRaw)
  | writeCompress _ => exact of_next stepped (fresh.submit fun _ _ ht => ht.bodyWriteCompress)
  | read _ => exact of_next stepped (fresh.submit fun _ _ ht => ht.bodyRead)
  | zero _ => exact of_next stepped (fresh.submit fun _ _ ht => ht.bodyZero)
  | sealStrip _ => exact of_next stepped (fresh.submit fun _ _ ht => ht.bodySealStrip)
  | getStripInfo _ => exact of_next stepped (fresh.submit fun _ _ ht => ht.bodyGetStripInfo)
  | defineRawStrip _ => exact of_next stepped (fresh.submit fun _ _ ht => ht.bodyDefineRawStrip)
  | freeStrip _ => exact of_next stepped (fresh.submit fun _ _ ht => ht.bodyFreeStrip)
  | loadCourse _ => exact of_next stepped (fresh.submit fun _ _ ht => ht.bodyLoadCourse)
  | keystone _ => exact of_next stepped (fresh.submit fun _ _ ht => ht.bodyKeystone)
  | pageQueue _ => exact of_next stepped (fresh.submit fun _ _ ht => ht.bodyPageQueue)
  | pageCancel _ => exact of_next stepped (fresh.submit fun _ _ ht => ht.bodyPageCancel)
  | setLookahead _ => exact of_next stepped (fresh.submit fun _ _ ht => ht.bodySetLookahead)
  | run _ => exact of_next stepped (fresh.submit fun _ _ ht => ht.bodyRun)
  | haltDrain _ => exact of_next stepped (fresh.submit fun _ _ ht => ht.bodyHaltDrain)
  | linkConfig _ => exact of_next stepped (fresh.submit fun _ _ ht => ht.bodyLinkConfig)
  | linkTrain _ => exact of_next stepped (fresh.submit fun _ _ ht => ht.bodyLinkTrain)
  | webConfig _ => exact of_next stepped (fresh.submit fun _ _ ht => ht.bodyWebConfig)
  | firePhase _ => exact of_next stepped (fresh.submit fun _ _ ht => ht.bodyFirePhase)
  | waveBank _ => exact of_next stepped (fresh.submit fun _ _ ht => ht.bodyWaveBank)
  | linkMsg _ => exact of_next stepped (fresh.submit fun _ _ ht => ht.bodyLinkMsg)
  | rankRetire _ => exact of_next stepped (fresh.submit fun _ _ ht => ht.bodyRankRetire)
  | rankReinstate _ => exact of_next stepped (fresh.submit fun _ _ ht => ht.bodyRankReinstate)
  | scrubConfig _ => exact of_next stepped (fresh.submit fun _ _ ht => ht.bodyScrubConfig)
  | migrateStatus _ => exact of_next stepped (fresh.submit fun _ _ ht => ht.bodyMigrateStatus)
  | retrain _ => exact of_next stepped (fresh.submit fun _ _ ht => ht.bodyRetrain)
  | powerPolicy _ => exact of_next stepped (fresh.submit fun _ _ ht => ht.bodyPowerPolicy)
  | rawWrite _ => exact of_next stepped (fresh.submit fun _ _ ht => ht.bodyRawWrite)
  | rawRead _ => exact of_next stepped (fresh.submit fun _ _ ht => ht.bodyRawRead)
  | eccInject _ => exact of_next stepped (fresh.submit fun _ _ ht => ht.bodyEccInject)
  | quenchDump _ => exact of_next stepped (fresh.submit fun _ _ ht => ht.bodyQuenchDump)
  | quenchRelease _ => exact of_next stepped (fresh.submit fun _ _ ht => ht.bodyQuenchRelease)
  | selfTest _ => exact of_next stepped (fresh.submit fun _ _ ht => ht.bodySelfTest)
  | fwStage _ => exact of_next stepped (fresh.submit fun _ _ ht => ht.bodyFwStage)
  | fwCommit _ => exact of_next stepped (fresh.submit fun _ _ ht => ht.bodyFwCommit)
  | resetDevice _ => exact of_next stepped (fresh.submit fun _ _ ht => ht.bodyResetDevice)
  | packetFetch _ _ _ => exact of_next stepped (fresh.submit fun _ _ ht => ht.bodyOf)
  | sqTail _ _ _ => exact of_next stepped (fresh.writeAs fun _ ht => ht.writeTail)
  | cqHead _ _ _ => exact of_next stepped (fresh.writeAs fun _ ht => ht.writeHead)
  | queueEnable _ _ _ => exact of_next stepped (fresh.writeAs fun _ ht => ht.writeControl)
  | queueDisable _ _ _ => exact of_next stepped (fresh.writeAs fun _ ht => ht.writeControl)
  | fenceAck _ _ => exact of_next stepped (fresh.request fun _ ht => .ite ht.fenceAck ht)
  | heartbeatRegisterWrite _ _ => exact of_next stepped (fresh.writeAs fun _ ht => ht.beat)
  | keystoneRegisterWrite _ _ => exact of_next stepped (fresh.writeAs fun _ ht => .ite ht.writeKeystone ht)
  | apply _ _ => exact of_next stepped (fresh.writeAs fun _ ht => .ite ht.writeMap ht)
  | mailboxRing _ _ => exact of_next stepped (fresh.writeAs fun _ ht => ht.ring)
  | eventRouteWrite _ _ _ => exact of_next stepped (fresh.writeAs fun _ ht => ht.writeRoute)
  | eventMaskWrite _ _ _ => exact of_next stepped (fresh.writeAs fun _ ht => ht.writeMask)
  | clear _ _ => exact of_next stepped (fresh.writeAs fun _ ht => .ite ht.clearAll ht)
  | goMem _ _ => exact of_next stepped (fresh.writeAs fun _ ht => .ite ht.writeClk ht)
  | goCore _ _ => exact of_next stepped (fresh.writeAs fun _ ht => .ite ht.writeClk ht)
  | registerPairRead _ _ _ => exact of_next stepped fresh.readBar
  | registerWrite _ _ _ _ => exact of_next stepped fresh.writeBar
  | barAccess _ _ _ _ => exact of_next stepped (.ite fresh (fresh.request fun _ ht => ht.badAccess))
  | unsupportedRequest _ _ _ => exact of_next stepped (.ite fresh.emit fresh)
  | portReset _ _ => exact of_next stepped fresh.resetPort
  | portLinkUp _ => exact of_next stepped fresh.linkPort
  | hostDataBad _ _ => exact of_next stepped fresh.readFails
  | completionTimeout _ _ => exact of_next stepped fresh.readFails
  | hbTimeout _ => exact of_next stepped fresh.hbTimeout
  | heartbeatExpiry _ => exact of_next stepped fresh.hbExpiry
  | transferComplete _ _ => exact of_next stepped fresh.transferDone.settlePool
  | fillComplete _ => exact of_next stepped fresh.fillDone
  | compressorDispatch _ _ _ => exact of_next stepped fresh.dispatch
  | writeCompressDone _ => exact of_next stepped fresh.compressDone
  | compressorFault _ _ _ => exact of_next stepped (.ite fresh fresh.compFault)
  | courseBoundary _ => exact of_next stepped (.ite fresh.enterQuench fresh.boundary)
  | fetchEntry _ _ => exact of_next stepped fresh.fetchEntry
  | refsb _ _ => exact of_next stepped fresh.refsbEntry
  | mitig _ _ => exact of_next stepped fresh.mitigEntry
  | zqcal _ _ => exact of_next stepped fresh.zqcalEntry
  | temperPause _ _ _ => exact of_next stepped fresh.temperEntry
  | stallLimit _ _ => exact of_next stepped fresh.stall
  | refreshCreditTimer _ _ _ _ => exact of_next stepped fresh.creditTimer
  | forcedRefresh _ _ _ _ => exact of_next stepped fresh.forcedRefresh
  | forcedRfm _ _ _ _ => exact of_next stepped fresh.forcedRfm
  | rowClose _ _ _ _ _ => exact of_next stepped fresh.rowClose
  | powerDownEntry _ _ => exact of_next stepped fresh.powerDown
  | selfRefreshEntry => exact of_next stepped fresh.restEntry
  | selfRefreshExit => exact of_next stepped fresh.restExit
  | writeCrcAlert _ _ _ => exact of_next stepped fresh.crcAlert
  | stormRetrainDone _ _ => exact of_next stepped fresh.stormDone
  | arbiterDecision _ => exact of_next stepped fresh.decision
  | preemption _ _ => exact of_next stepped fresh.preempt
  | tokenRefill => exact of_next stepped fresh.refill
  | scrubPassStart _ => exact of_next stepped fresh.passStart
  | scrubTransfer _ => exact of_next stepped fresh.scrubTransfer
  | scrubPassComplete _ => exact of_next stepped fresh.passDone
  | healthIntervalEnd _ _ _ => exact of_next stepped fresh.intervalEnd
  | migrationTransfer _ => exact of_next stepped fresh.migrate
  | migrationCutover _ => exact of_next stepped fresh.cutover
  | decodeLineComplete _ _ => exact of_next stepped fresh.decodeLine
  | loopUpdate => exact of_next stepped (fresh.inCore fun _ ht => ht.loopUpdate)
  | encoderCount _ _ => exact of_next stepped (fresh.inCore fun _ ht => ht.encoderCount)
  | webLockChange => exact of_next stepped (fresh.inCore fun _ ht => ht.lockChange)
  | encoderLost _ => exact of_next stepped (fresh.inCore fun _ ht => ht.encoderLost)
  | encoderRebase => exact of_next stepped (fresh.inCore fun _ ht => ht.encoderRebase)
  | coastLimit => exact of_next stepped (fresh.inCore fun _ ht => ht.coastLimit)
  | indexSlip => exact of_next stepped (fresh.inCore fun _ ht => ht.indexEdge)
  | markSeen _ _ => exact of_next stepped (fresh.inCore fun _ ht => ht.markSeen)
  | pageBoundary _ => exact of_next stepped (fresh.inCore fun _ ht => ht.pageBoundary)
  | fireMarker _ => exact of_next stepped fresh.fireMarker
  | fireInstant _ => exact of_next stepped fresh.fireInstant
  | lineFrame _ _ => exact of_next stepped fresh.lineFrame
  | noData _ => exact of_next stepped fresh.noDataFrame
  | echoTracking _ => exact of_next stepped fresh.echoTracking
  | echoReply _ _ _ => exact of_next stepped (fresh.onReturn fun _ ht => ht.echo)
  | statusFrame _ _ => exact of_next stepped (fresh.onReturn fun _ ht => ht.status)
  | messageFrame _ _ => exact of_next stepped (fresh.onReturn fun _ ht => ht.message)
  | ackFrame _ _ => exact of_next stepped (fresh.onReturn fun _ ht => ht.ack)
  | identFrame _ _ => exact of_next stepped (fresh.onReturn fun _ ht => ht.ident)
  | testFrame _ _ => exact of_next stepped (fresh.onReturn fun _ ht => ht.testReturn)
  | trainingStepTimeout _ => exact of_next stepped fresh.stepTimeout
  | messageGapTimeout _ => exact of_next stepped fresh.gapTimeout
  | ackTimeout _ => exact of_next stepped fresh.ackTimeout
  | lossOfSignal _ _ => exact of_next stepped (.ite fresh.goDown fresh)
  | codeErrors _ _ => exact of_next stepped (.ite fresh.goDown fresh)
  | statusTimeout _ => exact of_next stepped fresh.statusTimeout
  | refLost _ => exact of_next stepped fresh.refLost
  | refPresent _ => exact of_next stepped fresh.refPresent
  | lockWindow _ _ _ => exact of_next stepped fresh.lockWindow
  | coastTrust _ => exact of_next stepped fresh.coastTrust
  | monitorCalibration => exact of_next stepped fresh.calibrate
  | freqChangeTimeout _ => exact of_next stepped fresh.changeTimeout
  | loopLockTimeout _ => exact of_next stepped (.ite fresh.updBoot.failStart fresh)
  | domainSwitch _ => exact of_next stepped fresh.domainSwitch
  | powerOnReset _ _ => exact of_next stepped fresh.powerOn
  | sysRstN _ => exact of_next stepped (.ite fresh.fullReset fresh)
  | trstN => exact of_next stepped fresh
  | deviceReset =>
    refine of_next stepped ?_
    split
    · exact .ite fresh.resetDevice fresh
    · exact fresh
  | bootStart _ => exact of_next stepped fresh.bootStart
  | bootWatchdog => exact of_next stepped (.ite fresh.crash fresh)
  | trap => exact of_next stepped fresh.crash
  | failCountClear =>
    refine of_next stepped ?_
    split
    · exact .ite fresh.updBoot fresh
    · exact fresh
  | supplyWarning _ => exact of_next stepped fresh.railWarning
  | supplyStop _ _ => exact of_next stepped fresh.supplyStop
  | supplyRecovered _ => exact of_next stepped fresh.railRecovered
  | dieWarning _ => exact of_next stepped fresh.dieHot
  | thermalStop _ => exact of_next stepped fresh.thermalStop
  | holdoffExpiry _ _ => exact of_next stepped fresh.holdoffEnd
  | pulseEnd _ => exact of_next stepped fresh.pulseEnd
  | arm _ => exact of_next stepped (.ite fresh.updPower fresh)
  | mgmtReset => exact of_next stepped (fresh.action fun _ ht => ht.fullReset)
  | mgmtForceBanked => exact of_next stepped (fresh.action fun _ ht => ht.updBoot.fullReset)
  | mgmtClearForce => exact of_next stepped (fresh.action fun _ ht => ht.updBoot)
  | mgmtHostOn => exact of_next stepped (fresh.action fun _ ht => ht.hostOn)
  | mgmtHostOff => exact of_next stepped (fresh.action fun _ ht => ht.hostOff)
  | mgmtShutdown => exact of_next stepped (fresh.action fun _ ht => ht.shutdown)
  | commaAlignment _ _ => exact of_next stepped fresh.comma
  | measureEcho _ => exact of_next stepped fresh.measureEcho
  | invalidReturnFrame _ => exact of_next stepped fresh.badReturn
  | rankTrainingDone _ _ _ => exact of_next stepped fresh.rankDone
  | selfRefreshEntered _ => exact of_next stepped fresh.restEntered
  | dieWarningRearm _ => exact of_next stepped fresh.updPower
  | indexFailsafe => exact of_next stepped (fresh.inCore fun _ ht => ht.useFree.logWeb)
  | hostReadCompletion _ _ _ => exact of_next stepped fresh.hostData
end State

/-- Settles O6: each row of the table, and the clock when no row is pending, changes the state by operations that keep
the numbers fresh. -/
theorem stepKeepsFreshNumbers : Obligations.StepKeepsFreshNumbers := by
  intro s t fresh stepped
  unfold step at stepped
  split at stepped
  · exact .of_next stepped fresh.tick
  · next c rest _ =>
    have taken : { s with pending := rest }.FreshNumbers := fresh.same
    exact taken.exec stepped

end Sys2Proof.Machine
end

section
/-! SUPPORT. The state after reset is sound (R90). -/

namespace Sys2Proof.Machine

/-- Settles O4: after reset no codeword is stored and no command is in flight. -/
theorem resetIsSound : Obligations.ResetIsSound :=
  ⟨⟨List.Pairwise.nil, nofun⟩, State.freshNumbers_of_nil rfl⟩

end Sys2Proof.Machine
end

section
/-! SUPPORT. Ashlars are given out and given back: ALLOC_ASHLARS and FREE_ASHLARS (R88, R89). -/

namespace Sys2Proof.Machine

namespace Raster

/-! ### Entries of the allocation list -/

/-- The first entry that reaches a number is that number's own, with this partition: so the number is found there, whatever
follows, in order or not. -/
def Given (l : List (Nat × Fin 16)) (n : Nat) (p : Fin 16) : Prop := l.find? (fun x => n ≤ x.1) = some (n, p)

/-- A number that has been given to a partition is found with it. -/
theorem Given.find {l : List (Nat × Fin 16)} {n : Nat} {p : Fin 16} (h : Given l n p) :
    l.find? (fun x => x.1 = n) = some (n, p) := by
  rw [Given, List.find?_eq_some_iff_append] at h
  obtain ⟨-, lo, hi, rfl, below⟩ := h
  rw [List.find?_eq_some_iff_append]
  refine ⟨by simp, lo, hi, rfl, fun x hx => ?_⟩
  have lower := below x hx
  simp only [Bool.not_eq_true', decide_eq_false_iff_not] at lower ⊢
  omega

/-- Among entries that are passed over for lying below a number, none reaches it. -/
theorem find_takeWhile_below {n : Nat} {q : Nat × Fin 16 → Bool} (hq : ∀ x, q x = true → x.1 < n) (l : List (Nat × Fin 16)) :
    (l.takeWhile q).find? (fun x => n ≤ x.1) = none := by
  refine List.find?_eq_none.mpr fun x hx => ?_
  have lower := hq x (List.mem_takeWhile_imp hx)
  simpa using lower

/-- Dropping entries that lie below a number leaves the first one that reaches it. -/
theorem find_dropWhile_below {n : Nat} {q : Nat × Fin 16 → Bool} (hq : ∀ x, q x = true → x.1 < n) (l : List (Nat × Fin 16)) :
    (l.dropWhile q).find? (fun x => n ≤ x.1) = l.find? (fun x => n ≤ x.1) := by
  conv_rhs => rw [← List.takeWhile_append_dropWhile (p := q) (l := l), List.find?_append, find_takeWhile_below hq, Option.none_or]

/-- An insertion gives the number to the partition. -/
theorem given_insertAlloc (l : List (Nat × Fin 16)) (n : Nat) (p : Fin 16) : Given (insertAlloc l n p) n p := by
  rw [Given, insertAlloc, List.find?_append, find_takeWhile_below (by simp), Option.none_or,
    List.find?_cons_of_pos (by simp)]

/-- An insertion for the same partition leaves what has been given to it. -/
theorem Given.insertAlloc {l : List (Nat × Fin 16)} {n : Nat} {p : Fin 16} (h : Given l n p) (m : Nat) :
    Given (insertAlloc l m p) n p := by
  obtain lower | rfl | higher := lt_trichotomy m n
  · rw [Given, Raster.insertAlloc, List.find?_append, find_takeWhile_below, Option.none_or,
      List.find?_cons_of_neg (by simpa using lower), find_dropWhile_below]
    · exact h
    all_goals
      intro x hx
      have := of_decide_eq_true hx
      omega
  · exact given_insertAlloc ..
  · rw [Given, List.find?_eq_some_iff_append] at h
    obtain ⟨-, lo, hi, rfl, below⟩ := h
    have kept : (lo ++ (n, p) :: hi).takeWhile (fun x => x.1 < m) = lo ++ (n, p) :: hi.takeWhile fun x => x.1 < m := by
      rw [List.takeWhile_append_of_pos, List.takeWhile_cons_of_pos (by simpa using higher)]
      intro x hx
      have lower := below x hx
      simp only [Bool.not_eq_true', decide_eq_false_iff_not, decide_eq_true_eq] at lower ⊢
      omega
    rw [Given, Raster.insertAlloc, kept, List.append_assoc, List.find?_append,
      List.find?_eq_none.mpr fun x hx => by simpa using below x hx]
    simp

/-- Numbers that are inserted one after the other for a partition are all given to it. -/
theorem given_foldl_insertAlloc {ns : List Nat} {n : Nat} (l : List (Nat × Fin 16)) (p : Fin 16) (h : n ∈ ns ∨ Given l n p) :
    Given (ns.foldl (fun acc n => Raster.insertAlloc acc n p) l) n p := by
  induction ns generalizing l with
  | nil => exact h.resolve_left List.not_mem_nil
  | cons m ns ih =>
    refine ih _ ?_
    obtain hmem | given := h
    · obtain rfl | hmem := List.mem_cons.mp hmem
      · exact .inr (given_insertAlloc ..)
      · exact .inl hmem
    · exact .inr (given.insertAlloc m)

end Raster

namespace State

/-! ### Giving out -/

/-- Ashlars that are given to a partition are held by it. -/
theorem allocate_holder (s : State) (p : Fin 16) {ns : List Nat} {n : Nat} (hn : n ∈ ns) :
    (s.allocate p ns).raster.holder n = some p := by
  have given := Raster.given_foldl_insertAlloc s.raster.alloc p (.inl hn)
  rw [Raster.holder, allocate, updRaster, given.find]
  rfl

theorem SessionOnly.findRun {s t : State} (a : SessionOnly s t) (n : Nat) : t.findRun n = s.findRun n :=
  a.same (fun x => x.findRun n) fun _ _ _ _ _ _ => rfl

theorem SessionOnly.findScattered {s t : State} (a : SessionOnly s t) (n : Nat) : t.findScattered n = s.findScattered n :=
  a.same (fun x => x.findScattered n) fun _ _ _ _ _ _ => rfl

theorem SessionOnly.allocate {s t : State} (a : SessionOnly s t) (p : Fin 16) (ns : List Nat) :
    SessionOnly (s.allocate p ns) (t.allocate p ns) :=
  a.map (fun x => x.allocate p ns) (fun _ _ _ _ _ _ => rfl) rfl rfl

/-! ### Giving back -/

/-- The checks of R65 that a packet passes which runs at once. -/
theorem checks_of_runs {s : State} {op : Byte} {i : Issue} (hr : s.runs op i = true) :
    (s.taken op i).checkCmd (s.mkCmd op i) = none ∧ (s.taken op i).stripCheck (s.mkCmd op i) = none := by
  simp only [runs, Bool.and_eq_true, Option.isNone_iff_eq_none, Option.or_eq_none_iff] at hr
  obtain ⟨⟨⟨⟨-, checks⟩, strip, -⟩, -⟩, -⟩ := hr
  exact ⟨checks, strip⟩

/-- A command that passes the checks has its rights. -/
theorem checkRights_of_checkCmd {s : State} {c : Cmd} (h : s.checkCmd c = none) : s.checkRights c = none := by
  unfold checkCmd at h
  split at h
  · exact absurd h nofun
  · next info hinfo =>
    have known := checkCmd_known hinfo (s := s)
    rw [show s.checkCmd c = none by rw [checkCmd, hinfo]; exact h] at known
    split at known
    · exact absurd known nofun
    · simp only [eq_comm (a := none), Option.or_eq_none_iff] at known
      obtain ⟨-, -, rights, -⟩ := known
      exact rights

theorem cmdAshlars_freeing (s : State) {c : Cmd} (hop : c.op = 0x11) :
    s.cmdAshlars c = (List.range (c.p 1)).map fun k => c.p 0 + k := by
  simp [cmdAshlars, Cmd.movesRange, hop]

/-- FREE_ASHLARS has its rights only to ashlars that its partition holds (R89). -/
theorem held_of_checkRights {s : State} {c : Cmd} (hop : c.op = 0x11) (h : s.checkRights c = none) :
    ((s.cmdAshlars c).all fun n => s.raster.holder n == some c.part) = true := by
  rw [cmdAshlars_freeing s hop, List.all_map]
  by_contra other
  simp only [checkRights, hop] at h
  exact absurd ((if_neg other).symm.trans h) nofun

/-- Ashlars of a range of numbers are free and unwritten (R89). -/
def freeRange (s : State) (first count : Nat) : State :=
  s.updRaster fun r => { r with
    alloc := r.alloc.filter fun x => !(decide (first ≤ x.1) && decide (x.1 < first + count))
    written := r.written.filter fun n => !(decide (first ≤ n) && decide (n < first + count)) }

/-- No partition holds an ashlar that has been freed, and its map bit is clear. -/
theorem freeRange_inside (s : State) {first count n : Nat} (h : first ≤ n ∧ n < first + count) :
    (s.freeRange first count).raster.holder n = none ∧ (s.freeRange first count).raster.isWritten n = false := by
  constructor
  · rw [Raster.holder, Option.map_eq_none_iff, List.find?_eq_none]
    intro x hx e
    obtain rfl := of_decide_eq_true e
    have kept := (List.mem_filter.mp hx).2
    simp [h] at kept
  · simp [freeRange, updRaster, Raster.isWritten, h]

/-- The other ashlars stay as they are. -/
theorem freeRange_outside (s : State) {first count n : Nat} (h : ¬(first ≤ n ∧ n < first + count)) :
    (s.freeRange first count).raster.holder n = s.raster.holder n ∧
      (s.freeRange first count).raster.isWritten n = s.raster.isWritten n := by
  constructor
  · refine congrArg (Option.map _) ?_
    rw [freeRange, updRaster, List.find?_filter]
    congr
    funext x
    by_cases e : x.1 = n
    · subst e
      simpa [imp_iff_not_or] using h
    · simp [e]
  · rw [Bool.eq_iff_iff]
    simp only [freeRange, updRaster, Raster.isWritten, List.contains_iff_mem, List.mem_filter, and_iff_left_iff_imp]
    exact fun _ => by simpa [imp_iff_not_or] using h

theorem SessionOnly.freeRange {s t : State} (a : SessionOnly s t) (first count : Nat) :
    SessionOnly (s.freeRange first count) (t.freeRange first count) :=
  a.map (fun x => x.freeRange first count) (fun _ _ _ _ _ _ => rfl) rfl rfl

end State

theorem exec_allocAshlars {s : State} {i : Issue} (hr : s.runs 0x10 i = true) :
    exec (.allocAshlars i) s = .next (bodyAllocAshlars (s.issued 0x10 i) (s.begun 0x10 i)) :=
  congrArg Host.Outcome.next (State.submit_runs bodyAllocAshlars hr)

theorem exec_freeAshlars {s : State} {i : Issue} (hr : s.runs 0x11 i = true) :
    exec (.freeAshlars i) s = .next (bodyFreeAshlars (s.issued 0x11 i) (s.begun 0x11 i)) :=
  congrArg Host.Outcome.next (State.submit_runs bodyFreeAshlars hr)

section
variable {c : Cmd} {s : State}

/-- Too few ashlars lie together. -/
theorem bodyAllocAshlars_run_none (hrun : c.f 1 0 1 = 1) (hnone : s.findRun (c.p 0) = none) :
    bodyAllocAshlars c s = s.finish c.id { status := .resourceConflict, detail := 0x0A } := by
  rw [bodyAllocAshlars, if_pos hrun, hnone]
  rfl

/-- A run of ashlars is given out. -/
theorem bodyAllocAshlars_run {first : Nat} (hrun : c.f 1 0 1 = 1) (hfirst : s.findRun (c.p 0) = some first) :
    let u := s.allocate c.part ((List.range (c.p 0)).map fun k => first + k)
    bodyAllocAshlars c s = u.finish c.id { r0 := first, r1 := u.raster.held c.part } := by
  rw [bodyAllocAshlars, if_pos hrun, hfirst]
  rfl

/-- Too few ashlars are free. -/
theorem bodyAllocAshlars_few (hscatter : c.f 1 0 1 = 0) (hfew : (s.findScattered (c.p 0)).length < c.p 0) :
    bodyAllocAshlars c s = s.finish c.id { status := .resourceConflict, detail := 0x0A } := by
  rw [bodyAllocAshlars, if_neg (by rw [hscatter]; decide)]
  exact if_pos hfew

/-- Scattered ashlars are given out and listed. -/
theorem bodyAllocAshlars_scattered (hscatter : c.f 1 0 1 = 0) (hfound : c.p 0 ≤ (s.findScattered (c.p 0)).length) :
    let ns := s.findScattered (c.p 0)
    let u := s.allocate c.part ns
    bodyAllocAshlars c s =
      (u.emit (.hostWrite c.host (c.hostAddr 2) ((ns.foldl Raster.insertNat []).map (leBytes 4)).flatten)).finish c.id
        { r1 := u.raster.held c.part } := by
  rw [bodyAllocAshlars, if_neg (by rw [hscatter]; decide)]
  exact if_neg (Nat.not_lt.mpr hfound)

/-- Ashlars that the partition holds, and of which no strip needs one, are given back. -/
theorem bodyFreeAshlars_frees (hheld : ((s.cmdAshlars c).all fun n => s.raster.holder n == some c.part) = true)
    (hstrip : s.stripCheck c = none) : bodyFreeAshlars c s = (s.freeRange (c.p 0) (c.p 1)).finish c.id
      { r1 := (s.freeRange (c.p 0) (c.p 1)).raster.held c.part } := by
  rw [bodyFreeAshlars, hheld, if_pos rfl, hstrip]
  rfl

end

theorem allocGivesAshlars : Clause.AllocGivesAshlars := by
  intro s i hr c refused
  have frame := State.sessionOnly_begun s i (op := 0x10) (by decide)
  have refusal (h : bodyAllocAshlars c (s.begun 0x10 i) =
      (s.begun 0x10 i).finish s.nextId { status := .resourceConflict, detail := 0x0A }) : refused :=
    ⟨_, (exec_allocAshlars hr).trans (congrArg Host.Outcome.next h), State.begun_finish hr (by decide) _⟩
  refine ⟨fun hrun hnone => ?norun, fun hrun first hfirst => ?run, fun hscatter hfew => ?few, fun hscatter hfound => ?scattered⟩
  case norun => exact refusal (bodyAllocAshlars_run_none hrun ((frame.findRun _).trans hnone))
  case few => exact refusal (bodyAllocAshlars_few hscatter (by rwa [frame.findScattered]))
  case run =>
    intro u
    have given := frame.allocate c.part ((List.range (c.p 0)).map fun k => first + k)
    obtain ⟨answered, only⟩ := State.begun_map_finish hr (by decide)
      (fun x => x.allocate c.part ((List.range (c.p 0)).map fun k => first + k)) (fun _ _ _ _ _ _ => rfl)
      { r0 := first, r1 := u.raster.held c.part }
    rw [exec_allocAshlars hr, bodyAllocAshlars_run hrun ((frame.findRun _).trans hfirst), given.raster]
    refine ⟨_, rfl, answered, only, fun k hk => ?_⟩
    exact (congrArg (fun r : Raster => r.holder (first + k)) only.raster).trans
      (s.allocate_holder c.part (List.mem_map_of_mem (List.mem_range.mpr hk)))
  case scattered =>
    intro ns u
    have given := frame.allocate c.part ns
    have found : (s.begun 0x10 i).findScattered (c.p 0) = ns := frame.findScattered _
    obtain ⟨answered, only, sent⟩ := State.begun_report hr { r1 := u.raster.held c.part }
      (given.trans (State.raised_emit _ (.hostWrite i.host (c.hostAddr 2)
        ((ns.foldl Raster.insertNat []).map (leBytes 4)).flatten)).sessionOnly) rfl rfl (xs := [_]) rfl
    rw [exec_allocAshlars hr, bodyAllocAshlars_scattered hscatter (by rwa [found]), found, given.raster]
    refine ⟨_, rfl, answered, only, sent _ List.mem_cons_self, fun n hn => ?_⟩
    exact (congrArg (fun r : Raster => r.holder n) only.raster).trans (s.allocate_holder c.part hn)

/-- FREE_ASHLARS that runs passes its own checks again, and gives back its range. -/
theorem exec_freeAshlars_frees {s : State} {i : Issue} (hr : s.runs 0x11 i = true) :
    let c := s.issued 0x11 i
    let u := s.freeRange (c.p 0) (c.p 1)
    ∃ t, exec (.freeAshlars i) s = .next t ∧ s.Answered t i { r1 := u.raster.held c.part } ∧ u.SessionOnly t := by
  intro c u
  have frame := State.sessionOnly_begun s i (op := 0x11) (by decide)
  have fetched := State.sessionOnly_taken s i (op := 0x11) (by decide)
  obtain ⟨checks, strip⟩ := State.checks_of_runs hr
  have held : ((s.begun 0x11 i).cmdAshlars c).all (fun n => (s.begun 0x11 i).raster.holder n == some c.part) = true := by
    have owned := State.held_of_checkRights rfl (State.checkRights_of_checkCmd checks)
    rw [fetched.raster] at owned
    rw [frame.raster]
    exact owned
  have bare : (s.begun 0x11 i).stripCheck c = none := strip
  have answer := State.begun_map_finish hr (by decide) (fun x => x.freeRange (c.p 0) (c.p 1)) (fun _ _ _ _ _ _ => rfl)
    { r1 := u.raster.held c.part }
  rw [exec_freeAshlars hr, bodyFreeAshlars_frees held bare, (frame.freeRange (c.p 0) (c.p 1)).raster]
  exact ⟨_, rfl, answer⟩

theorem freeMakesUnwritten : Clause.FreeMakesUnwritten := by
  intro s i hr c mine
  obtain ⟨t, freed, answered, only⟩ := exec_freeAshlars_frees hr
  have raster : t.raster = (s.freeRange (c.p 0) (c.p 1)).raster := only.raster
  refine ⟨t, freed, ?_, ?_, ?_, fun n hn => ?_, fun n hn => ?_⟩
  · rw [raster]
    exact answered
  · rw [raster]
    exact only
  · rw [raster]
    rfl
  · obtain ⟨free, clear⟩ := s.freeRange_inside hn
    rw [raster, free, clear]
    exact ⟨nofun, rfl⟩
  · rw [raster]
    exact s.freeRange_outside hn

/-- Settles O20: what each of the two commands does to the list of allocations, and what a number reads there afterwards. -/
theorem ashlarCommands : Obligations.AshlarCommands := ⟨allocGivesAshlars, freeMakesUnwritten⟩

end Sys2Proof.Machine
end

section
/-! SUPPORT. All that presenting transfers to the arbiters can do (R311), and what a command does that goes on before any of its
bursts has been read (R104). -/

namespace Sys2Proof.Machine

namespace State

/-! ### Presenting transfers -/

/-- All that presenting transfers can do: bursts pass from commands and from the writeback requester to the arbiters. -/
structure Presented (s t : State) : Prop where
  frame : t = { s with cmds := t.cmds, chans := t.chans, writeback := t.writeback }
  chans : ∀ k : ChanId, t.chans[k] = { s.chans[k] with arb := t.chans[k].arb }
  cmds : ∃ f : Cmd → List Burst, t.cmds = s.cmds.map fun c => { c with todo := f c }

theorem Presented.refl (s : State) : Presented s s :=
  ⟨rfl, fun _ => rfl, Cmd.todo, (List.map_id s.cmds).symm⟩

theorem Presented.trans {s t u : State} (a : Presented s t) (b : Presented t u) : Presented s u where
  frame := by rw [b.frame, a.frame]
  chans k := by rw [b.chans k, a.chans k]
  cmds := by
    obtain ⟨f, hf⟩ := a.cmds
    obtain ⟨g, hg⟩ := b.cmds
    exact ⟨fun c => g { c with todo := f c }, by rw [hg, hf, List.map_map]; rfl⟩

/-- A command is found with other bursts to present, and else as it was. -/
theorem Presented.find {s t : State} (a : Presented s t) {id : Nat} {c : Cmd} (hc : s.findCmd id = some c) :
    ∃ l, t.findCmd id = some { c with todo := l } := by
  obtain ⟨f, hf⟩ := a.cmds
  refine ⟨f c, ?_⟩
  rw [findCmd, hf, List.find?_map]
  exact congrArg (Option.map fun c : Cmd => { c with todo := f c }) hc

theorem presented_writeback (s : State) (w : List (Nat × Burst)) : Presented s { s with writeback := w } :=
  ⟨rfl, fun _ => rfl, Cmd.todo, (List.map_id s.cmds).symm⟩

theorem presented_updCmd (s : State) (id : Nat) (f : Cmd → List Burst) :
    Presented s (s.updCmd id fun c => { c with todo := f c }) := by
  refine ⟨rfl, fun _ => rfl, fun c => if c.id = id then f c else c.todo, List.map_congr_left fun c _ => ?_⟩
  by_cases h : c.id = id <;> simp [h]

theorem presented_presentXfer (s : State) (c : ChanId) (r : Fin 12) (src : Src) (bs : List Burst) :
    Presented s (s.presentXfer c r src bs) := by
  refine ⟨rfl, fun k => ?_, Cmd.todo, (List.map_id s.cmds).symm⟩
  rw [presentXfer, updChan_at]
  split <;> rfl

theorem presented_presentOne (s : State) (c : ChanId) (r : Fin 12) : Presented s (s.presentOne c r) := by
  unfold presentOne
  split
  · exact Presented.refl s
  · split
    · exact presented_presentXfer ..
    · split
      · exact (presented_writeback s _).trans (presented_presentXfer ..)
      · split
        · exact (presented_updCmd s _ _).trans (presented_presentXfer ..)
        · exact Presented.refl s

theorem Presented.foldl {α : Type} {f : State → α → State} (hf : ∀ s x, Presented s (f s x)) (l : List α) (s : State) :
    Presented s (l.foldl f s) := by
  induction l generalizing s with
  | nil => exact Presented.refl s
  | cons x l ih => exact (hf s x).trans (ih _)

theorem presented_present (s : State) : Presented s s.present :=
  Presented.foldl (fun _ _ => Presented.foldl (fun _ _ => presented_presentOne ..) _ _) _ s

/-! ### Frames -/

theorem MovesOnly.trans {s t u : State} (a : MovesOnly s t) (b : MovesOnly t u) : MovesOnly s u := by
  obtain ⟨ha, hosts, chans, o, ho⟩ := a
  obtain ⟨hb, hosts', chans', o', ho'⟩ := b
  refine ⟨by rw [hb, ha], fun k => ?_, fun k => ?_, o' ++ o, by rw [ho', ho, List.append_assoc]⟩
  · rw [hosts' k, hosts k]
  · rw [chans' k, chans k]

theorem SessionOnly.movesOnly {s t : State} (a : SessionOnly s t) : MovesOnly s t := by
  obtain ⟨ha, hosts, out⟩ := a
  refine ⟨?_, hosts, fun k => ?_, out⟩
  · conv_lhs => rw [ha]
    rw [ha]
  · rw [ha]

theorem Presented.movesOnly {s t : State} (a : Presented s t) : MovesOnly s t := by
  obtain ⟨ha, chans, -⟩ := a
  refine ⟨?_, fun k => ?_, chans, [], ?_⟩
  · conv_lhs => rw [ha]
    rw [ha]
  · rw [ha]
  · rw [ha]
    rfl

/-- Fills that begin are no more than what a move may change. -/
theorem movesOnly_filling (s : State) (fs : List Fill) : MovesOnly s (s.updRaster fun r => { r with filling := fs }) :=
  ⟨rfl, fun _ => rfl, fun _ => rfl, [], rfl⟩

/-- Nothing but the session and what requesters present has changed. -/
def RequestsOnly (s t : State) : Prop := s.MovesOnly t ∧ t.raster = s.raster

theorem RequestsOnly.refl (s : State) : RequestsOnly s s := ⟨(SessionOnly.refl s).movesOnly, rfl⟩

theorem RequestsOnly.trans {s t u : State} (a : RequestsOnly s t) (b : RequestsOnly t u) : RequestsOnly s u :=
  ⟨a.1.trans b.1, b.2.trans a.2⟩

theorem SessionOnly.requestsOnly {s t : State} (a : SessionOnly s t) : RequestsOnly s t := ⟨a.movesOnly, a.raster⟩

theorem Presented.requestsOnly {s t : State} (a : Presented s t) : RequestsOnly s t :=
  ⟨a.movesOnly, by rw [a.frame]⟩

/-! ### Delivering -/

/-- A burst that is delivered is put out, and the command goes on with the bursts that it has read. -/
theorem deliver_keeps {s : State} {id : Nat} {c : Cmd} (hc : s.findCmd id = some c) (o : Out) (next bytes : Nat) :
    let t := (s.emit o).updCmd id fun x => { x with next := next, bytes := x.bytes + bytes }
    s.SessionOnly t ∧ ∃ d, t.findCmd id = some d ∧ d.got = c.got :=
  ⟨(raised_emit s o).sessionOnly.trans (sessionOnly_updCmd ..), _,
    find_updCmd (s := s.emit o) hc (fun x => { x with next := next, bytes := x.bytes + bytes }) fun _ h => h, rfl⟩

/-- Of a command that has read no burst yet, only bursts of unwritten ashlars are delivered. -/
theorem deliverLoop_sessionOnly {s : State} {id : Nat} {c : Cmd} (hc : s.findCmd id = some c) (hgot : c.got = []) (fuel : Nat) :
    s.SessionOnly (deliverLoop id fuel s) := by
  induction fuel generalizing s c with
  | zero => exact SessionOnly.refl s
  | succ fuel ih =>
    obtain rfl := id_of_find hc
    have goes_on {t : State} (h : s.SessionOnly t ∧ ∃ d, t.findCmd c.id = some d ∧ d.got = c.got) :
        s.SessionOnly (deliverLoop c.id fuel t) := by
      obtain ⟨only, d, hd, same⟩ := h
      exact only.trans (ih hd (same.trans hgot))
    rw [deliverLoop, hc]
    dsimp only
    rw [hgot, List.find?_nil]
    dsimp only
    split
    · exact SessionOnly.refl s
    · split
      · exact SessionOnly.refl s
      · split
        · exact goes_on (deliver_keeps hc ..)
        · exact goes_on (deliver_keeps hc ..)

/-- A command that has read no burst yet goes on: it delivers zeros, and may complete. -/
theorem progress_sessionOnly {s : State} {id : Nat} {c : Cmd} (hc : s.findCmd id = some c) (hgot : c.got = [])
    (hop : c.op ≠ 0x16) : s.SessionOnly (s.progress id) := by
  unfold progress
  rw [hc]
  dsimp only
  split
  · have delivered := deliverLoop_sessionOnly hc hgot ((c.stop - c.next) / 64 + 1)
    split
    · exact delivered
    · split
      · exact delivered.trans (finish_sessionOnly ..)
      · exact delivered
  · split
    · exact finish_sessionOnly ..
    · exact SessionOnly.refl s

end State

end Sys2Proof.Machine
end

section
/-! SUPPORT. What commands on raster memory do when they begin: WRITE_RAW, RAW_WRITE, READ, RAW_READ, ZERO and ECC_INJECT (R90, R91,
R93, R101, R104, R310, R338 to R340). -/

namespace Sys2Proof.Machine

namespace State

/-! ### Bursts that are asked for, and fills -/

/-- A command that sets its progress and the bursts that it asks for, presents them and goes on. -/
theorem requestsOnly_present {s : State} {id : Nat} {c : Cmd} (hc : s.findCmd id = some c) (f : Cmd → Cmd)
    (hid : ∀ x, (f x).id = x.id) (hgot : (f c).got = []) (hop : (f c).op ≠ 0x16) :
    s.RequestsOnly (((s.updCmd id f).present).progress id) := by
  have presented := presented_present (s.updCmd id f)
  obtain ⟨l, found⟩ := presented.find (find_updCmd hc f fun x hx => (hid x).trans hx)
  exact ((sessionOnly_updCmd s id f).requestsOnly.trans presented.requestsOnly).trans
    (progress_sessionOnly found hgot hop).requestsOnly

/-- Bursts whose bytes have come are handed to their requester. -/
theorem requestsOnly_handOut (s : State) (id : Nat) : s.RequestsOnly (s.handOut id) := by
  unfold handOut
  split
  · exact RequestsOnly.refl s
  · exact (sessionOnly_updCmd ..).requestsOnly.trans (presented_present _).requestsOnly

/-- The fills that begin are those of the ashlars that have no data, for the command's requester (R91, R310). -/
theorem beginFills_filling {s : State} {id : Nat} {c : Cmd} (hc : s.findCmd id = some c) (ns : List Nat) {r : Fin 12}
    (hr : c.requester = some r) : (s.beginFills id ns).raster.filling = s.raster.filling ++
      (ns.filter fun n => !s.raster.isWritten n && !s.raster.isFilling n).map fun n => { ashlar := n, cmd := id, req := r } := by
  rw [beginFills, hc, updRaster, Option.bind_some, hr, Option.getD_some]

theorem beginFills_movesOnly (s : State) (id : Nat) (ns : List Nat) : s.MovesOnly (s.beginFills id ns) :=
  movesOnly_filling ..

/-- Ashlars that are written are not filled. -/
theorem beginFills_written (s : State) (id : Nat) {n : Nat} (hn : s.raster.isWritten n = true) :
    (s.beginFills id [n]).raster = s.raster := by
  simp [beginFills, updRaster, hn]

/-! ### Writing and reading -/

/-- A writing command with host data begins: its fills, and requests alone. -/
theorem beginWrite_begun {s : State} {op : Byte} {i : Issue} (hr : s.runs op i = true) (hop : op ≠ 0x07) (a len bytes : Nat)
    {r : Fin 12} (hreq : (s.issued op i).requester = some r) :
    let t := beginWrite (s.issued op i) a len bytes (s.begun op i)
    s.MovesOnly t ∧ t.raster.filling = s.raster.filling ++ ((s.raster.touched a len).filter fun n =>
      !s.raster.isWritten n && !s.raster.isFilling n).map fun n => { ashlar := n, cmd := s.nextId, req := r } := by
  intro t
  have frame := sessionOnly_begun s i hop
  have fills := beginFills_filling (begun_find hr) ((s.begun op i).raster.touched a len) (r := r) hreq
  have handed : ((s.begun op i).beginFills s.nextId ((s.begun op i).raster.touched a len)).RequestsOnly t :=
    (sessionOnly_updCmd ..).requestsOnly.trans (requestsOnly_handOut ..)
  obtain ⟨moved, raster⟩ := handed
  refine ⟨(frame.movesOnly.trans (beginFills_movesOnly ..)).trans moved, ?_⟩
  rw [raster, fills, frame.raster]

/-- A reading command begins: requests alone. -/
theorem beginRead_begun {s : State} {op : Byte} {i : Issue} (hr : s.runs op i = true) (hop : op ≠ 0x07) (hseal : op ≠ 0x16)
    (c : Cmd) (hid : c.id = s.nextId) (a len : Nat) : s.RequestsOnly (beginRead c a len (s.begun op i)) := by
  unfold beginRead
  rw [hid]
  exact (sessionOnly_begun s i hop).requestsOnly.trans (requestsOnly_present (begun_find hr) _ (fun _ => rfl) rfl hseal)

end State

theorem writesBegin : Clause.WritesBegin := by
  intro s i goes
  refine ⟨fun hr => ?_, fun hr => ?_⟩
  · exact ⟨congrArg Host.Outcome.next (State.submit_runs bodyWriteRaw hr), State.beginWrite_begun hr (by decide) _ _ _ rfl⟩
  · exact ⟨congrArg Host.Outcome.next (State.submit_runs bodyRawWrite hr), State.beginWrite_begun hr (by decide) _ _ _ rfl⟩

theorem readsBegin : Clause.ReadsBegin := by
  refine fun s i => ⟨fun hr => ?_, fun hr => ?_⟩
  · exact ⟨congrArg Host.Outcome.next (State.submit_runs bodyRead hr),
      State.beginRead_begun hr (by decide) (by decide) _ rfl _ _⟩
  · exact ⟨congrArg Host.Outcome.next (State.submit_runs bodyRawRead hr),
      State.beginRead_begun hr (by decide) (by decide) _ rfl _ _⟩

/-! ### ZERO -/

namespace State

/-- The ashlars that lie whole in a range become unwritten. -/
def clearWhole (s : State) (a len : Nat) : State :=
  s.updRaster fun r => { r with
    written := r.written.filter fun n => !((r.touched a len).contains n && s.wholeIn a len n) }

theorem SessionOnly.clearWhole {s t : State} (h : SessionOnly s t) (a len : Nat) :
    SessionOnly (s.clearWhole a len) (t.clearWhole a len) :=
  h.map (fun x => x.clearWhole a len) (fun _ _ _ _ _ _ => rfl) rfl rfl

end State

/-- ZERO clears the map bits of whole ashlars, and then does no more than ask for its writes. -/
theorem bodyZero_begun {s : State} {i : Issue} (hr : s.runs 0x15 i = true) :
    let c := s.issued 0x15 i
    (s.clearWhole (c.raster 2) (c.p 4)).RequestsOnly (bodyZero c (s.begun 0x15 i)) := by
  intro c
  have cleared := (State.sessionOnly_begun s i (op := 0x15) (by decide)).clearWhole (c.raster 2) (c.p 4)
  have found : ((s.begun 0x15 i).clearWhole (c.raster 2) (c.p 4)).findCmd s.nextId = some { c with prog := .event } :=
    State.begun_find hr
  exact cleared.requestsOnly.trans
    (State.requestsOnly_present found _ (fun _ => rfl) rfl (show (0x15 : Byte) ≠ 0x16 by decide))

theorem zeroClearsWholeAshlars : Clause.ZeroClearsWholeAshlars := by
  intro s i hr c a whole
  have hx : exec (.zero i) s = .next (bodyZero c (s.begun 0x15 i)) :=
    congrArg Host.Outcome.next (State.submit_runs bodyZero hr)
  obtain ⟨moved, raster⟩ := bodyZero_begun hr
  rw [hx]
  generalize bodyZero c (s.begun 0x15 i) = t at moved raster ⊢
  refine ⟨t, rfl, raster, ?_⟩
  rw [raster]
  exact moved

/-! ### ECC_INJECT -/

theorem exec_eccInject {s : State} {i : Issue} (hr : s.runs 0x52 i = true) :
    exec (.eccInject i) s = .next (bodyEccInject (s.issued 0x52 i) (s.begun 0x52 i)) :=
  congrArg Host.Outcome.next (State.submit_runs bodyEccInject hr)

/-- Flips wait for the next write of a word (R340). -/
def State.armFlips (s : State) (k : ChanId) (a : Nat) (flips : BitVec 80) : State :=
  s.updChan k fun ch => { ch with armed := some (a, flips) }

theorem bodyEccInject_arm {c : Cmd} (harm : c.f 5 0 1 = 1) (s : State) :
    bodyEccInject c s = (s.armFlips (s.raster.chanOf (c.raster 0)) (c.raster 0) c.flips).finish c.id {} :=
  if_pos harm

/-- Without ARM the command fills the ashlar of its word when that is unwritten, and asks for its bursts (R339). -/
theorem bodyEccInject_flip {s : State} {c x : Cmd} (hflip : c.f 5 0 1 = 0) (hx : s.findCmd c.id = some x) (hgot : x.got = [])
    (hop : x.op ≠ 0x16) : (s.beginFills c.id [s.raster.ashlar (c.raster 0)]).RequestsOnly (bodyEccInject c s) := by
  have found : (s.beginFills c.id [s.raster.ashlar (c.raster 0)]).findCmd c.id = some x := hx
  rw [bodyEccInject, if_neg (by rw [hflip]; decide)]
  exact State.requestsOnly_present found _ (fun _ => rfl) hgot hop

theorem injectArmsOrFlips : Clause.InjectArmsOrFlips := by
  intro s i hr c a
  have frame := State.sessionOnly_begun s i (op := 0x52) (by decide)
  rw [exec_eccInject hr]
  refine ⟨fun harm => ?arm, fun hflip => ?flip⟩
  case arm =>
    obtain ⟨answered, only⟩ := State.begun_map_finish hr (by decide)
      (fun x => x.armFlips (s.raster.chanOf a) a c.flips) (fun _ _ _ _ _ _ => rfl) {}
    rw [bodyEccInject_arm harm, frame.raster]
    refine ⟨_, rfl, answered, ?_, only⟩
    have armed : (s.armFlips (s.raster.chanOf a) a c.flips).chans[s.raster.chanOf a].armed = some (a, c.flips) := by
      rw [State.armFlips, State.updChan_at, if_pos rfl]
    exact (congrArg (fun v : Vector Chan 2 => v[s.raster.chanOf a].armed) only.chans).trans armed
  case flip =>
    obtain ⟨moved, raster⟩ := bodyEccInject_flip hflip (State.begun_find hr) rfl (show (0x52 : Byte) ≠ 0x16 by decide)
    refine ⟨_, rfl, (frame.movesOnly.trans (State.beginFills_movesOnly ..)).trans moved, fun hwritten => ?_⟩
    have written : (s.begun 0x52 i).raster.isWritten ((s.begun 0x52 i).raster.ashlar a) = true := by
      rwa [frame.raster]
    exact (raster.trans (State.beginFills_written _ _ written)).trans frame.raster

/-- Settles O21: each of the commands begins by fills, by map bits or by flips of its own, and then by requests alone. -/
theorem dataCommands : Obligations.DataCommands := ⟨writesBegin, readsBegin, zeroClearsWholeAshlars, injectArmsOrFlips⟩

end Sys2Proof.Machine
end

section
/-! SUPPORT. WRITE_COMPRESS until an engine takes it, and SEAL_STRIP (R107, R112, R115, R116, R124, R126). -/

namespace Sys2Proof.Machine

namespace State

theorem SessionOnly.compressCheck {s t : State} (a : SessionOnly s t) (c : Cmd) : t.compressCheck c = s.compressCheck c :=
  a.same (fun x => x.compressCheck c) fun _ _ _ _ _ _ => rfl

theorem SessionOnly.takeable {s t : State} (a : SessionOnly s t) (p : Fin 16) : t.takeable p = s.takeable p :=
  a.same (fun x => x.takeable p) fun _ _ _ _ _ _ => rfl

end State

/-! ### WRITE_COMPRESS -/

theorem exec_writeCompress {s : State} {i : Issue} (hr : s.runs 0x13 i = true) :
    exec (.writeCompress i) s = .next (bodyWriteCompress (s.issued 0x13 i) (s.begun 0x13 i)) :=
  congrArg Host.Outcome.next (State.submit_runs bodyWriteCompress hr)

/-- Behind another command on its strip, or with no refusal, the command waits for an engine (R112, R126). -/
theorem bodyWriteCompress_waits {c : Cmd} {s : State} (h : s.stripBehind c = true ∨ s.compressCheck c = none) :
    bodyWriteCompress c s = s.updCmd c.id fun x => { x with prog := .compress } := by
  have clear : (if s.stripBehind c then none else s.compressCheck c) = none := by
    rcases h with behind | clear
    · exact if_pos behind
    · rw [clear, ite_self]
  rw [bodyWriteCompress, clear]

theorem bodyWriteCompress_refused {c : Cmd} {s : State} {a : Answer} (hb : s.stripBehind c = false)
    (ha : s.compressCheck c = some a) : bodyWriteCompress c s = s.finish c.id a := by
  rw [bodyWriteCompress, if_neg (Bool.eq_false_iff.mp hb), ha]

theorem compressWaitsForEngine : Clause.CompressWaitsForEngine := by
  intro s i hr c u
  have check : u.compressCheck c = s.compressCheck c := (State.sessionOnly_begun s i (by decide)).compressCheck c
  rw [exec_writeCompress hr]
  refine ⟨fun waits => ?_, fun hb a ha => ?_⟩
  · rw [bodyWriteCompress_waits (check.symm ▸ waits)]
    exact ⟨_, rfl, State.begun_waits hr (by decide) _⟩
  · rw [bodyWriteCompress_refused hb (check.trans ha)]
    exact ⟨_, rfl, State.begun_finish hr (by decide) _⟩

/-! ### SEAL_STRIP begins -/

theorem exec_sealStrip {s : State} {i : Issue} (hr : s.runs 0x16 i = true) :
    exec (.sealStrip i) s = .next (bodySealStrip (s.issued 0x16 i) (s.begun 0x16 i)) :=
  congrArg Host.Outcome.next (State.submit_runs bodySealStrip hr)

/-- The output that SEAL_STRIP appends: the ten bits of an empty last block, padded to a byte (R124). -/
def Strip.lastBlock (r : Strip) : Output := State.outputAfter r sealBits (ceilDiv (r.bits + 10) 8 * 8 - r.bits) 2

/-- The last block with the room that it takes from the ashlars of its partition; none when there is none (R115). -/
def Strip.placed (r : Strip) (s : State) : Option Output :=
  r.lastBlock.extend (s.takeable r.part) (ceilDiv (r.lastBlock.tail + r.lastBlock.bits) 8) false

/-- The bursts of a last block have gone out for a command (R116, R124). -/
def State.sealing (s : State) (id : Nat) (o q : Output) : State :=
  (((s.updCmd id fun c => { c with prog := .raster, out := o }).keepOutput id q).sendRest id).present

section
variable {c : Cmd} {s : State} {r : Strip} (hf : s.findStrip (c.p 0) = some r)
include hf

theorem bodySealStrip_sealed (hs : r.sealed = true) : bodySealStrip c s = s.finish c.id { r0 := r.lines, r1 := r.size } := by
  simp only [bodySealStrip, hf, hs, if_true, State.succeed]

theorem bodySealStrip_open (hs : r.sealed = false) : bodySealStrip c s =
    ((r.placed s).map (s.sealing c.id r.lastBlock)).getD (s.finish c.id { status := .resourceConflict, detail := 0x0A }) := by
  have ended : (s.updCmd c.id fun x => { x with prog := .raster, out := r.lastBlock }).endOutput
      { c with prog := .raster, out := r.lastBlock } r.part = (r.placed s).map (s.sealing c.id r.lastBlock) := rfl
  unfold Strip.lastBlock at ended
  simp only [bodySealStrip, hf, hs, Bool.false_eq_true, if_false, ended]
  rw [← Strip.lastBlock]
  cases r.placed s <;> rfl

end

namespace State

theorem movesOnly_keepOutput (s : State) (id : Nat) (o : Output) : s.MovesOnly (s.keepOutput id o) :=
  (sessionOnly_updCmd s id _).movesOnly.trans (beginFills_movesOnly ..)

theorem movesOnly_sendRest (s : State) (id : Nat) : s.MovesOnly (s.sendRest id) := by
  unfold sendRest
  split
  · exact (SessionOnly.refl s).movesOnly
  · exact (presented_writeback s _).movesOnly.trans (sessionOnly_updCmd ..).movesOnly

/-- The bursts of a last block and the fills of the ashlars that it takes are all that begins. -/
theorem movesOnly_sealing (s : State) (id : Nat) (o q : Output) : s.MovesOnly (s.sealing id o q) :=
  (((sessionOnly_updCmd s id _).movesOnly.trans (movesOnly_keepOutput ..)).trans (movesOnly_sendRest ..)).trans
    (presented_present _).movesOnly

/-! ### SEAL_STRIP ends -/

/-- A command of SEAL_STRIP goes on to its end once all of its bursts have been written (R124). -/
theorem progress_seal {s : State} {c : Cmd} (hc : s.findCmd c.id = some c) (hop : c.op = 0x16) (hp : c.prog = .raster)
    (hn : c.stop ≤ c.next) (hm : s.moved c = true) : s.progress c.id = s.sealDone c := by
  have other : ¬(c.op = 0x14 ∨ c.op = 0x51) := by rw [hop]; decide
  rw [progress, hc]
  dsimp only
  rw [if_neg other, if_pos ⟨hp, hn, hm⟩, if_pos hop]

/-- Output without a line of its own leaves the lines of a strip and the end of its last one. -/
theorem strip_of_no_lines {o : Output} (he : o.ends = []) (t : Strip) : Output.strip o t =
    { t with extents := o.extents, index := o.index, bits := o.tail + o.bits, lines := o.lines, lastEnd := o.lastEnd } := by
  simp only [Output.strip, lineEnds, he]
  rfl

theorem sealDone_found {s : State} {c : Cmd} {r : Strip} (hf : s.findStrip (c.p 0) = some r) (he : c.out.ends = [])
    (hl : c.out.lines = r.lines) :
    let v : Strip := { r with
      extents := c.out.extents, index := c.out.index, bits := c.out.tail + c.out.bits, lastEnd := c.out.lastEnd, sealed := true }
    s.sealDone c = (s.putStrip v).succeed c.id r.lines v.size := by
  simp only [sealDone, hf, strip_of_no_lines he, hl]

end State

theorem sealAppendsLastBlock : Clause.SealAppendsLastBlock := by
  refine ⟨?begins, fun s c r hc hop hp hn hm he hl hf => ?ends⟩
  case begins =>
    intro s i hr r hf o x
    have frame := State.sessionOnly_begun s i (op := 0x16) (by decide)
    have found := (frame.findStrip _).trans hf
    have room : r.placed (s.begun 0x16 i) = x := by rw [Strip.placed, frame.takeable]; rfl
    rw [exec_sealStrip hr]
    refine ⟨fun hs => ?_, fun hs => ?_⟩
    · rw [bodySealStrip_sealed found hs]
      exact ⟨_, rfl, State.begun_finish hr (by decide) _⟩
    · rw [bodySealStrip_open found hs, room]
      refine ⟨fun hfull => ?_, fun q hq => ?_⟩
      · rw [hfull]
        exact ⟨_, rfl, State.begun_finish hr (by decide) _⟩
      · rw [hq]
        exact ⟨_, frame.movesOnly.trans (State.movesOnly_sealing ..), rfl, rfl⟩
  case ends => exact (State.progress_seal hc hop hp hn hm).trans (State.sealDone_found hf he hl)

/-- Settles O22: a WRITE_COMPRESS by what its strip allows, and a SEAL_STRIP by the room for its last block and by its end. -/
theorem compressedStrips : Obligations.CompressedStrips := ⟨compressWaitsForEngine, sealAppendsLastBlock⟩

end Sys2Proof.Machine
end

section
/-! SUPPORT. SELF_TEST of a decoder engine, of a compressor engine and of the forge pool (R129, R214, R225). -/

namespace Sys2Proof.Machine

namespace State

/-- A packet's own meaning that changes parts outside the session, raises sources and completes its command. -/
theorem begun_map_raise_finish {s : State} {op : Byte} {i : Issue} (hr : s.runs op i = true) (hop : op ≠ 0x07)
    (f : State → State)
    (hf : ∀ x hs ev cs n o, f { x with hosts := hs, events := ev, cmds := cs, nextId := n, out := o } =
      { f x with hosts := hs, events := ev, cmds := cs, nextId := n, out := o })
    {u : State} (raised : Raised (f (s.begun op i)) u) (a : Answer) :
    s.Answered (u.finish s.nextId a) i a ∧ (f s).SessionOnly (u.finish s.nextId a) := by
  have kept (x : State) : f x =
      { f x with hosts := x.hosts, events := x.events, cmds := x.cmds, nextId := x.nextId, out := x.out } :=
    hf x x.hosts x.events x.cmds x.nextId x.out
  have hosts (x : State) : (f x).hosts = x.hosts := (congrArg State.hosts (kept x)).trans rfl
  have out (x : State) : (f x).out = x.out := (congrArg State.out (kept x)).trans rfl
  have cmds (x : State) : (f x).cmds = x.cmds := (congrArg State.cmds (kept x)).trans rfl
  obtain ⟨xs, hxs⟩ := raised.out
  obtain ⟨answered, only, -⟩ := begun_report hr a
    (((sessionOnly_begun s i hop).map f hf (hosts s) (out s)).trans raised.sessionOnly) (raised.cmds.trans (cmds _))
    ((raised.queue i.host i.queue).trans (congrArg (fun hs : Vector HostRec 4 => hs[i.host].queues[i.queue]) (hosts _)))
    (hxs.trans (congrArg (xs ++ ·) (out _)))
  exact ⟨answered, only⟩

theorem SessionOnly.comps {s t : State} (a : SessionOnly s t) : t.comps = s.comps := a.same State.comps fun _ _ _ _ _ _ => rfl

theorem SessionOnly.engines {s t : State} (a : SessionOnly s t) : t.engines = s.engines :=
  a.same State.engines fun _ _ _ _ _ _ => rfl

/-! ### Decoder engines -/

/-- A decoder engine has passed its test: it is a spare, and no link has it (R214). -/
def decoderPassed (s : State) (e : Fin 34) : State :=
  ({ s.useFree.updEngine e fun x => { x with st := .spare, dec := {}, input := [] } with
      links := s.links.map fun l => if l.engine = some e then { l with engine := none } else l } : State).logErr 0x0804 255
    [fld 12 1 0xFF, fld 15 1 e.val, fld 20 2 0xFFFF]

/-- A decoder engine has failed its test: it is out of service. -/
def decoderFailed (s : State) (e : Fin 34) : State := s.useFree.updEngine e fun x => { x with st := .out }

theorem testDecoder_serving {s : State} {e : Fin 34} (hs : s.engines[e].st = .serving) (id : Nat) :
    s.testDecoder id e = s.finish id { status := .resourceConflict } := if_pos hs

section
variable {s : State} {e : Fin 34} (hs : s.engines[e].st ≠ .serving)
include hs

theorem testDecoder_passes (h0 : Config.selfTestStep s.free = 0) (id : Nat) :
    s.testDecoder id e = ((s.decoderPassed e).raise 84).finish id { r0 := 1 } := by
  unfold testDecoder
  dsimp only
  rw [if_neg hs, if_pos h0]
  rfl

theorem testDecoder_fails (h0 : Config.selfTestStep s.free ≠ 0) (id : Nat) :
    s.testDecoder id e = (s.decoderFailed e).finish id { r1 := Config.selfTestStep s.free } := by
  unfold testDecoder
  dsimp only
  rw [if_neg hs, if_neg h0]
  rfl

end

/-- What is tested of a decoder engine shows in that engine alone. -/
theorem updEngine_at (s : State) (e : Fin 34) (f : Engine → Engine) :
    (s.updEngine e f).engines[e] = f s.engines[e] ∧ ∀ x, x ≠ e → (s.updEngine e f).engines[x] = s.engines[x] :=
  ⟨vmod_same .., fun _ hx => vmod_other _ _ _ _ hx.symm⟩

theorem begun_testDecoder {s : State} {i : Issue} (hr : s.runs 0x55 i = true) {e : Fin 34} (hs : s.engines[e].st ≠ .serving) :
    let t := (s.begun 0x55 i).testDecoder s.nextId e
    let step := Config.selfTestStep s.free
    s.Answered t i (if step = 0 then { r0 := 1 } else { r1 := step }) ∧
      t.engines[e].st = (if step = 0 then .spare else .out) ∧ (∀ x, x ≠ e → t.engines[x] = s.engines[x]) ∧
      ({ s with engines := t.engines, links := t.links, logs := t.logs, free := s.free + 1 } : State).SessionOnly t := by
  have frame := sessionOnly_begun s i (op := 0x55) (by decide)
  have idle : (s.begun 0x55 i).engines[e].st ≠ .serving := by rwa [frame.engines]
  by_cases h0 : Config.selfTestStep s.free = 0
  · obtain ⟨answered, only⟩ := begun_map_raise_finish hr (by decide) (fun x => x.decoderPassed e) (fun _ _ _ _ _ _ => rfl)
      (raised_raise _ 84) { r0 := 1 }
    obtain ⟨mine, others⟩ := s.useFree.updEngine_at e fun x => { x with st := .spare, dec := {}, input := [] }
    rw [testDecoder_passes idle (by rwa [frame.free])]
    simp only [if_pos h0]
    refine ⟨answered, ?_, fun x hx => ?_, ?_⟩
    · rw [only.engines]
      exact congrArg Engine.st mine
    · rw [only.engines]
      exact others x hx
    · rw [only.engines, only.links, only.logs]
      exact only
  · obtain ⟨answered, only⟩ := begun_map_finish hr (by decide) (fun x => x.decoderFailed e) (fun _ _ _ _ _ _ => rfl)
      { r1 := Config.selfTestStep s.free }
    obtain ⟨mine, others⟩ := s.useFree.updEngine_at e fun x => { x with st := .out }
    rw [testDecoder_fails idle (by rwa [frame.free]), frame.free]
    simp only [if_neg h0]
    refine ⟨answered, ?_, fun x hx => ?_, ?_⟩
    · rw [only.engines]
      exact congrArg Engine.st mine
    · rw [only.engines]
      exact others x hx
    · rw [only.engines, only.links, only.logs]
      exact only

/-! ### Compressor engines -/

/-- A test waits for the command that an engine holds (R129). -/
theorem askCompTest_busy {s : State} {n : Fin 8} (hj : s.comps[n].job.isSome = true) (id : Nat) :
    s.askCompTest id n = s.updComp n fun e => { e with test := some id } := if_pos hj

theorem askCompTest_free {s : State} {n : Fin 8} (hj : s.comps[n].job = none) (id : Nat) :
    s.askCompTest id n = s.testComp n id := if_neg (by rw [hj]; decide)

theorem begun_askCompTest_busy {s : State} {n : Fin 8} (hj : s.comps[n].job.isSome = true) (i : Issue) :
    let t := (s.begun 0x55 i).askCompTest s.nextId n
    t.comps[n].test = some s.nextId ∧ ({ s with comps := t.comps } : State).Underway t 0x55 i .event := by
  have frame := sessionOnly_begun s i (op := 0x55) (by decide)
  have only := frame.map (fun x => x.updComp n fun e => { e with test := some s.nextId }) (fun _ _ _ _ _ _ => rfl) rfl rfl
  rw [askCompTest_busy (by rwa [frame.comps])]
  refine ⟨congrArg Compressor.test (vmod_same ..), rfl, ?_⟩
  rw [only.comps]
  exact only

/-- Shares decide on which engines are in service, and on nothing else of them (R127). -/
theorem engineShares_comp (s : State) (n : Fin 8) : ∃ b, s.engineShares.comps[n] = { s.comps[n] with inService := b } :=
  ⟨_, Vector.getElem_ofFn ..⟩

theorem testRan_broken (s : State) (n : Fin 8) (c : Cmd) :
    (s.testRan n c).comps[n].broken = (Config.selfTestStep s.free != 0) := by
  obtain ⟨b, shared⟩ :=
    (s.useFree.updComp n fun e => { e with broken := Config.selfTestStep s.free != 0, test := none }).engineShares_comp n
  exact (congrArg Compressor.broken shared).trans (congrArg Compressor.broken (vmod_same s.comps n _))

theorem begun_askCompTest_free {s : State} {i : Issue} (hr : s.runs 0x55 i = true) {n : Fin 8} (hj : s.comps[n].job = none) :
    let t := (s.begun 0x55 i).askCompTest s.nextId n
    let step := Config.selfTestStep s.free
    s.Answered t i (if step = 0 then { r0 := 1 } else { r1 := step }) ∧ t.comps[n].broken = (step != 0) ∧
      ({ s with comps := t.comps, logs := t.logs, free := s.free + 1 } : State).SessionOnly t := by
  have frame := sessionOnly_begun s i (op := 0x55) (by decide)
  have found := begun_find hr
  generalize ({ s.issued 0x55 i with prog := .event } : Cmd) = c at found
  have raised : Raised ((s.begun 0x55 i).testRan n c) (if Config.selfTestStep s.free = 0 then
      ((s.begun 0x55 i).testRan n c).raise ⟨48 + n.val, by omega⟩ else (s.begun 0x55 i).testRan n c) := by
    split
    · exact raised_raise ..
    · exact Raised.refl _
  obtain ⟨answered, only⟩ := begun_map_raise_finish hr (by decide) (fun x => x.testRan n c) (fun _ _ _ _ _ _ => rfl) raised
    (if Config.selfTestStep s.free = 0 then { r0 := 1 } else { r1 := Config.selfTestStep s.free })
  have answer : ({ r0 := if Config.selfTestStep s.free = 0 then 1 else 0, r1 := Config.selfTestStep s.free } : Answer) =
      if Config.selfTestStep s.free = 0 then { r0 := 1 } else { r1 := Config.selfTestStep s.free } := by
    split
    · next h0 => rw [h0]
    · rfl
  rw [askCompTest_free (by rwa [frame.comps]), testComp_found found, frame.free, succeed, answer]
  refine ⟨answered, ?_, ?_⟩
  · rw [only.comps]
    exact s.testRan_broken n c
  · rw [only.comps, only.logs]
    exact only

/-! ### The forge pool -/

/-- The drain runs, an engine holds a command, or staging is in use: the pool cannot be tested (R225). -/
def poolBusy (s : State) : Bool :=
  !s.drainHalted || (s.comps.toList.any fun x => x.job.isSome) || (List.finRange 4).any s.stagingBusy

/-- The test has left the regions of the pool zeroed (R225). -/
def poolCleared (s : State) : State :=
  { s.useFree with
    engines := s.engines.map fun (e : Engine) => { e with dec := {}, input := [] }
    links := s.links.map fun (l : Link) => { l with slots := l.slots.map fun x => { x with image := x.image.map fun _ => 0 } } }

theorem poolCleared_image (s : State) (m : LinkId) : ∀ x ∈ s.poolCleared.links[m].slots, ∀ b ∈ x.image, b = 0 := by
  intro x hx b hb
  have link : s.poolCleared.links[m] = { s.links[m] with
      slots := s.links[m].slots.map fun x => { x with image := x.image.map fun _ => 0 } } := Vector.getElem_map ..
  rw [link] at hx
  obtain ⟨y, -, rfl⟩ := List.mem_map.mp hx
  obtain ⟨z, -, rfl⟩ := List.mem_map.mp hb
  rfl

/-- A SELF_TEST does not use staging itself. -/
theorem begun_poolBusy (s : State) (i : Issue) : (s.begun 0x55 i).poolBusy = s.poolBusy := by
  have frame := sessionOnly_begun s i (op := 0x55) (by decide)
  have staging : (s.begun 0x55 i).stagingBusy = s.stagingBusy := by
    funext h
    have cmds : (s.begun 0x55 i).cmds = s.cmds ++ [{ s.issued 0x55 i with prog := .event }] := rfl
    rw [stagingBusy, cmds, List.any_append, ← stagingBusy]
    exact Bool.or_false _
  rw [poolBusy, poolBusy, frame.drainHalted, frame.comps, staging]

theorem testPool_busy {s : State} (hb : s.poolBusy = true) (id : Nat) :
    s.testPool id = s.finish id { status := .resourceConflict } := if_pos hb

theorem testPool_idle {s : State} (hb : s.poolBusy = false) (id : Nat) : s.testPool id = s.poolCleared.finish id
    (if Config.selfTestStep s.free = 0 then { r0 := 1 } else { r1 := (Config.openDword s.free).toNat }) := by
  refine (if_neg (Bool.eq_false_iff.mp hb)).trans ?_
  by_cases h0 : Config.selfTestStep s.free = 0
  · rw [if_pos h0, if_pos h0]
    rfl
  · rw [if_neg h0, if_neg h0]
    rfl

theorem begun_testPool {s : State} {i : Issue} (hr : s.runs 0x55 i = true) (hb : s.poolBusy = false) :
    let t := (s.begun 0x55 i).testPool s.nextId
    s.Answered t i (if Config.selfTestStep s.free = 0 then { r0 := 1 } else { r1 := (Config.openDword s.free).toNat }) ∧
      (∀ m : LinkId, ∀ x ∈ t.links[m].slots, ∀ b ∈ x.image, b = 0) ∧
      ({ s with engines := t.engines, links := t.links, free := s.free + 1 } : State).SessionOnly t := by
  have frame := sessionOnly_begun s i (op := 0x55) (by decide)
  obtain ⟨answered, only⟩ := begun_map_finish hr (by decide) poolCleared (fun _ _ _ _ _ _ => rfl)
    (if Config.selfTestStep s.free = 0 then { r0 := 1 } else { r1 := (Config.openDword s.free).toNat })
  rw [testPool_idle (by rwa [begun_poolBusy]), frame.free]
  refine ⟨answered, fun m => ?_, ?_⟩
  · rw [only.links]
    exact s.poolCleared_image m
  · rw [only.engines, only.links]
    exact only

end State

/-! ### The command -/

theorem exec_selfTest {s : State} {i : Issue} (hr : s.runs 0x55 i = true) :
    exec (.selfTest i) s = .next (bodySelfTest (s.issued 0x55 i) (s.begun 0x55 i)) :=
  congrArg Host.Outcome.next (State.submit_runs bodySelfTest hr)

theorem bodySelfTest_decoder {c : Cmd} (h : c.f 0 0 8 = 0) (s : State) :
    bodySelfTest c s = s.testDecoder c.id (Fin.ofNat 34 (c.f 0 8 8)) := by simp only [bodySelfTest, h]

theorem bodySelfTest_compressor {c : Cmd} (h : c.f 0 0 8 = 1) (s : State) :
    bodySelfTest c s = s.askCompTest c.id (Fin.ofNat 8 (c.f 0 8 8)) := by simp only [bodySelfTest, h]

theorem bodySelfTest_pool {c : Cmd} (h : c.f 0 0 8 = 2) (s : State) : bodySelfTest c s = s.testPool c.id := by
  simp only [bodySelfTest, h]

/-- Settles O28: what the command names, and for each whether it can be tested now. -/
theorem selfTestReports : Obligations.SelfTestReports := by
  intro s i hr c e n step poolBusy
  have frame := State.sessionOnly_begun s i (op := 0x55) (by decide)
  rw [exec_selfTest hr]
  refine ⟨fun hkind => ?decoder, fun hkind => ?compressor, fun hkind => ?pool⟩
  case decoder =>
    rw [bodySelfTest_decoder hkind]
    refine ⟨fun hs => ?_, fun hs => ⟨_, rfl, State.begun_testDecoder hr hs⟩⟩
    rw [State.testDecoder_serving (e := e) (by rwa [frame.engines])]
    exact ⟨_, rfl, State.begun_finish hr (by decide) _⟩
  case compressor =>
    rw [bodySelfTest_compressor hkind]
    exact ⟨fun hj => ⟨_, rfl, State.begun_askCompTest_busy hj i⟩, fun hj => ⟨_, rfl, State.begun_askCompTest_free hr hj⟩⟩
  case pool =>
    rw [bodySelfTest_pool hkind]
    refine ⟨fun hb => ?_, fun hb => ⟨_, rfl, State.begun_testPool hr hb⟩⟩
    rw [State.testPool_busy ((s.begun_poolBusy i).trans hb)]
    exact ⟨_, rfl, State.begun_finish hr (by decide) _⟩

end Sys2Proof.Machine
end

section
/-! SUPPORT. Compressor engines: the command that one takes, how it ends, and faults (R117 to R120, R126 to R128). -/

namespace Sys2Proof.Machine

namespace State

/-! ### Dispatch -/

/-- A compressor engine may take a command: it is in service, free, not to be tested, and within its shares (R126, R127). -/
def mayTake (s : State) (n : Fin 8) : Prop :=
  s.comps[n].inService = true ∧ s.comps[n].job = none ∧ s.comps[n].test = none ∧
    n.val < min (poolShares s.ks.force.pool) s.shares

/-- The test by which COMPRESSOR_DISPATCH passes an engine over. -/
theorem passedOver_iff (s : State) (n : Fin 8) : (!s.comps[n].inService || s.comps[n].job.isSome || s.comps[n].test.isSome ||
    decide (min (poolShares s.ks.force.pool) s.shares ≤ n.val)) = true ↔ ¬s.mayTake n := by
  simp only [mayTake, Bool.or_eq_true, Bool.not_eq_true', Option.isSome_iff_ne_none, decide_eq_true_eq, ← Nat.not_lt,
    ← Bool.not_eq_true]
  tauto

theorem dispatch_idle {s : State} {n : Fin 8} (h : ¬s.mayTake n ∨ s.nextCompress = none) (stream : List Byte) (bits : Nat) :
    s.dispatch n stream bits = s := by
  unfold dispatch
  dsimp only
  by_cases may : s.mayTake n
  · rw [if_neg (mt (s.passedOver_iff n).mp (not_not_intro may)), h.resolve_left (not_not_intro may)]
  · exact if_pos ((s.passedOver_iff n).mpr may)

section
variable {s : State} {n : Fin 8} {c : Cmd} (may : s.mayTake n) (hnext : s.nextCompress = some c)
include may hnext

theorem dispatch_refuses {a : Answer} (ha : s.compressCheck c = some a) (stream : List Byte) (bits : Nat) :
    s.dispatch n stream bits = ({ s with compTurn := c.host } : State).finish c.id a := by
  have refused : ({ s with compTurn := c.host } : State).compressCheck c = some a := ha
  unfold dispatch
  dsimp only
  rw [if_neg (mt (s.passedOver_iff n).mp (not_not_intro may)), hnext]
  dsimp only
  rw [refused]

theorem dispatch_gives (ha : s.compressCheck c = none) (stream : List Byte) (bits : Nat) :
    let t : Strip := (s.findStrip (c.p 5)).getD { idx := 0, gen := 0 }
    s.dispatch n stream bits = (({ s with compTurn := c.host } : State).updComp n fun x => { x with job := some c.id }).updCmd
      c.id fun x => { x with out := outputAfter t stream bits c.gainLimit } := by
  have clear : ({ s with compTurn := c.host } : State).compressCheck c = none := ha
  unfold dispatch
  dsimp only
  rw [if_neg (mt (s.passedOver_iff n).mp (not_not_intro may)), hnext]
  dsimp only
  rw [clear]

end

/-! ### A command of which nothing stays -/

/-- Nothing stays of an output: the records of strips, the stored words and the allocations are what they were, and no ashlar that
it took is written (R118, R119). -/
def NothingStays (s t : State) (o : Output) : Prop :=
  t.strips = s.strips ∧ t.raster.dram = s.raster.dram ∧ t.raster.alloc = s.raster.alloc ∧
    ∀ a ∈ o.taken, a ∉ t.raster.written

/-- Stopping a command that does not write through host staging changes raster memory in map bits and fills alone. -/
theorem release_raster {s : State} {id : Nat} {c : Cmd} (hc : s.findCmd id = some c) (hw : c.op ≠ 0x12) (hz : c.op ≠ 0x15) :
    (s.release id).raster = (s.orphanFills c).raster := by
  rw [release_found hc, levelWrites_other hw hz]
  rfl

theorem EngineOnly.strips {s t : State} (a : EngineOnly s t) : t.strips = s.strips := by rw [a.frame]

/-- A WRITE_COMPRESS that ends without success leaves nothing of its output (R118, R119). -/
theorem engineFails_nothingStays {s : State} {id : Nat} {c : Cmd} (hc : s.findCmd id = some c) (hop : c.op = 0x13)
    (n : Fin 8) (a : Answer) : s.NothingStays (s.engineFails n id a) c.out := by
  have ended := engineFree_engineOnly (s.abort id a) n
  have finished := finish_sessionOnly (s.release id) id a
  have strips : (s.engineFails n id a).strips = s.strips :=
    (ended.strips.trans finished.strips).trans (by rw [(release_stopOnly hc).frame])
  have raster : (s.engineFails n id a).raster = (s.orphanFills c).raster :=
    (ended.raster.trans finished.raster).trans (release_raster hc (by rw [hop]; decide) (by rw [hop]; decide))
  refine ⟨strips, by rw [raster]; rfl, by rw [raster]; rfl, fun x hx written => ?_⟩
  rw [raster] at written
  have untaken := (List.mem_filter.mp written).2
  rw [List.contains_iff_mem.mpr hx] at untaken
  exact absurd untaken (by decide)

/-! ### The end of a command -/

theorem compressDone_idle {s : State} {n : Fin 8} (hjob : s.comps[n].job.bind s.findCmd = none) : s.compressDone n = s := by
  rw [compressDone, hjob]

/-- A command that an engine holds is found by its own number. -/
theorem find_of_job {s : State} {n : Fin 8} {c : Cmd} (hjob : s.comps[n].job.bind s.findCmd = some c) :
    s.findCmd c.id = some c := by
  obtain ⟨id, -, hc⟩ := Option.bind_eq_some_iff.mp hjob
  rwa [id_of_find hc]

section
variable {s : State} {n : Fin 8} {c : Cmd} (hjob : s.comps[n].job.bind s.findCmd = some c)
include hjob

theorem compressDone_early (h : c.out.ended = false ∨ s.moved c = false) : s.compressDone n = s := by
  have early : (!c.out.ended || !s.moved c) = true := by
    rcases h with h | h <;> simp [h]
  unfold compressDone
  rw [hjob]
  exact if_pos early

variable (hend : c.out.ended = true) (hmoved : s.moved c = true)
include hend hmoved

theorem compressDone_beyond (hgain : c.gainLimit < c.out.size) : s.compressDone n =
    s.engineFails n c.id { status := .noshrink, r0 := c.p 5, r1 := c.out.size } := by
  unfold compressDone
  rw [hjob]
  dsimp only
  rw [if_neg (by simp [hend, hmoved]), if_pos hgain]

section
variable (hgain : c.out.size ≤ c.gainLimit) (hstrip : s.findStrip (c.p 5) = none)
include hgain hstrip

/-- Output within the limit that extends no strip is a new one (R107, R120). -/
theorem compressDone_creates {y : State × Strip}
    (hy : s.createStrip (Output.strip c.out { idx := 0, gen := 0, part := c.part, words := c.f 3 0 11 }) = some y) :
    s.compressDone n = (y.1.succeed c.id y.2.handle c.out.size).engineFree n := by
  unfold compressDone
  rw [hjob]
  dsimp only
  rw [if_neg (by simp [hend, hmoved]), if_neg (Nat.not_lt.mpr hgain), hstrip]
  dsimp only
  rw [hy]

theorem compressDone_full
    (hfull : s.createStrip (Output.strip c.out { idx := 0, gen := 0, part := c.part, words := c.f 3 0 11 }) = none) :
    s.compressDone n = s.engineFails n c.id { status := .resourceConflict } := by
  unfold compressDone
  rw [hjob]
  dsimp only
  rw [if_neg (by simp [hend, hmoved]), if_neg (Nat.not_lt.mpr hgain), hstrip]
  dsimp only
  rw [hfull]

end

end

/-! ### Faults -/

theorem compFault_idle {s : State} {n : Fin 8} (hjob : s.comps[n].job = none) (cause addr : Nat) :
    s.compFault n cause addr = s := by
  rw [compFault, hjob]
  rfl

/-- An engine that ends its command with no test that waits is free, and else as it was but for its share. -/
theorem engineFree_comp {s : State} {n : Fin 8} (ht : s.comps[n].test = none) :
    ∃ b, (s.engineFree n).comps[n] = { s.comps[n] with job := none, inService := b } := by
  have left : (s.updComp n fun e => { e with job := none }).comps[n] = { s.comps[n] with job := none } := vmod_same ..
  obtain ⟨b, settled⟩ := ({ s.updComp n fun e => { e with job := none } with
    shares := (s.updComp n fun e => { e with job := none }).settlePool.shares
    staging := (s.updComp n fun e => { e with job := none }).settlePool.staging } : State).engineShares_comp n
  have freed : (s.updComp n fun e => { e with job := none }).settlePool.comps[n] =
      { s.comps[n] with job := none, inService := b } :=
    settled.trans (congrArg (fun x : Compressor => { x with inService := b }) left)
  refine ⟨b, ?_⟩
  unfold engineFree
  dsimp only
  rw [(congrArg Compressor.test freed).trans ht]
  exact freed

/-- An output between two states is one between an earlier and a later one. -/
theorem Sent.mono {r s t u : State} {o : Out} (h : s.Sent t o) (before : ∃ xs, s.out = xs ++ r.out)
    (after : ∃ xs, u.out = xs ++ t.out) : r.Sent u o := by
  obtain ⟨xs, hxs, mem⟩ := h
  obtain ⟨ys, hys⟩ := before
  obtain ⟨zs, hzs⟩ := after
  refine ⟨zs ++ (xs ++ ys), by rw [hzs, hxs, hys, List.append_assoc, List.append_assoc], ?_⟩
  exact List.mem_append_right _ (List.mem_append_left _ mem)

/-- A command that is stopped answers (R53, R59). -/
theorem sent_abort {s : State} {id : Nat} {c : Cmd} (hc : s.findCmd id = some c) (a : Answer) :
    s.Sent (s.abort id a) (.completion c.iss.host c.iss.queue (s.queue c.iss.host c.iss.queue).cqTail
      (completionEntry c.iss.tag a (s.queue c.iss.host c.iss.queue).phase c.iss.queue
        (s.queue c.iss.host c.iss.queue).sqHead)) :=
  have found : (s.release id).findCmd id = some c := by rw [findCmd, release_cmds]; exact hc
  sent_finish found (release_stopOnly hc).hosts (release_stopOnly hc).out a

theorem raised_faulted (s : State) (n : Fin 8) (c : Cmd) (cause addr : Nat) :
    Raised ((s.logComp 0x0501 n c cause (c.p 5) c.out.ends.length addr).updComp n fun e => { e with broken := true })
      (s.faulted n c cause addr) := raised_raise ..

theorem faulted_find {s : State} {id : Nat} {x : Cmd} (hx : s.findCmd id = some x) (n : Fin 8) (c : Cmd) (cause addr : Nat) :
    (s.faulted n c cause addr).findCmd id = some x := by
  rw [findCmd, (s.raised_faulted n c cause addr).cmds]
  exact hx

/-- The engine of a fault is broken and free, and the answer of its command has been put out (R128). -/
theorem compFault_answers {s : State} {n : Fin 8} {id : Nat} {c : Cmd} (hjob : s.comps[n].job = some id)
    (hc : s.findCmd id = some c) (htest : s.comps[n].test = none) (cause addr : Nat) :
    let t := s.compFault n cause addr
    t.comps[n].broken = true ∧ t.comps[n].job = none ∧
      s.Sent t (.completion c.iss.host c.iss.queue (s.queue c.iss.host c.iss.queue).cqTail
        (completionEntry c.iss.tag { status := .aborted, detail := 0x14 } (s.queue c.iss.host c.iss.queue).phase c.iss.queue
          (s.queue c.iss.host c.iss.queue).sqHead)) := by
  intro t
  have raised := s.raised_faulted n c cause addr
  have found := faulted_find hc n c cause addr
  have queue : (s.faulted n c cause addr).queue c.iss.host c.iss.queue = s.queue c.iss.host c.iss.queue := raised.queue ..
  obtain ⟨broken, test, -⟩ := abort_engines found { status := .aborted, detail := 0x14 } n
  rw [faulted_comps] at broken test
  obtain ⟨b, engine⟩ := engineFree_comp (test htest)
  have ended : t = ((s.faulted n c cause addr).abort id { status := .aborted, detail := 0x14 }).engineFree n :=
    compFault_found hjob hc cause addr
  rw [ended, engine, ← queue]
  exact ⟨broken, rfl, (sent_abort found _).mono raised.out (engineFree_engineOnly ..).out⟩

theorem compFault_nothingStays {s : State} {n : Fin 8} {id : Nat} {c : Cmd} (hjob : s.comps[n].job = some id)
    (hc : s.findCmd id = some c) (hop : c.op = 0x13) (cause addr : Nat) : s.NothingStays (s.compFault n cause addr) c.out := by
  have raised := s.raised_faulted n c cause addr
  have found := faulted_find hc n c cause addr
  have strips : (s.faulted n c cause addr).strips = s.strips := raised.sessionOnly.strips
  have raster : (s.faulted n c cause addr).raster = s.raster := raised.sessionOnly.raster
  have nothing := engineFails_nothingStays found hop n { status := .aborted, detail := 0x14 }
  rw [compFault_found hjob hc]
  rw [NothingStays, strips, raster] at nothing
  exact nothing

end State

/-! ### The clauses -/

theorem exec_compressorDispatch (n : Fin 8) (stream : List Byte) (bits : Nat) (s : State) :
    exec (.compressorDispatch n stream bits) s = .next (s.dispatch n stream bits) := rfl

theorem exec_writeCompressDone (n : Fin 8) (s : State) : exec (.writeCompressDone n) s = .next (s.compressDone n) := rfl

theorem exec_compressorFault (n : Fin 8) (cause : Fin 4) (addr : BitVec 64) (s : State) : exec (.compressorFault n cause addr) s =
    .next (if cause = 0 then s else s.compFault n cause.val (if cause = 1 then 2 ^ 64 - 1 else addr.toNat)) := rfl

theorem engineTakesCommand : Clause.EngineTakesCommand := by
  intro s n stream bits e free
  rw [exec_compressorDispatch]
  refine ⟨fun idle => ?_, fun may c hnext => ⟨fun a ha => ?_, fun clear => ?_⟩⟩
  · rw [State.dispatch_idle idle]
  · rw [State.dispatch_refuses may hnext ha]
  · rw [State.dispatch_gives may hnext clear]
    rfl

theorem engineEndsCommand : Clause.EngineEndsCommand := by
  intro s n
  rw [exec_writeCompressDone]
  refine ⟨fun hjob => by rw [State.compressDone_idle hjob], fun c hjob => ⟨fun early => ?_, fun hend hmoved => ?_⟩⟩
  · rw [State.compressDone_early hjob early]
  · refine ⟨fun beyond hop => ?noshrink, fun within => ⟨fun t hstrip => ?grows, fun hstrip => ?new⟩⟩
    case noshrink =>
      rw [State.compressDone_beyond hjob hend hmoved beyond]
      exact ⟨_, rfl, rfl, State.engineFails_nothingStays (State.find_of_job hjob) hop n _⟩
    case grows =>
      rw [State.compressDone_keeps hjob hend hmoved hstrip within]
      rfl
    case new =>
      refine ⟨fun y hy => ?_, fun hfull => ?_⟩
      · rw [State.compressDone_creates hjob hend hmoved within hstrip hy]
        rfl
      · rw [State.compressDone_full hjob hend hmoved within hstrip hfull]

theorem engineFaults : Clause.EngineFaults := by
  intro s n cause addr
  rw [exec_compressorFault]
  refine ⟨fun idle => ?_, fun hcause id c hjob hc hop htest => ?_⟩
  · split
    · rfl
    · next hcause => rw [State.compFault_idle (idle.resolve_left hcause)]
  · rw [if_neg hcause]
    generalize (if cause = 1 then 2 ^ 64 - 1 else addr.toNat) = word
    obtain ⟨out, cmds⟩ := State.compFault_ends hjob hc htest cause.val word
    obtain ⟨broken, job, sent⟩ := State.compFault_answers hjob hc htest cause.val word
    obtain ⟨strips, dram, alloc, written⟩ := State.compFault_nothingStays hjob hc hop cause.val word
    exact ⟨_, rfl, broken, job, out, cmds, strips, dram, alloc, written, sent⟩

/-- Settles O40: an engine by whether it may take a command, by how far its output has come, and by what a fault stops. -/
theorem compressorEngines : Obligations.CompressorEngines := ⟨engineTakesCommand, engineEndsCommand, engineFaults⟩

end Sys2Proof.Machine
end


section
/-! SUPPORT. The commands of a channel's service, one after the other: what they leave of the course under way, of its ranks and of
their bank indexes (R144 to R147, R297, R302). -/

namespace Sys2Proof.Machine

namespace State

/-! ### Commands to a rank -/

theorem updRank_rank (s : State) (c : ChanId) (r q : RankId) (f : Rank → Rank) :
    (s.updRank c r f).chans[c].ranks[q] = if r = q then f s.chans[c].ranks[q] else s.chans[c].ranks[q] := by
  unfold updRank
  rw [updChan_at, if_pos rfl]
  exact getElem_vmod ..

/-- Commands have gone to ranks of a channel: of a rank there only its last use and its power-down have changed. -/
structure Serves (s t : State) (c : ChanId) : Prop where
  only : RanksOnly s t
  grows : Grows s t
  rank : ∀ r : RankId, ∃ l p, t.chans[c].ranks[r] = { s.chans[c].ranks[r] with lastUse := l, powerDown := p }

theorem Serves.refl (s : State) (c : ChanId) : Serves s s c := ⟨.refl s, .refl s, fun _ => ⟨_, _, rfl⟩⟩

theorem Serves.trans {s t u : State} {c : ChanId} (a : Serves s t c) (b : Serves t u c) : Serves s u c := by
  refine ⟨a.only.trans b.only, a.grows.trans b.grows, fun r => ?_⟩
  obtain ⟨l, p, ha⟩ := a.rank r
  obtain ⟨l', p', hb⟩ := b.rank r
  exact ⟨l', p', by rw [hb, ha]⟩

theorem serves_of_ranks {s t : State} {c : ChanId} (only : RanksOnly s t) (grows : Grows s t)
    (h : t.chans[c].ranks = s.chans[c].ranks) : Serves s t c :=
  ⟨only, grows, fun _ => ⟨_, _, by rw [h]⟩⟩

theorem serves_updRank (s : State) (c : ChanId) (r : RankId) {f : Rank → Rank}
    (hf : ∀ k, ∃ l p, f k = { k with lastUse := l, powerDown := p }) : Serves s (s.updRank c r f) c := by
  refine ⟨ranksOnly_updRank .., updChan_grows .., fun q => ?_⟩
  rw [updRank_rank]
  split
  · exact hf _
  · exact ⟨_, _, rfl⟩

theorem issue_ranks (s : State) (c : ChanId) (code : Nat) (r : RankId) (u : SubId) (g b : Nat) (w : By) :
    (s.issue c code r u g b w).chans[c].ranks = s.chans[c].ranks := by
  unfold issue traceCmd
  rw [emit_chans, updChan_at, if_pos rfl]

theorem serves_issue (s : State) (c : ChanId) (code : Nat) (r : RankId) (u : SubId) (g b : Nat) (w : By) :
    Serves s (s.issue c code r u g b w) c :=
  serves_of_ranks (ranksOnly_issue ..) (issue_grows ..) (issue_ranks ..)

theorem serves_issueBoth (s : State) (c : ChanId) (code : Nat) (r : RankId) (w : By) :
    Serves s (s.issueBoth c code r w) c :=
  (serves_issue ..).trans (serves_issue ..)

theorem serves_useRank (s : State) (c : ChanId) (r : RankId) (w : By) : Serves s (s.useRank c r w) c := by
  refine Serves.trans ?_ (serves_updRank _ c r fun k => ⟨_, _, rfl⟩)
  split
  · exact serves_issueBoth ..
  · exact .refl s c

theorem serves_foldl {α : Type} {c : ChanId} {f : State → α → State} (hf : ∀ s x, Serves s (f s x) c) (l : List α)
    (s : State) : Serves s (l.foldl f s) c := by
  induction l generalizing s with
  | nil => exact .refl s c
  | cons x l ih => exact (hf s x).trans (ih (f s x))

theorem serves_dropRows (s : State) (c : ChanId) (p : Row → Bool) :
    Serves s (s.updChan c fun ch => { ch with rows := ch.rows.filter p }) c := by
  refine serves_of_ranks (ranksOnly_updChan _ _ _ fun _ => rfl) (updChan_grows ..) ?_
  rw [updChan_at, if_pos rfl]

theorem serves_closeRows (s : State) (c : ChanId) (test : Row → Bool) (w : By) : Serves s (s.closeRows c test w) c :=
  (serves_foldl (fun _ _ => serves_issue ..) _ s).trans (serves_dropRows ..)

theorem serves_closeRank (s : State) (c : ChanId) (r : RankId) (u : SubId) (w : By) : Serves s (s.closeRank c r u w) c := by
  refine Serves.trans ?_ (serves_dropRows ..)
  split
  · exact serves_issue ..
  · exact .refl s c

/-- What a rank is sent for its service comes after it has been woken, and a spare goes back to power-down after it. -/
theorem serves_serviced (s : State) (c : ChanId) (r : RankId) (w : By) (act : State → State) :
    Serves (act (s.useRank c r w)) (s.serviced c r w act) c := by
  unfold serviced
  dsimp only
  split
  · exact (serves_issueBoth ..).trans (serves_updRank _ c r fun k => ⟨_, _, rfl⟩)
  · exact .refl _ c

theorem Serves.bankIdx {s t : State} {c : ChanId} (a : Serves s t c) (r : RankId) (u : SubId) (b : Fin 4) :
    t.bankIdx c r u b = s.bankIdx c r u b := by
  obtain ⟨l, p, h⟩ := a.rank r
  rw [State.bankIdx, h]
  rfl

/-! ### The course under way -/

/-- Raster memory and what has still to be done of the course have stayed; more banks may be blocked, and outputs have been put
out. -/
structure CourseKept (s t : State) (c : ChanId) : Prop where
  raster : t.raster = s.raster
  due : t.chans[c].due = s.chans[c].due
  latch : t.chans[c].latch = s.chans[c].latch
  blocks : ∀ x ∈ s.chans[c].blocks, x ∈ t.chans[c].blocks
  grows : Grows s t

theorem CourseKept.refl (s : State) (c : ChanId) : CourseKept s s c := ⟨rfl, rfl, rfl, fun _ h => h, .refl s⟩

theorem CourseKept.trans {s t u : State} {c : ChanId} (a : CourseKept s t c) (b : CourseKept t u c) : CourseKept s u c :=
  ⟨b.raster.trans a.raster, b.due.trans a.due, b.latch.trans a.latch, fun x h => b.blocks x (a.blocks x h),
    a.grows.trans b.grows⟩

theorem CourseKept.ite {P : Prop} [Decidable P] {s a b : State} {c : ChanId} (ha : CourseKept s a c) (hb : CourseKept s b c) :
    CourseKept s (if P then a else b) c := by
  split
  · exact ha
  · exact hb

theorem CourseKept.foldl {α : Type} {c : ChanId} {f : State → α → State} (hf : ∀ s x, CourseKept s (f s x) c) (l : List α)
    (s : State) : CourseKept s (l.foldl f s) c := by
  induction l generalizing s with
  | nil => exact .refl s c
  | cons x l ih => exact (hf s x).trans (ih (f s x))

/-- What is sent before stays sent. -/
theorem CourseKept.sent {s t u : State} {c : ChanId} {o : Out} (h : s.Sent t o) (a : CourseKept t u c) : s.Sent u o :=
  Sent.between (.refl s) h a.grows

theorem Serves.courseKept {s t : State} {c : ChanId} (a : Serves s t c) : CourseKept s t c := by
  refine ⟨by rw [a.only.frame], by rw [a.only.chan c], by rw [a.only.chan c], fun x h => ?_, a.grows⟩
  rw [a.only.chan c]
  exact h

theorem courseKept_updChan (s : State) (c : ChanId) {f : Chan → Chan} (hd : ∀ ch, (f ch).due = ch.due)
    (hl : ∀ ch, (f ch).latch = ch.latch) (hb : ∀ ch, ∀ x ∈ ch.blocks, x ∈ (f ch).blocks) :
    CourseKept s (s.updChan c f) c := by
  have here : (s.updChan c f).chans[c] = f s.chans[c] := by rw [updChan_at, if_pos rfl]
  exact ⟨rfl, by rw [here, hd], by rw [here, hl], by rw [here]; exact hb _, updChan_grows ..⟩

theorem courseKept_updRank (s : State) (c : ChanId) (r : RankId) (f : Rank → Rank) : CourseKept s (s.updRank c r f) c :=
  courseKept_updChan s c (fun _ => rfl) (fun _ => rfl) fun _ _ h => h

theorem courseKept_of_eq {s t : State} {c : ChanId} (hr : t.raster = s.raster) (hc : t.chans = s.chans) (ho : Grows s t) :
    CourseKept s t c :=
  ⟨hr, by rw [hc], by rw [hc], by rw [hc]; exact fun _ h => h, ho⟩

theorem courseKept_raise (s : State) (n : Fin 96) (c : ChanId) : CourseKept s (s.raise n) c :=
  courseKept_of_eq (raise_raster s n) (raised_raise s n).sessionOnly.chans (raised_raise s n).out

theorem courseKept_logCourse (s : State) (y k u r b l i v d : Nat) (c : ChanId) :
    CourseKept s (s.logCourse y k u r b l i v d) c :=
  courseKept_of_eq rfl rfl (.of_out rfl)

theorem courseKept_logDram (s : State) (type : Nat) (d : ChanId) (sub rank b15 temp value : Nat) (c : ChanId) :
    CourseKept s (s.logDram type d sub rank b15 temp value) c :=
  courseKept_of_eq rfl rfl (.of_out rfl)

theorem courseKept_settleForced (s : State) (c : ChanId) : CourseKept s (s.settleForced c) c :=
  .ite (.refl s c) (courseKept_updChan s c (fun _ => rfl) (fun _ => rfl) fun _ _ h => h)

theorem courseKept_block (s : State) (c : ChanId) (i : Nat) (u : SubId) : CourseKept s (s.block c i u) c :=
  courseKept_updChan s c (fun _ => rfl) (fun _ => rfl) fun _ _ h => List.mem_append_left _ h

theorem mem_block (s : State) (c : ChanId) (i : Nat) (u : SubId) : (i, u) ∈ (s.block c i u).chans[c].blocks := by
  unfold block
  rw [updChan_at, if_pos rfl]
  exact List.mem_append_right _ (List.mem_singleton_self _)

theorem block_ranks (s : State) (c : ChanId) (i : Nat) (u : SubId) : (s.block c i u).chans[c].ranks = s.chans[c].ranks := by
  unfold block
  rw [updChan_at, if_pos rfl]

/-! ### One bank index among the others -/

theorem bankSlot_ne {u v : SubId} (h : v ≠ u) (b : Fin 4) : bankSlot u b ≠ bankSlot v b := by
  intro e
  refine h (Fin.ext ?_)
  have same := congrArg Fin.val e
  simp only [bankSlot] at same
  omega

/-- Besides the course, what a command to a bank index of a rank depends on has stayed. -/
structure SparesIndex (s t : State) (c : ChanId) (r : RankId) (u : SubId) (b : Fin 4) : Prop extends CourseKept s t c where
  st : t.chans[c].ranks[r].st = s.chans[c].ranks[r].st
  asleep : t.chans[c].ranks[r].selfRefresh = s.chans[c].ranks[r].selfRefresh
  index : t.bankIdx c r u b = s.bankIdx c r u b

section
variable {s t v : State} {c : ChanId} {r : RankId} {u : SubId} {b : Fin 4}

theorem SparesIndex.refl (s : State) (c : ChanId) (r : RankId) (u : SubId) (b : Fin 4) : SparesIndex s s c r u b :=
  ⟨.refl s c, rfl, rfl, rfl⟩

theorem SparesIndex.trans (x : SparesIndex s t c r u b) (y : SparesIndex t v c r u b) : SparesIndex s v c r u b :=
  ⟨x.toCourseKept.trans y.toCourseKept, y.st.trans x.st, y.asleep.trans x.asleep, y.index.trans x.index⟩

theorem Serves.sparesIndex (a : Serves s t c) (r : RankId) (u : SubId) (b : Fin 4) : SparesIndex s t c r u b := by
  obtain ⟨l, p, h⟩ := a.rank r
  exact ⟨a.courseKept, by rw [h], by rw [h], a.bankIdx r u b⟩

theorem CourseKept.sparesIndex (a : CourseKept s t c) (h : t.chans[c].ranks = s.chans[c].ranks) (r : RankId) (u : SubId)
    (b : Fin 4) : SparesIndex s t c r u b :=
  ⟨a, by rw [h], by rw [h], by rw [bankIdx, h]; rfl⟩

/-- An entry would issue its command as before. -/
theorem SparesIndex.wouldIssue {e : Entry} (a : SparesIndex s t c e.rankId u e.bank) :
    t.wouldIssue c e u = s.wouldIssue c e u := by
  have index := a.index
  unfold bankIdx at index
  unfold State.wouldIssue
  dsimp only
  rw [a.st, a.asleep, index]

/-- A change of another subchannel's bank index. -/
theorem sparesIndex_updBank (s : State) (c : ChanId) (r : RankId) {u w : SubId} (h : w ≠ u) (b : Fin 4) (f : BankIdx → BankIdx) :
    SparesIndex s (s.updBank c r u b f) c r w b := by
  have rank : (s.updBank c r u b f).chans[c].ranks[r] =
      { s.chans[c].ranks[r] with banks := vmod s.chans[c].ranks[r].banks (bankSlot u b) f } := updRank_at ..
  refine ⟨courseKept_updRank .., by rw [rank], by rw [rank], ?_⟩
  rw [bankIdx, rank]
  dsimp only
  rw [getElem_vmod, if_neg (bankSlot_ne h b)]
  rfl

theorem settleForced_ranks (s : State) (c : ChanId) : (s.settleForced c).chans[c].ranks = s.chans[c].ranks := by
  unfold settleForced
  split
  · rfl
  · rw [updChan_at, if_pos rfl]

theorem sparesIndex_settleForced (s : State) (c : ChanId) (r : RankId) (u : SubId) (b : Fin 4) :
    SparesIndex s (s.settleForced c) c r u b :=
  (courseKept_settleForced s c).sparesIndex (settleForced_ranks s c) r u b

end

/-! ### REFsb and RFMsb -/

/-- A REFsb or an RFMsb takes RAAIMT off the activate counts of its bank index and keeps it busy. -/
def refreshedIdx (raaimt until_ : Nat) (k : BankIdx) : BankIdx :=
  { k with raas := k.raas.map (· - raaimt), acts := Vector.replicate 4 0, busyTo := max k.busyTo until_ }

/-- What a REFsb or an RFMsb goes out as, before it counts. -/
def refreshSent (s : State) (c : ChanId) (code : Nat) (r : RankId) (u : SubId) (b : Fin 4) (w : By) : State :=
  ((s.useRank c r w).closeRows c (s.indexOpen c r u b) w).issue c code r u 0 b.val w

/-- A REFsb or an RFMsb to a rank that has been woken goes out, and counts for its bank index. -/
def refreshAct (s : State) (c : ChanId) (code : Nat) (r : RankId) (u : SubId) (b : Fin 4) (w : By) (t : State) : State :=
  ((t.closeRows c (s.indexOpen c r u b) w).issue c code r u 0 b.val w).updBank c r u b (refreshedIdx s.chans[c].ranks[r].raaimt
    (s.time + (if s.chans[c].rows.any (s.indexOpen c r u b) then s.rpTau c else 0) + s.rfcTau c))

theorem serves_refreshSent (s : State) (c : ChanId) (code : Nat) (r : RankId) (u : SubId) (b : Fin 4) (w : By) :
    Serves s (s.refreshSent c code r u b w) c :=
  ((serves_useRank ..).trans (serves_closeRows ..)).trans (serves_issue ..)

theorem sparesIndex_updChan (s : State) (c : ChanId) (r : RankId) (u : SubId) (b : Fin 4) {f : Chan → Chan}
    (hd : ∀ ch, (f ch).due = ch.due) (hl : ∀ ch, (f ch).latch = ch.latch) (hb : ∀ ch, ∀ x ∈ ch.blocks, x ∈ (f ch).blocks)
    (hr : ∀ ch, (f ch).ranks = ch.ranks) : SparesIndex s (s.updChan c f) c r u b :=
  (courseKept_updChan s c hd hl hb).sparesIndex (by rw [updChan_at, if_pos rfl, hr]) r u b

theorem refreshCmd_eq (s : State) (c : ChanId) (code : Nat) (r : RankId) (u : SubId) (b : Fin 4) (w : By) :
    s.refreshCmd c code r u b w = (s.serviced c r w (s.refreshAct c code r u b w)).updChan c
      fun ch => { ch with rfmDue := ch.rfmDue.erase (r, u, b) } := rfl

/-- What follows the count of a REFsb or an RFMsb leaves every bank index. -/
theorem refreshCmd_after (s : State) (c : ChanId) (code : Nat) (r : RankId) (u : SubId) (b : Fin 4) (w : By) (v : SubId) :
    SparesIndex (s.refreshAct c code r u b w (s.useRank c r w)) (s.refreshCmd c code r u b w) c r v b := by
  rw [refreshCmd_eq]
  exact ((serves_serviced s c r w _).sparesIndex r v b).trans
    (sparesIndex_updChan _ c r v b (fun _ => rfl) (fun _ => rfl) (fun _ _ h => h) fun _ => rfl)

/-- A REFsb or an RFMsb to one bank index leaves that of the other subchannel. -/
theorem sparesIndex_refreshCmd (s : State) (c : ChanId) (code : Nat) (r : RankId) {u v : SubId} (h : v ≠ u) (b : Fin 4) (w : By) :
    SparesIndex s (s.refreshCmd c code r u b w) c r v b :=
  (((serves_refreshSent ..).sparesIndex ..).trans (sparesIndex_updBank _ c r h b _)).trans (refreshCmd_after ..)

theorem courseKept_refreshCmd (s : State) (c : ChanId) (code : Nat) (r : RankId) (u : SubId) (b : Fin 4) (w : By) :
    CourseKept s (s.refreshCmd c code r u b w) c :=
  ((serves_refreshSent ..).courseKept.trans (courseKept_updRank ..)).trans (refreshCmd_after s c code r u b w u).toCourseKept

/-- The credit and the need of a bank index wait for what REFSB and MITIG do with them. -/
theorem refreshCmd_index (s : State) (c : ChanId) (code : Nat) (r : RankId) (u : SubId) (b : Fin 4) (w : By) :
    ∃ n until_, (s.refreshCmd c code r u b w).bankIdx c r u b = refreshedIdx n until_ (s.bankIdx c r u b) := by
  have index := (refreshCmd_after s c code r u b w u).index
  unfold refreshAct at index
  rw [updBank_at] at index
  exact ⟨_, _, index.trans (congrArg (refreshedIdx _ _) ((serves_refreshSent s c code r u b w).bankIdx r u b))⟩

/-- A REFsb on one subchannel leaves the bank index of the other. -/
theorem sparesIndex_refresh (s : State) (c : ChanId) (r : RankId) {u v : SubId} (h : v ≠ u) (b : Fin 4) (w : By) :
    SparesIndex s (s.refresh c r u b w) c r v b :=
  ((sparesIndex_refreshCmd s c 6 r h b w).trans (sparesIndex_updBank _ c r h b _)).trans (sparesIndex_settleForced ..)

theorem courseKept_refresh (s : State) (c : ChanId) (r : RankId) (u : SubId) (b : Fin 4) (w : By) :
    CourseKept s (s.refresh c r u b w) c :=
  ((courseKept_refreshCmd ..).trans (courseKept_updRank ..)).trans (courseKept_settleForced ..)

/-- A REFsb adds one to the credit, up to 4 (R144, R158). -/
theorem refresh_credit (s : State) (c : ChanId) (r : RankId) (u : SubId) (b : Fin 4) (w : By) :
    ((s.refresh c r u b w).bankIdx c r u b).credit = min 4 ((s.bankIdx c r u b).credit + 1) := by
  unfold refresh
  obtain ⟨n, until_, index⟩ := refreshCmd_index s c 6 r u b w
  rw [(sparesIndex_settleForced ..).index, updBank_at, index]
  rfl

/-- An RFMsb on one subchannel leaves the bank index of the other. -/
theorem sparesIndex_mitigate (s : State) (c : ChanId) (r : RankId) {u v : SubId} (h : v ≠ u) (b : Fin 4) (w : By) :
    SparesIndex s (s.mitigate c r u b w) c r v b :=
  ((sparesIndex_refreshCmd s c 7 r h b w).trans (sparesIndex_updBank _ c r h b _)).trans (sparesIndex_settleForced ..)

theorem courseKept_mitigate (s : State) (c : ChanId) (r : RankId) (u : SubId) (b : Fin 4) (w : By) :
    CourseKept s (s.mitigate c r u b w) c :=
  ((courseKept_refreshCmd ..).trans (courseKept_updRank ..)).trans (courseKept_settleForced ..)

/-- An RFMsb clears the need that was pending (R145, R297). -/
theorem mitigate_need (s : State) (c : ChanId) (r : RankId) (u : SubId) (b : Fin 4) (w : By) :
    ((s.mitigate c r u b w).bankIdx c r u b).need = false := by
  unfold mitigate
  rw [(sparesIndex_settleForced ..).index, updBank_at]

end State

end Sys2Proof.Machine
end


section
/-! SUPPORT. The entries of a course in their order, and those that act (R133, R140, R144 to R147, R156, R157). -/

namespace Sys2Proof.Machine

/-! ### Steps over a list, one for each element -/

section
variable {α σ : Type} {kept : α → σ → σ → Prop} {on : σ → α → σ} (refl : ∀ x s, kept x s s)
  (trans : ∀ {x s t u}, kept x s t → kept x t u → kept x s u) (others : ∀ {x y : α} (s), y ≠ x → kept x s (on s y))
include refl trans others

/-- What the steps of all other elements keep is kept by a list of these. -/
theorem foldl_others {x : α} (l : List α) (s : σ) (h : x ∉ l) : kept x s (l.foldl on s) := by
  induction l generalizing s with
  | nil => exact refl x s
  | cons y l ih =>
    obtain ⟨first, later⟩ := List.ne_and_not_mem_of_not_mem_cons h
    exact trans (others s first.symm) (ih _ later)

/-- An element's own step begins and ends in states that only the steps of the others tell from the first and the last. -/
theorem foldl_reaches {x : α} (l : List α) (s : σ) (once : l.Nodup) (h : x ∈ l) :
    ∃ m, kept x s m ∧ kept x (on m x) (l.foldl on s) := by
  induction l generalizing s with
  | nil => cases h
  | cons y l ih =>
    obtain ⟨absent, once⟩ := List.nodup_cons.mp once
    by_cases e : y = x
    · subst e
      exact ⟨s, refl y s, foldl_others refl trans others l _ absent⟩
    · obtain ⟨m, before, after⟩ := ih (on s y) once (List.mem_of_ne_of_mem (Ne.symm e) h)
      exact ⟨m, trans (others s e) before, after⟩

end

namespace State

theorem entrySubs_nodup (e : Entry) : (entrySubs e).Nodup := (List.nodup_finRange 2).filter _

/-! ### An entry ends -/

section
variable (s : State) (c : ChanId) (i : Nat) (e : Entry)

theorem logEntry_chans (type value : Nat) : (s.logEntry type c i e value).chans = s.chans := rfl

/-- The end of a hold changes nothing where it has taken no time. -/
theorem endHold_cases (m w : Nat) :
    s.endHold c i e m w = s ∨ ∃ hold, s.endHold c i e m w = (s.holdAt c m w).logEntry 0x0202 c i e hold := by
  unfold endHold
  generalize (if m ≤ s.mckNow c then mckIn s.chans[c].mts (w - s.timeOf c m) else 0) = hold
  by_cases none : hold = 0
  · exact .inl (if_pos none)
  · exact .inr ⟨hold, if_neg none⟩

theorem endHold_frame (m w : Nat) :
    s.endHold c i e m w = { s with chans := (s.endHold c i e m w).chans, logs := (s.endHold c i e m w).logs } := by
  obtain h | ⟨hold, h⟩ := s.endHold_cases c i e m w
  · rw [h]
  · rw [h]
    rfl

/-- The end of a hold sets a channel's slot counter, and no more of a channel. -/
theorem endHold_chan (m w : Nat) (d : ChanId) :
    ∃ b f, (s.endHold c i e m w).chans[d] = { s.chans[d] with base := b, from_ := f } := by
  obtain h | ⟨hold, h⟩ := s.endHold_cases c i e m w
  · rw [h]
    exact ⟨_, _, rfl⟩
  · rw [h, logEntry_chans]
    unfold holdAt
    rw [updChan_at]
    split <;> exact ⟨_, _, rfl⟩

theorem passEntry_frame (w : Nat) :
    s.passEntry c i e w = { s with chans := (s.passEntry c i e w).chans, logs := (s.passEntry c i e w).logs } := by
  unfold passEntry
  rw [endHold_frame]
  rfl

/-- Of a channel, the end of an entry changes its slot counter, what is still due and what FETCH has read. -/
theorem passEntry_chan (w : Nat) : ∃ b f n, (s.passEntry c i e w).chans[c] =
    { s.chans[c] with base := b, from_ := f, due := s.chans[c].due.erase i, fetched := n } := by
  obtain ⟨b, f, ended⟩ := s.endHold_chan c i e (s.mckOf c (s.holdSlot c i e)) w c
  unfold passEntry
  rw [updChan_at, if_pos rfl, ended]
  exact ⟨_, _, _, rfl⟩

@[simp] theorem passEntry_raster (w : Nat) : (s.passEntry c i e w).raster = s.raster := by rw [passEntry_frame]

@[simp] theorem passEntry_out (w : Nat) : (s.passEntry c i e w).out = s.out := by rw [passEntry_frame]

theorem table_of_chan {s t : State} {d : ChanId} (hb : t.chans[d].banks = s.chans[d].banks)
    (ha : t.chans[d].active = s.chans[d].active) : t.table d = s.table d := by
  unfold table
  simp only [hb, ha]

theorem passEntry_table (w : Nat) (d : ChanId) : (s.passEntry c i e w).table d = s.table d := by
  obtain ⟨b, f, ended⟩ := s.endHold_chan c i e (s.mckOf c (s.holdSlot c i e)) w d
  unfold passEntry
  refine table_of_chan ?_ ?_ <;> rw [updChan_at, ended] <;> split <;> rfl

@[simp] theorem passEntry_grid (w : Nat) : (s.passEntry c i e w).grid = s.grid := by
  unfold grid lead
  rw [passEntry_raster, passEntry_table]

@[simp] theorem passEntry_due (w : Nat) : (s.passEntry c i e w).chans[c].due = s.chans[c].due.erase i := by
  obtain ⟨b, f, n, h⟩ := s.passEntry_chan c i e w
  rw [h]

@[simp] theorem passEntry_ranks (w : Nat) : (s.passEntry c i e w).chans[c].ranks = s.chans[c].ranks := by
  obtain ⟨b, f, n, h⟩ := s.passEntry_chan c i e w
  rw [h]

@[simp] theorem passEntry_latch (w : Nat) : (s.passEntry c i e w).chans[c].latch = s.chans[c].latch := by
  obtain ⟨b, f, n, h⟩ := s.passEntry_chan c i e w
  rw [h]

theorem wouldIssue_passEntry (w : Nat) (u : SubId) : (s.passEntry c i e w).wouldIssue c e u = s.wouldIssue c e u := by
  unfold wouldIssue
  rw [passEntry_ranks]

theorem bankIdx_passEntry (w : Nat) (r : RankId) (u : SubId) (b : Fin 4) :
    (s.passEntry c i e w).bankIdx c r u b = s.bankIdx c r u b := by
  unfold bankIdx
  rw [passEntry_ranks]

theorem rankAsleep_passEntry (w : Nat) (r : RankId) : (s.passEntry c i e w).rankAsleep c r = s.rankAsleep c r := by
  unfold rankAsleep
  rw [passEntry_ranks]

end

/-! ### An entry whose turn has come, or has not -/

section
variable {s : State} {c : ChanId} {i : Nat} {e : Entry}

theorem actEntry_none (h : s.nextEntry c i = none) (type : Nat) (act : Entry → State) : s.actEntry c i type act = s := by
  rw [actEntry, h]

theorem actEntry_other {type : Nat} (h : s.nextEntry c i = some e) (ht : e.type ≠ type) (act : Entry → State) :
    s.actEntry c i type act = s := by
  rw [actEntry, h]
  exact if_pos ht

theorem actEntry_stalled {type : Nat} (h : s.nextEntry c i = some e) (ht : e.type = type) (hs : s.stalled c i e = true)
    (act : Entry → State) : s.actEntry c i type act = s.stall c i := by
  rw [actEntry, h]
  exact (if_neg (not_not_intro ht)).trans (if_pos hs)

theorem actEntry_acts {type : Nat} (h : s.nextEntry c i = some e) (ht : e.type = type) (hs : s.stalled c i e = false)
    (act : Entry → State) : s.actEntry c i type act = act e := by
  rw [actEntry, h]
  exact (if_neg (not_not_intro ht)).trans (if_neg (ne_true_of_eq_false hs))

theorem stall_none (h : s.nextEntry c i = none) : s.stall c i = s := by
  rw [stall, h]

theorem stall_not (h : s.nextEntry c i = some e) (hs : s.stalled c i e = false) : s.stall c i = s := by
  rw [stall, h]
  exact if_pos (by rw [hs]; rfl)

theorem nextEntry_table (h : s.nextEntry c i = some e) : (s.table c).table[i]? = some e := by
  unfold nextEntry at h
  split at h
  · exact (Option.filter_eq_some_iff.mp h).1
  · cases h

/-- A ZQCAL entry that has not started acts like the other entries. -/
theorem zqcalEntry_starts (h : s.chans[c].latch.contains i = false) :
    s.zqcalEntry c i = s.actEntry c i 6 fun e => (s.passEntry c i e s.time).zqStart c i e := by
  unfold zqcalEntry
  split
  · next none =>
    refine (actEntry_none ?_ ..).symm
    cases hn : s.nextEntry c i with
    | none => rfl
    | some e => rw [nextEntry_table hn] at none; cases none
  · rw [h]
    rfl

/-- A ZQCAL entry that has started latches. -/
theorem zqcalEntry_latches (ht : (s.table c).table[i]? = some e) (h : s.chans[c].latch.contains i = true) :
    s.zqcalEntry c i = s.zqLatch c i e := by
  unfold zqcalEntry
  rw [ht]
  exact if_pos h

end

end State

end Sys2Proof.Machine
end

section
/-! SUPPORT. The entries of a course that have held its slot counter for STALL_LIMIT, and those that act (R140, R144 to R147, R157). -/

namespace Sys2Proof.Machine

namespace State

/-! ### STALL_LIMIT -/

/-- Channels, raster memory and commands: what else an abandoned entry does leaves them as its end does. -/
def stallView (s : State) : Vector Chan 2 × Raster × List Cmd := (s.chans, s.raster, s.cmds)

theorem stallView_logEntry (s : State) (type : Nat) (c : ChanId) (i : Nat) (e : Entry) (value : Nat) :
    (s.logEntry type c i e value).stallView = s.stallView := rfl

theorem stallView_raiseChan (s : State) (c : ChanId) : (s.raiseChan c).stallView = s.stallView := by
  have only : s.RaisedOnly (s.raiseChan c) := raisedOnly_raise ..
  rw [only.1]
  rfl

theorem stallView_updFetch (s : State) (n : LinkId) (f : Fetch → Fetch) : (s.updFetch n f).stallView = s.stallView := rfl

theorem stallView_loseBursts (s : State) (n : LinkId) (l : List Used) :
    (l.foldl (fun acc u => acc.loseBurst n u) s).stallView = s.stallView :=
  foldl_same stallView _ (fun t _ => stallView_updFetch t n _) l s

section
variable {s : State} {c : ChanId} {i : Nat} {e : Entry}

/-- The time at which the hold of an entry reaches STALL_LIMIT. -/
def stallEnd (s : State) (c : ChanId) (i : Nat) (e : Entry) : Nat :=
  s.timeOf c (s.mckOf c (s.holdSlot c i e)) + 200 * Config.usTau

/-- An abandoned entry ends at STALL_LIMIT, and what else it does changes neither channels, raster memory nor commands. -/
theorem stall_kept (h : s.nextEntry c i = some e) (hs : s.stalled c i e = true) :
    (s.stall c i).stallView = (s.passEntry c i e (s.stallEnd c i e)).stallView := by
  rw [stall, h]
  dsimp only
  rw [if_neg (by rw [hs]; decide), ← stallEnd]
  generalize s.passEntry c i e (s.stallEnd c i e) = t
  split
  · rw [stallView_updFetch, stallView_loseBursts, stallView_raiseChan, stallView_logEntry]
  · rw [stallView_raiseChan, stallView_logEntry]

theorem passEntry_from {w : Nat} (reached : s.mckOf c (s.holdSlot c i e) ≤ s.mckNow c)
    (long : mckIn s.chans[c].mts (w - s.timeOf c (s.mckOf c (s.holdSlot c i e))) ≠ 0) :
    (s.passEntry c i e w).chans[c].base = s.mckOf c (s.holdSlot c i e) ∧ w ≤ (s.passEntry c i e w).chans[c].from_ := by
  unfold passEntry endHold
  dsimp only
  rw [if_pos reached, if_neg long, updChan_at, if_pos rfl, logEntry_chans]
  unfold holdAt
  rw [updChan_at, if_pos rfl]
  exact ⟨rfl, (Nat.le_max_left ..).trans (Nat.le_max_right ..)⟩

/-- An abandoned entry ends, its slot counter goes on from STALL_LIMIT, and it changes neither raster memory nor commands. -/
theorem stall_ends (h : s.nextEntry c i = some e) (hs : s.stalled c i e = true) :
    (s.stall c i).chans[c].due = s.chans[c].due.erase i ∧
      (mckIn s.chans[c].mts 32000000 ≠ 0 → (s.stall c i).chans[c].base = s.mckOf c (s.holdSlot c i e) ∧
        s.timeOf c (s.mckOf c (s.holdSlot c i e)) + 32000000 ≤ (s.stall c i).chans[c].from_) ∧
      (s.stall c i).raster = s.raster ∧ (s.stall c i).cmds = s.cmds := by
  obtain ⟨hchans, hrest⟩ := Prod.mk.inj (stall_kept h hs)
  obtain ⟨hraster, hcmds⟩ := Prod.mk.inj hrest
  rw [hchans, hraster, hcmds]
  refine ⟨passEntry_due .., fun long => ?_, passEntry_raster .., by rw [passEntry_frame]⟩
  have reached : s.mckOf c (s.holdSlot c i e) ≤ s.mckNow c := of_decide_eq_true (Bool.and_eq_true_iff.mp hs).1
  exact passEntry_from reached (by rw [stallEnd, Nat.add_sub_cancel_left]; exact long)

end

end State

/-! ### Entries in their order -/

/-- Each row for an entry acts by the entry that it is for. -/
theorem entryRows_act (s : State) (c : ChanId) (i : Nat) (r : TemperResult) :
    ∀ x ∈ [(1, Instr.fetchEntry c i), (2, .refsb c i), (3, .mitig c i), (4, .temperPause c i r)],
      ∃ act, exec x.2 s = .next (s.actEntry c i x.1 act) := by
  intro x hx
  obtain rfl | rfl | rfl | rfl : x = _ ∨ x = _ ∨ x = _ ∨ x = _ := by simpa using hx
  · exact ⟨_, rfl⟩
  · exact ⟨_, rfl⟩
  · exact ⟨_, rfl⟩
  · exact ⟨_, rfl⟩

theorem zqcalRow_acts {s : State} {c : ChanId} {i : Nat} (h : s.chans[c].latch.contains i = false) :
    ∃ act, exec (.zqcal c i) s = .next (s.actEntry c i 6 act) :=
  ⟨_, congrArg _ (State.zqcalEntry_starts h)⟩

theorem allRows_act {s : State} {c : ChanId} {i : Nat} {rows : List (Nat × Instr)}
    (h : ∀ x ∈ rows, ∃ act, exec x.2 s = .next (s.actEntry c i x.1 act)) :
    ∀ x ∈ if s.chans[c].latch.contains i then rows else rows ++ [(6, .zqcal c i)],
      ∃ act, exec x.2 s = .next (s.actEntry c i x.1 act) := by
  split
  · exact h
  · next fresh =>
    intro x hx
    obtain hx | rfl := (List.mem_append.trans (or_congr_right List.mem_singleton)).mp hx
    · exact h x hx
    · exact zqcalRow_acts (eq_false_of_ne_true fresh)

theorem entriesActInOrder : Clause.EntriesActInOrder := by
  intro s c i r
  have stallRow : exec (.stallLimit c i) s = .next (s.stall c i) := rfl
  have rowsAct := entryRows_act s c i r
  refine ⟨fun none => ⟨by rw [stallRow, State.stall_none none], fun x hx => ?_, fun fresh => ?_⟩, fun e turn => ?_⟩
  · obtain ⟨act, hact⟩ := rowsAct x hx
    rw [hact, State.actEntry_none none]
  · obtain ⟨act, hact⟩ := zqcalRow_acts fresh
    rw [hact, State.actEntry_none none]
  · have allAct := allRows_act rowsAct
    refine ⟨fun x hx other => ?_, fun late x hx same => ?_, fun early => ?_, fun late => ?_⟩
    · obtain ⟨act, hact⟩ := allAct x hx
      rw [hact, State.actEntry_other turn other]
    · obtain ⟨act, hact⟩ := allAct x hx
      rw [hact, stallRow, State.actEntry_stalled turn same late]
    · rw [stallRow, State.stall_not turn early]
    · exact ⟨_, stallRow, State.stall_ends turn late⟩

end Sys2Proof.Machine
end

section
/-! SUPPORT. REFSB and MITIG, ZQCAL and TEMPER entries (R144 to R147, R291, R295). -/

namespace Sys2Proof.Machine

namespace State

/-! ### REFSB and MITIG entries -/

/-- On each subchannel an entry issues its command and blocks there, or leaves its bank index; the course and the bank index of any
other subchannel stay. -/
structure ActsOnSubs (c : ChanId) (i code : Nat) (e : Entry) (on : State → SubId → State) (acted : BankIdx → BankIdx → Prop) :
    Prop where
  kept : ∀ s u, CourseKept s (on s u) c
  others : ∀ {u v : SubId} (s), u ≠ v → SparesIndex s (on s u) c e.rankId v e.bank
  issues : ∀ s u, s.wouldIssue c e u = true → s.Sent (on s u) (.dramCmd c code e.rankId u e.bank.val) ∧
    (i, u) ∈ (on s u).chans[c].blocks ∧ acted (s.bankIdx c e.rankId u e.bank) ((on s u).bankIdx c e.rankId u e.bank)
  skips : ∀ s u, s.wouldIssue c e u = false → (on s u).bankIdx c e.rankId u e.bank = s.bankIdx c e.rankId u e.bank

section
variable {c : ChanId} {i code : Nat} {e : Entry} {on : State → SubId → State} {acted : BankIdx → BankIdx → Prop}

/-- An entry has acted on one of its subchannels as it would have on that alone. -/
theorem ActsOnSubs.atSub (a : ActsOnSubs c i code e on acted) (s : State) {l : List SubId} (once : l.Nodup) {u : SubId}
    (hu : u ∈ l) :
    (s.wouldIssue c e u = true → s.Sent (l.foldl on s) (.dramCmd c code e.rankId u e.bank.val) ∧
      (i, u) ∈ (l.foldl on s).chans[c].blocks ∧
      acted (s.bankIdx c e.rankId u e.bank) ((l.foldl on s).bankIdx c e.rankId u e.bank)) ∧
    (s.wouldIssue c e u = false → (l.foldl on s).bankIdx c e.rankId u e.bank = s.bankIdx c e.rankId u e.bank) := by
  obtain ⟨m, before, after⟩ := foldl_reaches (kept := fun v s t => SparesIndex s t c e.rankId v e.bank)
    (fun v s => .refl s c e.rankId v e.bank) SparesIndex.trans (fun s h => a.others s h) l s once hu
  rw [after.index, ← before.wouldIssue, ← before.index]
  refine ⟨fun would => ?_, a.skips m u⟩
  obtain ⟨sent, blocked, acts⟩ := a.issues m u would
  exact ⟨Sent.between before.grows sent after.grows, after.blocks _ blocked, acts⟩

/-- What a REFSB or a MITIG entry has done that nothing has held. -/
theorem ActsOnSubs.passed (a : ActsOnSubs c i code e on acted) (s : State) :
    let t := (entrySubs e).foldl on (s.passEntry c i e s.time)
    t.raster = s.raster ∧ t.chans[c].due = s.chans[c].due.erase i ∧ ∀ u ∈ entrySubs e,
      (s.wouldIssue c e u = true → s.Sent t (.dramCmd c code e.rankId u e.bank.val) ∧ (i, u) ∈ t.chans[c].blocks ∧
        acted (s.bankIdx c e.rankId u e.bank) (t.bankIdx c e.rankId u e.bank)) ∧
      (s.wouldIssue c e u = false → t.bankIdx c e.rankId u e.bank = s.bankIdx c e.rankId u e.bank) := by
  have kept := CourseKept.foldl a.kept (entrySubs e) (s.passEntry c i e s.time)
  refine ⟨kept.raster.trans (passEntry_raster ..), kept.due.trans (passEntry_due ..), fun u hu => ?_⟩
  have acts := a.atSub (s.passEntry c i e s.time) (entrySubs_nodup e) hu
  rw [wouldIssue_passEntry, bankIdx_passEntry] at acts
  refine ⟨fun would => ?_, acts.2⟩
  obtain ⟨sent, rest⟩ := acts.1 would
  exact ⟨Sent.between (.of_out (passEntry_out ..)) sent (.refl _), rest⟩

theorem bankEntry_held {s : State} {type : Nat} {on : Entry → State → SubId → State} (turn : s.nextEntry c i = some e)
    (early : s.stalled c i e = false) (same : e.type = type)
    (held : ∃ u ∈ entrySubs e, s.wouldIssue c e u = true ∧ s.indexHeld c e.rankId u e.bank = true) :
    s.bankEntry c i type on = s := by
  unfold bankEntry
  rw [actEntry_acts turn same early, if_pos]
  exact List.any_eq_true.mpr (held.imp fun u h => ⟨h.1, Bool.and_eq_true_iff.mpr h.2⟩)

theorem bankEntry_acts {s : State} {type : Nat} {on : Entry → State → SubId → State} (turn : s.nextEntry c i = some e)
    (early : s.stalled c i e = false) (same : e.type = type)
    (free : ¬∃ u ∈ entrySubs e, s.wouldIssue c e u = true ∧ s.indexHeld c e.rankId u e.bank = true) :
    s.bankEntry c i type on = (entrySubs e).foldl (on e) (s.passEntry c i e s.time) := by
  unfold bankEntry
  rw [actEntry_acts turn same early, if_neg]
  exact fun any => free ((List.any_eq_true.mp any).imp fun u h => ⟨h.1, Bool.and_eq_true_iff.mp h.2⟩)

end

section
variable (s : State) (c : ChanId) (i : Nat) (e : Entry) (u : SubId)

theorem block_bankIdx (r : RankId) (v : SubId) (b : Fin 4) : (s.block c i u).bankIdx c r v b = s.bankIdx c r v b :=
  ((courseKept_block s c i u).sparesIndex (block_ranks ..) r v b).index

theorem refsbOn_issues (h : s.wouldIssue c e u = true) :
    refsbOn c i e s u = (s.refresh c e.rankId u e.bank (By.slot 2 i)).block c i u := by
  have fitted : ¬s.chans[c].ranks[e.rankId].st = .retired := by
    intro gone
    unfold wouldIssue at h
    dsimp only at h
    rw [gone] at h
    cases h
  unfold refsbOn
  dsimp only
  rw [if_neg fitted, h]
  rfl

/-- A REFSB entry that skips a subchannel writes at most a log entry (R159). -/
theorem refsbOn_skips (h : s.wouldIssue c e u = false) :
    CourseKept s (refsbOn c i e s u) c ∧ (refsbOn c i e s u).chans = s.chans := by
  unfold refsbOn
  dsimp only
  split
  · exact ⟨.refl s c, rfl⟩
  · rw [h]
    exact ⟨courseKept_logCourse .., logCourse_chans ..⟩

end

/-- REFSB adds one to the credit of the bank indexes that it refreshes (R144, R158). -/
theorem refsb_actsOnSubs (c : ChanId) (i : Nat) (e : Entry) (htype : e.type = 2) :
    ActsOnSubs c i 6 e (refsbOn c i e) fun k l => l.credit = k.credit + 1 where
  kept s u := by
    cases h : s.wouldIssue c e u with
    | true =>
      rw [refsbOn_issues s c i e u h]
      exact (courseKept_refresh ..).trans (courseKept_block ..)
    | false => exact (refsbOn_skips s c i e u h).1
  others {u v} s hv := by
    cases h : s.wouldIssue c e u with
    | true =>
      rw [refsbOn_issues s c i e u h]
      exact (sparesIndex_refresh s c e.rankId hv.symm e.bank _).trans
        ((courseKept_block ..).sparesIndex (block_ranks ..) ..)
    | false =>
      obtain ⟨kept, chans⟩ := refsbOn_skips s c i e u h
      exact kept.sparesIndex (by rw [chans]) ..
  issues s u h := by
    have low : (s.bankIdx c e.rankId u e.bank).credit < 4 := by
      have room := (Bool.and_eq_true_iff.mp h).2
      rw [if_pos htype] at room
      exact of_decide_eq_true room
    rw [refsbOn_issues s c i e u h]
    refine ⟨(courseKept_block ..).sent (refresh_sent ..), mem_block .., ?_⟩
    rw [block_bankIdx, refresh_credit, min_eq_right (by omega)]
  skips s u h := by
    unfold bankIdx
    rw [(refsbOn_skips s c i e u h).2]

/-- MITIG clears the needs that are pending (R145). -/
theorem mitig_actsOnSubs (c : ChanId) (i : Nat) (e : Entry) :
    ActsOnSubs c i 7 e (mitigOn c i e) fun _ l => l.need = false where
  kept s u := .ite ((courseKept_mitigate ..).trans (courseKept_block ..)) (.refl s c)
  others {u v} s hv := by
    unfold mitigOn
    split
    · exact (sparesIndex_mitigate s c e.rankId hv.symm e.bank _).trans ((courseKept_block ..).sparesIndex (block_ranks ..) ..)
    · exact .refl ..
  issues s u h := by
    rw [mitigOn, if_pos h]
    refine ⟨(courseKept_block ..).sent (mitigate_sent ..), mem_block .., ?_⟩
    rw [block_bankIdx, mitigate_need]
  skips s u h := by rw [mitigOn, h]; rfl

end State

end Sys2Proof.Machine
end

section
/-! SUPPORT. ZQCAL and TEMPER entries (R146, R147, R291, R293 to R296, R301). -/

namespace Sys2Proof.Machine

namespace State

/-! ### ZQCal Start -/

section
variable (s : State) (c : ChanId) (r : RankId) (w : By)

theorem serves_ofServiced {act : State → State} (h : ∀ t, Serves t (act t) c) : Serves s (s.serviced c r w act) c :=
  ((serves_useRank s c r w).trans (h _)).trans (serves_serviced ..)

/-- ZQCal Start goes out on the subchannels of an entry. -/
def zqStarted (i : Nat) (e : Entry) : State :=
  s.serviced c e.rankId (By.slot 2 i) fun t =>
    (entrySubs e).foldl (fun acc u => acc.issue c 10 e.rankId u 0 0 (By.slot 2 i)) t

theorem serves_zqStarted (i : Nat) (e : Entry) : Serves s (s.zqStarted c i e) c :=
  serves_ofServiced s c e.rankId _ fun t => serves_foldl (fun _ _ => serves_issue ..) _ t

theorem issues_sent (code : Nat) {l : List SubId} (once : l.Nodup) {u : SubId} (hu : u ∈ l) :
    s.Sent (l.foldl (fun acc v => acc.issue c code r v 0 0 w) s) (.dramCmd c code r u 0) := by
  obtain ⟨m, before, after⟩ := foldl_reaches (kept := fun _ s t => Grows s t) (fun _ s => .refl s) Grows.trans
    (on := fun acc v => acc.issue c code r v 0 0 w) (fun t _ => issue_grows ..) l s once hu
  exact Sent.between before (issue_sent ..) after

end

section
variable {s : State} {c : ChanId} (i : Nat) {e : Entry}

theorem zqStart_asleep (h : s.rankAsleep c e.rankId = true) : s.zqStart c i e = s := if_pos h

theorem zqStart_awake (h : s.rankAsleep c e.rankId = false) : s.zqStart c i e =
    ((s.zqStarted c i e).updRank c e.rankId fun k => { k with zqReady := s.time + s.guardTau c 1000000 }).updChan c fun ch =>
      { ch with latch := if e.blockFrom < s.grid then ch.latch ++ [i] else ch.latch } := by
  unfold zqStart zqStarted
  dsimp only
  rw [if_neg (ne_true_of_eq_false h)]

/-- ZQCal Start leaves raster memory and what is due. -/
theorem zqStart_kept : (s.zqStart c i e).raster = s.raster ∧ (s.zqStart c i e).chans[c].due = s.chans[c].due := by
  cases h : s.rankAsleep c e.rankId with
  | true => rw [zqStart_asleep i h]; exact ⟨rfl, rfl⟩
  | false =>
    have kept := (serves_zqStarted s c i e).courseKept
    have zq := courseKept_updRank (s.zqStarted c i e) c e.rankId fun k => { k with zqReady := s.time + s.guardTau c 1000000 }
    rw [zqStart_awake i h, updChan_at, if_pos rfl]
    exact ⟨(updChan_raster ..).trans (zq.raster.trans kept.raster), zq.due.trans kept.due⟩

theorem zqStart_sent (h : s.rankAsleep c e.rankId = false) {u : SubId} (hu : u ∈ entrySubs e) :
    s.Sent (s.zqStart c i e) (.dramCmd c 10 e.rankId u 0) := by
  have sent : s.Sent (s.zqStarted c i e) (.dramCmd c 10 e.rankId u 0) :=
    serviced_sent fun t => issues_sent t c e.rankId _ 10 (entrySubs_nodup e) hu
  rw [zqStart_awake i h]
  exact Sent.between (.refl s) sent ((updChan_grows ..).trans (updChan_grows ..))

/-- Latch is to follow ZQCal Start unless it lies beyond the end of the course (R133). -/
theorem zqStart_latch (h : s.rankAsleep c e.rankId = false) (fresh : s.chans[c].latch.contains i = false) :
    (s.zqStart c i e).chans[c].latch.contains i = true ↔ e.blockFrom < s.grid := by
  have kept := (serves_zqStarted s c i e).courseKept.trans
    (courseKept_updRank _ c e.rankId fun k => { k with zqReady := s.time + s.guardTau c 1000000 })
  rw [zqStart_awake i h, updChan_at, if_pos rfl, kept.latch]
  dsimp only
  split
  · next inside => simp [inside]
  · next beyond => simp only [fresh, beyond, Bool.false_eq_true]

end

/-! ### ZQCal Latch -/

section
variable (s : State) (c : ChanId) (r : RankId) (u : SubId) (w : By)

theorem issue_rows (code : Nat) (g b : Nat) : (s.issue c code r u g b w).chans[c].rows = s.chans[c].rows := by
  unfold issue traceCmd
  rw [emit_chans, updChan_at, if_pos rfl]

theorem updRank_rows (f : Rank → Rank) : (s.updRank c r f).chans[c].rows = s.chans[c].rows := by
  unfold updRank
  rw [updChan_at, if_pos rfl]

theorem serviced_rows (act : State → State) :
    (s.serviced c r w act).chans[c].rows = (act (s.useRank c r w)).chans[c].rows := by
  unfold serviced
  dsimp only
  split
  · unfold issueBoth
    rw [updRank_rows, issue_rows, issue_rows]
  · rfl

theorem closeRank_rows (x : Row) : x ∈ (s.closeRank c r u w).chans[c].rows →
    x ∈ s.chans[c].rows ∧ ¬(x.rank = r ∧ x.sub = u) := by
  unfold closeRank
  dsimp only
  rw [updChan_at, if_pos rfl, List.mem_filter]
  rintro ⟨hx, other⟩
  refine ⟨?_, by simpa [imp_iff_not_or] using other⟩
  split at hx
  · rwa [issue_rows] at hx
  · exact hx

/-- ZQCal Latch on one subchannel: its rows are closed, and the entry blocks it. -/
def latchOn (c : ChanId) (i : Nat) (r : RankId) (w : By) (s : State) (u : SubId) : State :=
  ((s.closeRank c r u w).issue c 11 r u 0 0 w).block c i u

theorem latchOn_kept (i : Nat) : CourseKept s (latchOn c i r w s u) c :=
  ((serves_closeRank ..).trans (serves_issue ..)).courseKept.trans (courseKept_block ..)

theorem latchOn_rows (i : Nat) {x : Row} (h : x ∈ (latchOn c i r w s u).chans[c].rows) :
    x ∈ s.chans[c].rows ∧ ¬(x.rank = r ∧ x.sub = u) := by
  unfold latchOn block at h
  rw [updChan_at, if_pos rfl] at h
  dsimp only at h
  rw [issue_rows] at h
  exact closeRank_rows s c r u w x h

theorem latchOn_sent (i : Nat) : s.Sent (latchOn c i r w s u) (.dramCmd c 11 r u 0) :=
  Sent.between (serves_closeRank ..).grows (issue_sent ..) (courseKept_block ..).grows

/-- On each of the subchannels Latch has gone out, blocks, and has closed the rows of the rank. -/
theorem latchOns_atSub (i : Nat) {l : List SubId} (once : l.Nodup) (hu : u ∈ l) :
    let t := l.foldl (latchOn c i r w) s
    s.Sent t (.dramCmd c 11 r u 0) ∧ (i, u) ∈ t.chans[c].blocks ∧ ∀ x ∈ t.chans[c].rows, ¬(x.rank = r ∧ x.sub = u) := by
  obtain ⟨m, before, after, fewer⟩ := foldl_reaches (on := latchOn c i r w)
    (kept := fun _ s t => CourseKept s t c ∧ t.chans[c].rows ⊆ s.chans[c].rows)
    (fun _ s => ⟨.refl s c, fun _ h => h⟩) (fun a b => ⟨a.1.trans b.1, fun _ h => a.2 (b.2 h)⟩)
    (fun t _ => ⟨latchOn_kept .., fun _ h => (latchOn_rows t c r _ w i h).1⟩) l s once hu
  exact ⟨Sent.between before.1.grows (latchOn_sent ..) after.grows, after.blocks _ (mem_block ..),
    fun x hx => (latchOn_rows m c r u w i (fewer hx)).2⟩

end

section
variable {s : State} {c : ChanId} (i : Nat) {e : Entry}

/-- A Latch that goes out ends the hold of the counter for it, and is due no more. -/
def latchPassed (s : State) (c : ChanId) (i : Nat) (e : Entry) : State :=
  (s.endHold c i e (s.mckOf c e.blockFrom) s.time).updChan c fun ch => { ch with latch := ch.latch.erase i }

/-- ZQCal Latch goes out on the subchannels of an entry. -/
def latched (s : State) (c : ChanId) (i : Nat) (e : Entry) : State :=
  s.serviced c e.rankId (By.slot 2 i) fun t => (entrySubs e).foldl (latchOn c i e.rankId (By.slot 2 i)) t

/-- The time of a Latch: the channel serves, and the counter and tZQCAL have come to it (R146, R149). -/
def latchReady (s : State) (c : ChanId) (e : Entry) : Prop :=
  s.chanServes c = true ∧ s.storming c = false ∧ s.mckOf c e.blockFrom ≤ s.mckNow c ∧
    s.chans[c].ranks[e.rankId].zqReady ≤ s.time

theorem latchReady_iff : s.latchReady c e ↔ (!s.chanServes c || s.storming c || s.mckNow c < s.mckOf c e.blockFrom ||
    s.time < s.chans[c].ranks[e.rankId].zqReady) = false := by
  simp [latchReady, and_assoc]

theorem zqLatch_waits (h : ¬s.latchReady c e) : s.zqLatch c i e = s :=
  if_pos (eq_true_of_ne_false (mt latchReady_iff.mpr h))

theorem zqLatch_goes (h : s.latchReady c e) : s.zqLatch c i e =
    if s.rankAsleep c e.rankId then s.latchPassed c i e
    else ((s.latchPassed c i e).latched c i e).updRank c e.rankId fun k => { k with zqTo := s.time + s.guardTau c 30000 } := by
  unfold zqLatch latched latchOn latchPassed
  dsimp only
  rw [if_neg (ne_true_of_eq_false (latchReady_iff.mp h))]

theorem latchPassed_raster : (s.latchPassed c i e).raster = s.raster := by
  unfold latchPassed
  rw [updChan_raster, endHold_frame]

theorem latchPassed_out : (s.latchPassed c i e).out = s.out := by
  unfold latchPassed
  rw [updChan_out, endHold_frame]

theorem latchPassed_chan : ∃ b f, (s.latchPassed c i e).chans[c] =
    { s.chans[c] with base := b, from_ := f, latch := s.chans[c].latch.erase i } := by
  obtain ⟨b, f, h⟩ := s.endHold_chan c i e (s.mckOf c e.blockFrom) s.time c
  unfold latchPassed
  rw [updChan_at, if_pos rfl, h]
  exact ⟨_, _, rfl⟩

theorem latched_kept : CourseKept s (s.latched c i e) c := by
  have woken := (serves_useRank s c e.rankId (By.slot 2 i)).courseKept
  refine (woken.trans ?_).trans (serves_serviced s c e.rankId (By.slot 2 i) _).courseKept
  exact CourseKept.foldl (fun t u => latchOn_kept t c e.rankId u _ i) ..

theorem latched_atSub {u : SubId} (hu : u ∈ entrySubs e) :
    let t := s.latched c i e
    s.Sent t (.dramCmd c 11 e.rankId u 0) ∧ (i, u) ∈ t.chans[c].blocks ∧
      ∀ x ∈ t.chans[c].rows, ¬(x.rank = e.rankId ∧ x.sub = u) := by
  obtain ⟨sent, blocked, closed⟩ := latchOns_atSub (s.useRank c e.rankId (By.slot 2 i)) c e.rankId u (By.slot 2 i) i
    (entrySubs_nodup e) hu
  have after := (serves_serviced s c e.rankId (By.slot 2 i)
    fun t => (entrySubs e).foldl (latchOn c i e.rankId (By.slot 2 i)) t).courseKept
  refine ⟨Sent.between (serves_useRank ..).grows sent after.grows, after.blocks _ blocked, fun x hx => closed x ?_⟩
  unfold latched at hx
  rwa [serviced_rows] at hx

/-- What a Latch that goes out has done. -/
theorem zqLatch_latches (h : s.latchReady c e) :
    let t := s.zqLatch c i e
    t.chans[c].latch = s.chans[c].latch.erase i ∧ t.raster = s.raster ∧
      (s.rankAsleep c e.rankId = false → ∀ u ∈ entrySubs e, s.Sent t (.dramCmd c 11 e.rankId u 0) ∧
        (i, u) ∈ t.chans[c].blocks ∧ ∀ x ∈ t.chans[c].rows, ¬(x.rank = e.rankId ∧ x.sub = u)) := by
  obtain ⟨b, f, chan⟩ := latchPassed_chan (s := s) (c := c) i (e := e)
  dsimp only
  rw [zqLatch_goes i h]
  cases hs : s.rankAsleep c e.rankId with
  | true =>
    exact ⟨by rw [if_pos rfl, chan], latchPassed_raster i, fun no => absurd no (by decide)⟩
  | false =>
    rw [if_neg (by decide)]
    have zq := courseKept_updRank ((s.latchPassed c i e).latched c i e) c e.rankId
      fun k => { k with zqTo := s.time + s.guardTau c 30000 }
    have kept := latched_kept (s := s.latchPassed c i e) (c := c) i (e := e)
    refine ⟨by rw [zq.latch, kept.latch, chan], by rw [zq.raster, kept.raster, latchPassed_raster], fun _ u hu => ?_⟩
    obtain ⟨sent, blocked, closed⟩ := latched_atSub (s := s.latchPassed c i e) (c := c) i hu
    refine ⟨Sent.between (.of_out (latchPassed_out i)) sent zq.grows, zq.blocks _ blocked, fun x hx => closed x ?_⟩
    rwa [updRank_rows] at hx

end

end State

end Sys2Proof.Machine
end

section
/-! SUPPORT. The steps of TEMPER entries (R147, R293, R294, R296, R301). -/

namespace Sys2Proof.Machine

namespace State

section
variable (s : State) (c : ChanId) (r : RankId) (x : TemperResult) (w : By)

/-! ### A temperature, and a mode register that reads back otherwise -/

/-- A rank's own record of the temperature that it reports. -/
def heated (temp : Nat) (k : Rank) : Rank :=
  { k with temp := temp, cool := if temp ≤ 80 then min 4 (k.cool + 1) else 0, over95 := decide (95 < temp)
           sawHot := k.sawHot || decide (85 < temp) }

theorem noteTemp_chans (temp : Nat) : (s.noteTemp c r temp).chans = (s.updRank c r (heated temp)).chans := by
  unfold noteTemp
  dsimp only
  split
  · exact (raised_raise ..).sessionOnly.chans
  · rfl

theorem noteTemp_temp (temp : Nat) : (s.noteTemp c r temp).chans[c].ranks[r].temp = temp := by
  rw [noteTemp_chans, updRank_at]
  rfl

theorem courseKept_noteTemp (temp : Nat) : CourseKept s (s.noteTemp c r temp) c := by
  have noted := courseKept_updRank s c r (heated temp)
  unfold noteTemp
  exact .ite ((noted.trans (courseKept_logDram ..)).trans (courseKept_raise ..)) noted

/-- A mode register is written again and counted. -/
def rewrittenMode (s : State) (c : ChanId) (r : RankId) (reg : Byte) (w : By) : State :=
  (((s.issueBoth c 8 r w).updRank c r fun k => { k with lastMismatch := some s.time }).updChan c fun ch =>
    { ch with mismatches := satAdd 0xFF ch.mismatches 1 }).logDram 0x0B04 c 0xFF r.val 0 0 reg.toNat

theorem noteMismatch_cases (reg : Byte) : s.noteMismatch c r reg w = (s.rewrittenMode c r reg w).raiseChan c ∨
    s.noteMismatch c r reg w = s.rewrittenMode c r reg w := by
  unfold noteMismatch rewrittenMode
  dsimp only
  split
  · exact .inl rfl
  · exact .inr rfl

theorem courseKept_noteMismatch (reg : Byte) : CourseKept s (s.noteMismatch c r reg w) c := by
  have rewritten : CourseKept s (s.rewrittenMode c r reg w) c := by
    refine CourseKept.trans ?_ (courseKept_logDram ..)
    refine CourseKept.trans ?_ (courseKept_updChan _ c (fun _ => rfl) (fun _ => rfl) fun _ _ h => h)
    exact (serves_issueBoth ..).courseKept.trans (courseKept_updRank ..)
  obtain h | h := s.noteMismatch_cases c r w reg
  · rw [h]
    exact rewritten.trans (courseKept_raise ..)
  · rw [h]
    exact rewritten

theorem rewrittenMode_temp (reg : Byte) :
    (s.rewrittenMode c r reg w).chans[c].ranks[r].temp = s.chans[c].ranks[r].temp := by
  unfold rewrittenMode
  rw [logDram_chans, updChan_at, if_pos rfl]
  dsimp only
  rw [updRank_at]
  unfold issueBoth
  rw [issue_ranks, issue_ranks]

theorem noteMismatch_temp (reg : Byte) : (s.noteMismatch c r reg w).chans[c].ranks[r].temp = s.chans[c].ranks[r].temp := by
  obtain h | h := s.noteMismatch_cases c r w reg
  · rw [h, raiseChan_chans, rewrittenMode_temp]
  · rw [h, rewrittenMode_temp]

/-! ### An OSC step -/

theorem courseKept_oscOn (u : SubId) : CourseKept s (oscOn c r x w s u) c :=
  (serves_issue ..).courseKept.trans (courseKept_updRank ..)

theorem courseKept_oscStep (us : List SubId) : CourseKept s (s.oscStep c r us x w) c := by
  have measured := ((CourseKept.foldl (fun t u => courseKept_oscOn t c r x w u) us s).trans
    (courseKept_noteTemp _ c r x.temp)).trans (courseKept_updRank _ c r fun k => { k with mrTurn := k.mrTurn + 1 })
  unfold oscStep
  exact .ite (measured.trans (courseKept_noteMismatch ..)) measured

/-- After an OSC step the rank has the temperature that it has reported (R296). -/
theorem oscStep_temp (us : List SubId) : (s.oscStep c r us x w).chans[c].ranks[r].temp = x.temp := by
  have noted (t : State) : ((t.noteTemp c r x.temp).updRank c r fun k => { k with mrTurn := k.mrTurn + 1 }).chans[c].ranks[r].temp =
      x.temp := by rw [updRank_at, noteTemp_temp]
  unfold oscStep
  dsimp only
  split
  · rw [noteMismatch_temp, noted]
  · rw [noted]

/-! ### READ and WRITE steps -/

/-- What a READ or a WRITE step makes of a rank, by what it measures on a subchannel (R293, R294). -/
def centred (kind : Nat) (x : TemperResult) (u : SubId) (k : Rank) : Rank :=
  let m := onSub x u
  if m.eye = 0 then { k with st := .degraded }
  else { k with centring := vmod k.centring u fun y =>
    if kind = 1 then { y with read := y.read + m.moved } else { y with write := y.write + m.moved } }

/-- A READ or a WRITE step on a subchannel moves the centre there, and writes at most a log entry besides. -/
theorem centreOn_cases (kind : Nat) (u : SubId) : ∃ v, centreOn c r kind x s u = s.updRank c r (centred kind x u) ∨
    centreOn c r kind x s u = ((s.updRank c r (centred kind x u)).logDram 0x0B08 c u.val r.val 0 0 v).raiseChan c := by
  have moved : (if (onSub x u).eye = 0 then s.updRank c r fun k => { k with st := .degraded }
      else s.updCentring c r u fun k => if kind = 1 then { k with read := k.read + (onSub x u).moved }
        else { k with write := k.write + (onSub x u).moved }) = s.updRank c r (centred kind x u) := by
    unfold centred updCentring
    dsimp only
    split <;> rfl
  unfold centreOn
  dsimp only
  rw [moved]
  split
  · exact ⟨_, .inr rfl⟩
  · exact ⟨0, .inl rfl⟩

theorem courseKept_centreOn (kind : Nat) (u : SubId) : CourseKept s (centreOn c r kind x s u) c := by
  have moved := courseKept_updRank s c r (centred kind x u)
  obtain ⟨v, h | h⟩ := s.centreOn_cases c r x kind u
  · rw [h]
    exact moved
  · rw [h]
    exact (moved.trans (courseKept_logDram ..)).trans (courseKept_raise ..)

theorem centreOn_rank (kind : Nat) (u : SubId) :
    (centreOn c r kind x s u).chans[c].ranks[r] = centred kind x u s.chans[c].ranks[r] := by
  obtain ⟨v, h | h⟩ := s.centreOn_cases c r x kind u
  · rw [h, updRank_at]
  · rw [h, raiseChan_chans, logDram_chans, updRank_at]

theorem centred_narrow {kind : Nat} {x : TemperResult} {u : SubId} (k : Rank) (h : (onSub x u).eye = 0) :
    (centred kind x u k).st = .degraded := by
  unfold centred
  dsimp only
  rw [if_pos h]

theorem centred_read {x : TemperResult} {u : SubId} (k : Rank) (h : (onSub x u).eye ≠ 0) :
    ((centred 1 x u k).centring[u]).read = (k.centring[u]).read + (onSub x u).moved := by
  unfold centred
  dsimp only
  rw [if_neg h]
  dsimp only
  rw [getElem_vmod, if_pos rfl]
  rfl

theorem centred_degraded (kind : Nat) (x : TemperResult) (u : SubId) {k : Rank} (h : k.st = .degraded) :
    (centred kind x u k).st = .degraded := by
  unfold centred
  dsimp only
  split
  · rfl
  · exact h

theorem centred_others (kind : Nat) (x : TemperResult) {u v : SubId} (h : u ≠ v) (k : Rank) :
    (centred kind x u k).centring[v] = k.centring[v] := by
  unfold centred
  dsimp only
  split
  · rfl
  · exact (getElem_vmod ..).trans (if_neg h)

/-- A step on other subchannels leaves the centring of one, and a rank that is DEGRADED stays so. -/
def SparesCentre (c : ChanId) (r : RankId) (v : SubId) (s t : State) : Prop :=
  t.chans[c].ranks[r].centring[v] = s.chans[c].ranks[r].centring[v] ∧
    (s.chans[c].ranks[r].st = .degraded → t.chans[c].ranks[r].st = .degraded)

/-- What a READ or a WRITE step has done on one of its subchannels. -/
theorem centreOns_atSub (kind : Nat) {us : List SubId} (once : us.Nodup) {u : SubId} (hu : u ∈ us) :
    let k := (us.foldl (centreOn c r kind x) s).chans[c].ranks[r]
    ((onSub x u).eye = 0 → k.st = .degraded) ∧ (kind = 1 → (onSub x u).eye ≠ 0 →
      (k.centring[u]).read = (s.chans[c].ranks[r].centring[u]).read + (onSub x u).moved) := by
  obtain ⟨m, before, after⟩ := foldl_reaches (on := centreOn c r kind x) (kept := SparesCentre c r)
    (fun _ _ => ⟨rfl, id⟩) (fun a b => ⟨b.1.trans a.1, b.2 ∘ a.2⟩)
    (fun t h => by
      rw [SparesCentre, centreOn_rank]
      exact ⟨centred_others kind x h _, centred_degraded kind x _⟩) us s once hu
  rw [SparesCentre, centreOn_rank] at after
  refine ⟨fun narrow => after.2 (centred_narrow _ narrow), fun hk wide => ?_⟩
  subst hk
  rw [after.1, centred_read _ wide, before.1]

theorem courseKept_restoreSaved (us : List SubId) (a : Nat) : CourseKept s (s.restoreSaved c r us a) c := by
  unfold restoreSaved
  exact .ite (courseKept_updChan s c (fun _ => rfl) (fun _ => rfl) fun _ _ h => h) (.refl s c)

theorem restoreSaved_ranks (us : List SubId) (a : Nat) : (s.restoreSaved c r us a).chans[c].ranks = s.chans[c].ranks := by
  unfold restoreSaved
  dsimp only
  split
  · rw [updChan_at, if_pos rfl]
  · rfl

end

/-! ### A step of a TEMPER entry -/

section
variable {s : State} {c : ChanId} {r : RankId} {us : List SubId} {kind : Nat} {x : TemperResult} {w : By}

/-- What a step does to a rank that has been woken for it. -/
def stepped (c : ChanId) (r : RankId) (us : List SubId) (kind : Nat) (x : TemperResult) (w : By) (t : State) : State :=
  if kind = 0 then t.oscStep c r us x w
  else
    let t1 := us.foldl (centreOn c r kind x) t
    if kind = 2 then t1.restoreSaved c r us x.saved else t1

theorem temperStep_awake (h : s.rankAsleep c r = false) :
    s.temperStep c r us kind x w = s.serviced c r w (stepped c r us kind x w) :=
  if_neg (ne_true_of_eq_false h)

theorem courseKept_stepped (t : State) : CourseKept t (stepped c r us kind x w t) c := by
  have moved := CourseKept.foldl (fun t u => courseKept_centreOn t c r x kind u) us t
  exact .ite (courseKept_oscStep ..) (.ite (moved.trans (courseKept_restoreSaved ..)) moved)

theorem courseKept_temperStep (s : State) : CourseKept s (s.temperStep c r us kind x w) c := by
  cases h : s.rankAsleep c r with
  | true =>
    rw [show s.temperStep c r us kind x w = s from if_pos h]
    exact .refl s c
  | false =>
    rw [temperStep_awake h]
    exact ((serves_useRank ..).courseKept.trans (courseKept_stepped _)).trans (serves_serviced ..).courseKept

theorem temperStep_osc (h : s.rankAsleep c r = false) (hk : kind = 0) :
    (s.temperStep c r us kind x w).chans[c].ranks[r].temp = x.temp := by
  obtain ⟨l, p, rank⟩ := (serves_serviced s c r w (stepped c r us kind x w)).rank r
  rw [temperStep_awake h, rank, stepped, if_pos hk]
  exact oscStep_temp ..

/-- What a READ or a WRITE step does on the subchannels of its entry (R293, R294). -/
theorem temperStep_centre (h : s.rankAsleep c r = false) (hk : kind ≠ 0) (once : us.Nodup) {u : SubId} (hu : u ∈ us) :
    let k := (s.temperStep c r us kind x w).chans[c].ranks[r]
    ((onSub x u).eye = 0 → k.st = .degraded) ∧ (kind = 1 → (onSub x u).eye ≠ 0 →
      (k.centring[u]).read = (s.chans[c].ranks[r].centring[u]).read + (onSub x u).moved) := by
  obtain ⟨l, p, rank⟩ := (serves_serviced s c r w (stepped c r us kind x w)).rank r
  obtain ⟨l', p', woken⟩ := (serves_useRank s c r w).rank r
  have ranks : (stepped c r us kind x w (s.useRank c r w)).chans[c].ranks =
      (us.foldl (centreOn c r kind x) (s.useRank c r w)).chans[c].ranks := by
    rw [stepped, if_neg hk]
    dsimp only
    split
    · exact restoreSaved_ranks ..
    · rfl
  have centre := centreOns_atSub (s.useRank c r w) c r x kind once hu
  rw [temperStep_awake h, rank, ranks]
  dsimp only at centre ⊢
  rw [woken] at centre
  exact centre

end

end State

end Sys2Proof.Machine
end

section
/-! SUPPORT. The end of a course, and the channels that leave for self-refresh at it (R132, R133, R182, R304). -/

namespace Sys2Proof.Machine

namespace State

/-! ### The end of a course -/

section
variable (s : State)

/-- The channels have left a course. -/
def leftCourse (s : State) : State := s.chansInUse.foldl (fun acc c => acc.leaveCourse s.courseEnd c) s

theorem leaveCourse_st (t : Nat) (c d : ChanId) : (s.leaveCourse t c).chans[d].st = s.chans[d].st := by
  unfold leaveCourse restartChan
  rw [updChan_at, updChan_at]
  split <;> rfl

theorem leftCourse_st (c : ChanId) : s.leftCourse.chans[c].st = s.chans[c].st :=
  foldl_same (fun t : State => t.chans[c].st) _ (fun t d => leaveCourse_st t s.courseEnd d c) _ s

theorem leftCourse_seq : s.leftCourse.seq = s.seq :=
  foldl_same State.seq (fun (acc : State) c => acc.leaveCourse s.courseEnd c) (fun _ _ => rfl) _ s

/-- The account of the sequencer at the end of a course. -/
def seqEnded (s : State) (q : Seq) : Seq :=
  { q with
    debt := min (2 ^ 32 - 1) (q.debt + s.courseLen - s.grid * 16), number := (q.number + 1) % 2 ^ 64
    lastFill := q.fill, lastShort := q.short, overrunOpen := q.overrunOpen || decide (s.grid * 16 + 256 < s.courseLen)
    begun := s.courseEnd }

/-- A long course raises source 72 besides (R185). -/
theorem endCourse_cases :
    s.endCourse = (s.leftCourse.updSeq s.seqEnded).raise 72 ∨ s.endCourse = s.leftCourse.updSeq s.seqEnded := by
  unfold endCourse
  dsimp only
  split
  · exact .inl rfl
  · exact .inr rfl

theorem endCourse_seq : s.endCourse.seq = s.seqEnded s.seq := by
  have ended : (s.leftCourse.updSeq s.seqEnded).seq = s.seqEnded s.seq := congrArg s.seqEnded s.leftCourse_seq
  obtain h | h := s.endCourse_cases
  · rw [h, (raised_raise ..).sessionOnly.seq, ended]
  · rw [h, ended]

theorem endCourse_st (c : ChanId) : s.endCourse.chans[c].st = s.chans[c].st := by
  have ended : (s.leftCourse.updSeq s.seqEnded).chans[c].st = s.chans[c].st := s.leftCourse_st c
  obtain h | h := s.endCourse_cases
  · rw [h, (raised_raise ..).sessionOnly.chans, ended]
  · rw [h, ended]

/-! ### Channels that leave for self-refresh -/

theorem ranksOnly_sreRank (c : ChanId) (r : RankId) : RanksOnly s (s.sreRank c r) := by
  unfold sreRank
  split
  · exact ((ranksOnly_useRank ..).trans (ranksOnly_issueBoth ..)).trans (ranksOnly_issueBoth ..)
  · exact .refl s

theorem issueSreOn_st (c d : ChanId) :
    (s.issueSreOn c).chans[d].st = if c = d then .sreIssued else s.chans[d].st := by
  have ranks := ranksOnly_foldl (fun acc r => acc.sreRank c r) (fun t r => ranksOnly_sreRank t c r) (List.finRange 4) s
  unfold issueSreOn
  rw [updChan_at]
  split
  · rfl
  · rw [ranks.chan d]

/-- A channel has the state that it had. -/
def SameSt (c : ChanId) (s t : State) : Prop := t.chans[c].st = s.chans[c].st

theorem issueSreOns_st {l : List ChanId} (once : l.Nodup) {c : ChanId} (hc : c ∈ l) :
    (l.foldl (fun acc d => acc.issueSreOn d) s).chans[c].st = .sreIssued := by
  obtain ⟨m, -, after⟩ := foldl_reaches (on := fun (acc : State) d => acc.issueSreOn d) (kept := SameSt) (fun _ _ => rfl)
    (fun a b => Eq.trans b a) (fun t h => (issueSreOn_st ..).trans (if_neg h)) l s once hc
  exact Eq.trans after ((issueSreOn_st ..).trans (if_pos rfl))

end

/-! ### Boundaries -/

section
variable {s : State}

theorem boundary_early (h : s.courseOver = false) : s.boundary = s := by
  unfold boundary
  rw [h]
  rfl

theorem boundary_next (h : s.courseOver = true) (rest : ∀ c, s.inUse c = true → s.chans[c].st ≠ .quiesce) :
    s.boundary = s.endCourse.startCourse := by
  have none : ¬(s.chansInUse.any fun c => s.chans[c].st == .quiesce) = true := by
    intro any
    obtain ⟨c, hc, quiet⟩ := List.any_eq_true.mp any
    exact rest c (mem_chansInUse.mp hc) (eq_of_beq quiet)
  unfold boundary
  rw [if_pos h]
  exact if_neg none

theorem boundary_leaves (h : s.courseOver = true) (quiet : ∃ c, s.inUse c = true ∧ s.chans[c].st = .quiesce) :
    s.boundary = s.endCourse.issueSre := by
  obtain ⟨c, hc, quiet⟩ := quiet
  unfold boundary
  rw [if_pos h]
  exact if_pos (List.any_eq_true.mpr ⟨c, mem_chansInUse.mpr hc, by rw [quiet]; rfl⟩)

end

end State

theorem exec_courseBoundary (s : State) (bad : Bool) :
    exec (.courseBoundary bad) s = .next (if bad && s.courseOver then s.enterQuench 2 3 else s.boundary) := rfl

theorem exec_courseBoundary_good (s : State) : exec (.courseBoundary false) s = .next s.boundary := rfl

theorem coursesFollow : Clause.CoursesFollow := by
  intro s bad
  refine ⟨fun early => ?_, fun done hbad => ?_, ?_, ?_, fun done hbad rest => ?_, fun done hbad quiet => ⟨fun c hc => ?_, ?_, ?_⟩⟩
  · rw [exec_courseBoundary, early, Bool.and_false, if_neg (by decide), State.boundary_early early]
  · rw [exec_courseBoundary, done, hbad]
    rfl
  · rw [State.endCourse_seq]
    rfl
  · rw [State.endCourse_seq]
    rfl
  · rw [hbad, exec_courseBoundary_good, State.boundary_next done rest]
  · have both : ∀ d : ChanId, d ∈ [(0 : ChanId), 1] := by decide
    have leaves : (s.endCourse.chans[c].st == .quiesce) = true := by rw [State.endCourse_st, hc]; rfl
    exact State.issueSreOns_st _ (List.Nodup.filter _ (by decide)) (List.mem_filter.mpr ⟨both c, leaves⟩)
  · rw [hbad, exec_courseBoundary_good, State.boundary_leaves done quiet]
  · exact fun runs => if_pos runs

end Sys2Proof.Machine
end

section
/-! SUPPORT. The rows of the entries of a course, by what each does when its turn has come. -/

namespace Sys2Proof.Machine

namespace State

section
variable {s : State} {c : ChanId} {i : Nat} {e : Entry}

/-! ### FETCH entries -/

/-- The bursts given to a FETCH entry have been read, up to those that the guard holds. -/
def fetchRead (s : State) (c : ChanId) (i : Nat) (e : Entry) : State :=
  let n : LinkId := Fin.ofNat 32 e.link
  let s1 := readGiven c i n 0 (s.givenOn c i e 0) s
  readGiven c i n 1 (s1.givenOn c i e 1) s1

theorem fetchEntry_acts (turn : s.nextEntry c i = some e) (early : s.stalled c i e = false) (same : e.type = 1) :
    s.fetchEntry c i = if ((s.fetchRead c i e).givenTo c i e).isEmpty then
      (s.fetchRead c i e).passEntry c i e (s.fetchRead c i e).time else s.fetchRead c i e :=
  actEntry_acts turn same early _

/-- A FETCH entry to which nothing is given reads nothing. -/
theorem fetchRead_none (h : s.givenTo c i e = []) : s.fetchRead c i e = s := by
  obtain ⟨none0, none1⟩ := List.append_eq_nil_iff.mp h
  unfold fetchRead
  dsimp only
  rw [none0, readGiven, none1, readGiven]

theorem fetchEntry_ends (turn : s.nextEntry c i = some e) (early : s.stalled c i e = false) (same : e.type = 1)
    (h : s.givenTo c i e = []) : s.fetchEntry c i = s.passEntry c i e s.time := by
  rw [fetchEntry_acts turn early same, fetchRead_none h, h]
  rfl

/-! ### Overlay and TEMPER entries -/

theorem refsbEntry_acts (turn : s.nextEntry c i = some e) (early : s.stalled c i e = false) (same : e.type = 2)
    (free : ¬∃ u ∈ entrySubs e, s.wouldIssue c e u = true ∧ s.indexHeld c e.rankId u e.bank = true) :
    s.refsbEntry c i = (entrySubs e).foldl (refsbOn c i e) (s.passEntry c i e s.time) :=
  bankEntry_acts turn early same free

theorem mitigEntry_acts (turn : s.nextEntry c i = some e) (early : s.stalled c i e = false) (same : e.type = 3)
    (free : ¬∃ u ∈ entrySubs e, s.wouldIssue c e u = true ∧ s.indexHeld c e.rankId u e.bank = true) :
    s.mitigEntry c i = (entrySubs e).foldl (mitigOn c i e) (s.passEntry c i e s.time) :=
  bankEntry_acts turn early same free

theorem zqcalEntry_acts (turn : s.nextEntry c i = some e) (early : s.stalled c i e = false) (same : e.type = 6)
    (fresh : s.chans[c].latch.contains i = false) : s.zqcalEntry c i = (s.passEntry c i e s.time).zqStart c i e := by
  rw [zqcalEntry_starts fresh, actEntry_acts turn same early]

theorem temperEntry_acts (turn : s.nextEntry c i = some e) (early : s.stalled c i e = false) (same : e.type = 4)
    (x : TemperResult) : s.temperEntry c i x =
      (s.passEntry c i e s.time).temperStep c e.rankId (entrySubs e) e.kind x (By.slot 2 i) :=
  actEntry_acts turn same early _

/-- What a ZQCAL entry has done that starts a calibration. -/
theorem zqStart_passed (fresh : s.chans[c].latch.contains i = false) :
    let t := (s.passEntry c i e s.time).zqStart c i e
    t.raster = s.raster ∧ t.chans[c].due = s.chans[c].due.erase i ∧
      (s.rankAsleep c e.rankId = false → (∀ u ∈ entrySubs e, s.Sent t (.dramCmd c 10 e.rankId u 0)) ∧
        (t.chans[c].latch.contains i = true ↔ e.blockFrom < s.grid)) := by
  obtain ⟨raster, due⟩ := zqStart_kept (s := s.passEntry c i e s.time) (c := c) i (e := e)
  rw [passEntry_raster] at raster
  rw [passEntry_due] at due
  refine ⟨raster, due, fun awake => ?_⟩
  rw [← rankAsleep_passEntry s c i e s.time] at awake
  refine ⟨fun u hu => Sent.between (.of_out (passEntry_out ..)) (zqStart_sent i awake hu) (.refl _), ?_⟩
  rw [zqStart_latch i awake (by rw [passEntry_latch]; exact fresh), passEntry_grid]

/-- What a TEMPER entry has done. -/
theorem temperStep_passed (x : TemperResult) :
    let r := e.rankId
    let t := (s.passEntry c i e s.time).temperStep c r (entrySubs e) e.kind x (By.slot 2 i)
    t.raster = s.raster ∧ t.chans[c].due = s.chans[c].due.erase i ∧
      (s.rankAsleep c r = false → e.kind = 0 → t.chans[c].ranks[r].temp = x.temp) ∧
      (s.rankAsleep c r = false → e.kind ≠ 0 → ∀ u ∈ entrySubs e,
        ((onSub x u).eye = 0 → t.chans[c].ranks[r].st = .degraded) ∧
        (e.kind = 1 → (onSub x u).eye ≠ 0 → (t.chans[c].ranks[r].centring[u]).read =
          (s.chans[c].ranks[r].centring[u]).read + (onSub x u).moved)) := by
  dsimp only
  have kept := courseKept_temperStep (c := c) (r := e.rankId) (us := entrySubs e) (kind := e.kind) (x := x) (w := By.slot 2 i)
    (s.passEntry c i e s.time)
  rw [← rankAsleep_passEntry s c i e s.time]
  refine ⟨kept.raster.trans (passEntry_raster ..), kept.due.trans (passEntry_due ..), temperStep_osc, fun awake hk u hu => ?_⟩
  have centre := temperStep_centre (x := x) (w := By.slot 2 i) awake hk (entrySubs_nodup e) hu
  rw [passEntry_ranks] at centre
  exact centre

end

end State

/-- Settles O58: each row by what it does to what is due. -/
theorem courseRowsComplete : Obligations.CourseRowsComplete := by
  refine ⟨fun s done rest => ⟨?_, ?_⟩, fun s c i e turn => ⟨fun late => ?_, fun early => ⟨?_, ?_, ?_, ?_, ?_⟩⟩⟩
  · rw [exec_courseBoundary_good, State.boundary_next done rest]
  · rw [State.endCourse_seq]
    rfl
  · exact ⟨s.stall c i, rfl, (State.stall_ends turn late).1⟩
  · intro same none
    refine ⟨s.fetchEntry c i, rfl, ?_⟩
    rw [State.fetchEntry_ends turn early same none, State.passEntry_due]
  · intro same free
    refine ⟨s.refsbEntry c i, rfl, ?_⟩
    rw [State.refsbEntry_acts turn early same free]
    exact ((State.refsb_actsOnSubs c i e same).passed s).2.1
  · intro same free
    refine ⟨s.mitigEntry c i, rfl, ?_⟩
    rw [State.mitigEntry_acts turn early same free]
    exact ((State.mitig_actsOnSubs c i e).passed s).2.1
  · intro same x
    refine ⟨s.temperEntry c i x, rfl, ?_⟩
    rw [State.temperEntry_acts turn early same]
    exact (State.temperStep_passed x).2.1
  · intro same fresh
    refine ⟨s.zqcalEntry c i, rfl, ?_⟩
    rw [State.zqcalEntry_acts turn early same fresh]
    exact (State.zqStart_passed fresh).2.1

end Sys2Proof.Machine
end

section
/-! SUPPORT. The count of replays after an alert that finds nothing to replay (R299). -/

namespace Sys2Proof.Machine

namespace State

section
variable (s : State) (c : ChanId) (u : SubId)

/-- The writes that a channel has replayed. -/
def replayCount (s : State) (c : ChanId) : Nat := s.chans[c].replays

theorem replayCount_updChan {f : Chan → Chan} (hf : ∀ ch, (f ch).replays = ch.replays) :
    (s.updChan c f).replayCount c = s.replayCount c := by
  unfold replayCount
  rw [updChan_at, if_pos rfl, hf]

theorem replayCount_updSub (f : SubRec → SubRec) : (s.updSub c u f).replayCount c = s.replayCount c :=
  replayCount_updChan s c fun _ => rfl

theorem replayCount_raiseChan : (s.raiseChan c).replayCount c = s.replayCount c := by
  unfold replayCount
  rw [raiseChan_chans]

theorem replayCount_logDram (type : Nat) (sub rank b15 temp value : Nat) :
    (s.logDram type c sub rank b15 temp value).replayCount c = s.replayCount c := rfl

/-- A storm is counted, and the count of replays stays. -/
theorem replayCount_checkStorm : (s.checkStorm c u).replayCount c = s.replayCount c := by
  have counted := replayCount_updChan s c (f := fun ch => { ch with storms := satAdd 0xFF ch.storms 1 }) fun _ => rfl
  unfold checkStorm
  dsimp only
  split
  · rfl
  · split
    · rw [replayCount_raiseChan, replayCount_logDram, replayCount_updSub, counted]
    · rw [replayCount_updChan, replayCount_updSub, counted]
      exact fun _ => rfl

/-- An alert without a write to replay leaves the count of replays. -/
theorem crcAlert_replays_none {s : State} {c : ChanId} {u : SubId} (hserves : s.chanServes c = true)
    (hwaits : s.chans[c].subs[u].replay = []) (hkept : s.chans[c].subs[u].kept = []) (n : Nat) :
    (s.crcAlert c u n).replayCount c = s.replayCount c := by
  have none : (s.alerted c u n).chans[c].subs[u].replay = [] := by
    rw [alerted_replay, hwaits, hkept, List.take_nil]
    rfl
  have logged (t : State) : (t.logAlert c u).replayCount c = t.replayCount c := rfl
  rw [crcAlert_eq hserves, none, replays, replayCount_checkStorm, logged, replayCount_updSub, alerted, replayCount_updSub]

end

end State

/-- Refutes O46: the clause sets a channel's count of replays to at most 0xFFFF after every alert, and an alert without a write to
replay leaves it. A count of 0x10000, above the 0xFFFF at which the model's own counting saturates, stays. -/
theorem not_dramService : ¬ Obligations.DramService := by
  rintro ⟨-, -, alerts⟩
  obtain ⟨-, replays, -⟩ := alerts { State.reset with chans := #v[{ st := .service, replays := 0x10000 }, {}] } 0 0 0
  obtain ⟨t, done, hexec, hdone, -, -, hcount, -⟩ := replays rfl
  have none : done = [] := (List.append_eq_nil_iff.mp hdone.symm).1
  have stays : t.chans[(0 : ChanId)].replays = 0x10000 := by
    rw [← Host.Outcome.next.inj hexec]
    exact State.crcAlert_replays_none rfl rfl rfl 0
  rw [stays, none] at hcount
  exact absurd hcount (by decide)

end Sys2Proof.Machine
end

section
/-! SUPPORT. What steps may store: the words of some bursts, and those that a WRITE_RAW or a ZERO which is stopped had still to write
(R101, R361). One lemma for each operation of the model, under its name. -/

namespace Sys2Proof.Machine

namespace State

/-- No word has been stored but in some bursts and in those that commands had open, no command has come or has more to hand out, and
no more bursts are presented. -/
structure StoresOnly (s t : State) (as : List Nat) : Prop where
  writes : s.WritesOnly t (as ++ s.openWrites)
  cmds : ∀ c ∈ t.cmds, ∃ d ∈ s.cmds, d.id = c.id ∧ d.op = c.op ∧ d.todo = c.todo
  bursts : ∀ id, ∀ b ∈ t.presentedBursts id, b ∈ s.presentedBursts id

theorem StoresOnly.refl (s : State) (as : List Nat) : StoresOnly s s as :=
  ⟨.refl s _, fun c hc => ⟨c, hc, rfl, rfl, rfl⟩, fun _ _ h => h⟩

theorem updChan_arb {s : State} {c d : ChanId} {f : Chan → Chan} (hf : ∀ ch, (f ch).arb = ch.arb := by exact fun _ => rfl) :
    (s.updChan d f).chans[c].arb = s.chans[c].arb := by
  rw [updChan_at]
  split
  · exact hf _
  · rfl

theorem readBurst_length (m : List Host.Cell) (x : Nat) : (readBurst m x).length = 8 := by
  rw [readBurst, List.length_map, List.length_range]

theorem mem_openWrites {s : State} {a : Nat} : a ∈ s.openWrites ↔
    ∃ c ∈ s.cmds, (c.op = 0x12 ∨ c.op = 0x15) ∧ ∃ b, (b ∈ c.todo ∨ b ∈ s.presentedBursts c.id) ∧ b.addr = a := by
  simp [openWrites, and_assoc, or_and_right, exists_or]

section
variable {s₀ s : State} {as : List Nat} (a : StoresOnly s₀ s as)
include a

theorem StoresOnly.openWrites {x : Nat} (h : x ∈ s.openWrites) : x ∈ s₀.openWrites := by
  obtain ⟨c, hc, writes, b, hb, rfl⟩ := mem_openWrites.mp h
  obtain ⟨d, hd, hid, hop, htodo⟩ := a.cmds c hc
  refine mem_openWrites.mpr ⟨d, hd, hop ▸ writes, b, hb.imp (fun h => htodo ▸ h) fun h => ?_, rfl⟩
  rw [hid]
  exact a.bursts c.id b h

theorem StoresOnly.trans {t : State} (b : StoresOnly s t as) : StoresOnly s₀ t as where
  writes := a.writes.trans (b.writes.mono fun _ h =>
    (List.mem_append.mp h).elim (List.mem_append_left _) fun h => List.mem_append_right _ (a.openWrites h))
  cmds c hc := by
    obtain ⟨d, hd, hid, hop, htodo⟩ := b.cmds c hc
    obtain ⟨e, he, heid, heop, hetodo⟩ := a.cmds d hd
    exact ⟨e, he, heid.trans hid, heop.trans hop, hetodo.trans htodo⟩
  bursts id x h := a.bursts id x (b.bursts id x h)

/-- A step that leaves the stored words, the commands and what they present. -/
theorem StoresOnly.same {t : State} (hd : t.raster.dram = s.raster.dram) (hc : t.cmds = s.cmds)
    (hw : t.writeback = s.writeback) (ha : ∀ c : ChanId, t.chans[c].arb = s.chans[c].arb) : StoresOnly s₀ t as := by
  refine a.trans ⟨.of_dram hd _, fun c h => ⟨c, hc ▸ h, rfl, rfl, rfl⟩, presentedBursts_mono (fun c x hx => ?_) (hw ▸ fun _ h => h)⟩
  rwa [transfers_congr (ha c)] at hx

theorem StoresOnly.foldl {α : Type} {f : State → α → State} {l : List α}
    (hf : ∀ t, ∀ x ∈ l, StoresOnly s₀ t as → StoresOnly s₀ (f t x) as) : StoresOnly s₀ (l.foldl f s) as := by
  induction l generalizing s with
  | nil => exact a
  | cons x l ih => exact ih (hf s x List.mem_cons_self a) fun t y hy => hf t y (List.mem_cons_of_mem _ hy)

omit a in
theorem StoresOnly.ite {P : Prop} [Decidable P] {t u : State} (ht : StoresOnly s₀ t as) (hu : StoresOnly s₀ u as) :
    StoresOnly s₀ (if P then t else u) as := by
  split
  · exact ht
  · exact hu

/-! ### Operations of the model's files State and Events -/

theorem StoresOnly.updRaster {f : Raster → Raster} (hf : ∀ r, (f r).dram = r.dram := by exact fun _ => rfl) :
    StoresOnly s₀ (s.updRaster f) as := a.same (hf _) rfl rfl fun _ => rfl

theorem StoresOnly.updChan {c : ChanId} {f : Chan → Chan} (hf : ∀ ch, (f ch).arb = ch.arb := by exact fun _ => rfl) :
    StoresOnly s₀ (s.updChan c f) as :=
  a.same rfl rfl rfl fun _ => updChan_arb hf

theorem StoresOnly.updRank {c : ChanId} {r : RankId} {f : Rank → Rank} : StoresOnly s₀ (s.updRank c r f) as :=
  a.updChan

theorem StoresOnly.updScrub {c : ChanId} {f : Scrub → Scrub} : StoresOnly s₀ (s.updScrub c f) as := a.updChan

theorem StoresOnly.updMig {c : ChanId} {f : Mig → Mig} : StoresOnly s₀ (s.updMig c f) as := a.updChan

theorem StoresOnly.updBank {c : ChanId} {r : RankId} {u : SubId} {b : Fin 4} {f : BankIdx → BankIdx} :
    StoresOnly s₀ (s.updBank c r u b f) as := a.updRank

theorem StoresOnly.updLink {n : LinkId} {f : Link → Link} : StoresOnly s₀ (s.updLink n f) as :=
  a.same rfl rfl rfl fun _ => rfl

theorem StoresOnly.updFetch {n : LinkId} {f : Fetch → Fetch} : StoresOnly s₀ (s.updFetch n f) as := a.updLink

theorem StoresOnly.updEngine {e : Fin 34} {f : Engine → Engine} : StoresOnly s₀ (s.updEngine e f) as :=
  a.same rfl rfl rfl fun _ => rfl

theorem StoresOnly.updSeq {f : Seq → Seq} : StoresOnly s₀ (s.updSeq f) as := a.same rfl rfl rfl fun _ => rfl

theorem StoresOnly.emit {o : Out} : StoresOnly s₀ (s.emit o) as := a.same rfl rfl rfl fun _ => rfl

theorem StoresOnly.useFree : StoresOnly s₀ s.useFree as := a.same rfl rfl rfl fun _ => rfl

theorem StoresOnly.logErr {type host : Nat} {fs : List Nat} : StoresOnly s₀ (s.logErr type host fs) as :=
  a.same rfl rfl rfl fun _ => rfl

theorem StoresOnly.raise {n : Fin 96} : StoresOnly s₀ (s.raise n) as := by
  have only := raisedOnly_raise s n
  rw [only.1]
  exact a.same rfl rfl rfl fun _ => rfl

theorem StoresOnly.raiseChan {c : ChanId} : StoresOnly s₀ (s.raiseChan c) as := a.raise

/-- Commands to ranks store nothing. -/
theorem StoresOnly.ranks {t : State} (h : RanksOnly s t) : StoresOnly s₀ t as := by
  have frame := h.frame
  refine a.same (by rw [frame]) (by rw [frame]) (by rw [frame]) fun c => ?_
  rw [h.chan c]

/-- A command in flight that keeps its number, its opcode and what it hands out may change in all else. -/
theorem StoresOnly.updCmd {id : Nat} {f : Cmd → Cmd}
    (hf : ∀ c, (f c).id = c.id ∧ (f c).op = c.op ∧ (f c).todo = c.todo := by exact fun _ => ⟨rfl, rfl, rfl⟩) :
    StoresOnly s₀ (s.updCmd id f) as := by
  refine a.trans ⟨.of_dram rfl _, fun c hc => ?_, fun _ _ h => h⟩
  obtain ⟨d, hd, rfl⟩ := List.mem_map.mp hc
  split
  · exact ⟨d, hd, (hf d).1.symm, (hf d).2.1.symm, (hf d).2.2.symm⟩
  · exact ⟨d, hd, rfl, rfl, rfl⟩

/-! ### Operations of the model's file Commands -/

theorem StoresOnly.finish {id : Nat} {x : Answer} : StoresOnly s₀ (s.finish id x) as := by
  obtain ⟨hs, ev, o, cs, frame, -, fewer⟩ := finished_finish s id x
  rw [frame]
  exact a.trans ⟨.of_dram rfl _, fun c hc => ⟨c, fewer.subset hc, rfl, rfl, rfl⟩, fun _ _ h => h⟩

/-- A command that is stopped writes at most what it had open (R101). -/
theorem StoresOnly.release {id : Nat} : StoresOnly s₀ (s.release id) as := by
  cases found : s.findCmd id with
  | none =>
    rw [State.release, found]
    exact a
  | some c =>
    have stop := release_stopOnly found
    refine a.trans ⟨stop.writes.mono fun x hx => List.mem_append_right _ ?_, fun d hd => ?_, stop.bursts⟩
    · unfold openBursts at hx
      split at hx
      · next writes =>
        obtain ⟨b, hb, rfl⟩ := List.mem_map.mp hx
        exact mem_openWrites.mpr ⟨c, List.mem_of_find?_eq_some found, writes, b, List.mem_append.mp hb, rfl⟩
      · cases hx
    · rw [release_cmds] at hd
      exact ⟨d, hd, rfl, rfl, rfl⟩

theorem StoresOnly.abort {id : Nat} {x : Answer} : StoresOnly s₀ (s.abort id x) as := a.release.finish

theorem StoresOnly.storeBurst {x : Nat} {ws : List (BitVec 80)} (hx : x ∈ as) (hl : ws.length = 8) :
    StoresOnly s₀ (s.storeBurst x ws) as := by
  have stop := s.storeBurst_stopOnly x hl
  refine a.trans ⟨stop.writes.mono fun y hy => ?_, fun d hd => ?_, stop.bursts⟩
  · rw [List.mem_singleton.mp hy]
    exact List.mem_append_left _ hx
  · rw [storeBurst_cmds] at hd
    exact ⟨d, hd, rfl, rfl, rfl⟩

theorem StoresOnly.storeData {x : Nat} {b : BitVec 512} {poison : Nat → Bool} (hx : x ∈ as) :
    StoresOnly s₀ (s.storeData x b poison) as :=
  a.storeBurst hx (by rw [List.length_map, List.length_range])

/-! ### Operations of the model's file Pages -/

theorem StoresOnly.dropPages {which : Page → Bool} : StoresOnly s₀ (s.dropPages which) as :=
  a.same rfl rfl rfl fun _ => rfl

theorem StoresOnly.stopFill : StoresOnly s₀ s.stopFill as := by
  refine a.same rfl rfl rfl fun c => ?_
  unfold State.stopFill
  simp

theorem StoresOnly.endPages : StoresOnly s₀ s.endPages as := by
  unfold State.endPages
  extract_lets s1 s2
  have dropped : StoresOnly s₀ s2 as := a.dropPages.stopFill.updSeq
  exact dropped.same rfl rfl rfl fun _ => rfl

theorem StoresOnly.flush : StoresOnly s₀ s.flush as := a.foldl fun _ _ _ ht => ht.emit.updLink.updLink

theorem StoresOnly.haltDone : StoresOnly s₀ s.haltDone as := by
  unfold State.haltDone
  split
  · exact a.useFree.updSeq.foldl fun _ _ _ ht => ht.finish

theorem StoresOnly.haltNow : StoresOnly s₀ s.haltNow as := .ite a a.endPages.flush.haltDone

/-! ### Operations of the model's file Integrity -/

theorem StoresOnly.logEcc {type path x : Nat} {d : Decoded} {stored : BitVec 80} :
    StoresOnly s₀ (s.logEcc type path x d stored) as := a.same rfl rfl rfl fun _ => rfl

theorem StoresOnly.keepRecord {path x : Nat} {stored : BitVec 80} {d : Decoded} :
    StoresOnly s₀ (s.keepRecord path x stored d) as := .ite a (a.same rfl rfl rfl fun _ => rfl)

theorem StoresOnly.noteWord {path x : Nat} {stored : BitVec 80} {d : Decoded} :
    StoresOnly s₀ (s.noteWord path x stored d) as := by
  unfold State.noteWord
  extract_lets s c s1
  have noted : StoresOnly s₀ s1 as := .ite a.keepRecord a.keepRecord.logEcc.updChan
  split
  · exact noted.logEcc.updChan
  · exact noted.logEcc
  · exact noted

theorem StoresOnly.startMigration {c : ChanId} {source target : RankId} :
    StoresOnly s₀ (s.startMigration c source target) as := a.updMig.updRank

theorem StoresOnly.captureDump {scope cause mask : Nat} : StoresOnly s₀ (s.captureDump scope cause mask) as :=
  a.same rfl rfl rfl fun _ => rfl

theorem StoresOnly.issueSreOn {c : ChanId} : StoresOnly s₀ (s.issueSreOn c) as :=
  (a.ranks (ranksOnly_foldl _ (fun t r => ranksOnly_sreRank t c r) _ s)).updChan

/-- A channel that comes to present nothing. -/
theorem StoresOnly.emptied {c : ChanId} {f : Chan → Chan}
    (hf : ∀ ch, (f ch).arb.reqs = Vector.replicate 12 [] ∧ (f ch).arb.holder = none) : StoresOnly s₀ (s.updChan c f) as := by
  refine a.trans ⟨.of_dram rfl _, fun d hd => ⟨d, hd, rfl, rfl, rfl⟩, presentedBursts_mono (fun d x hx => ?_) fun _ h => h⟩
  unfold transfers at hx ⊢
  dsimp only at hx
  rw [updChan_at] at hx
  split at hx
  · rw [(hf _).1, (hf _).2] at hx
    simp at hx
  · exact hx

/-- A channel that is quenched presents nothing any more (R361). -/
theorem StoresOnly.quenchChan {c : ChanId} : StoresOnly s₀ (s.quenchChan c) as := by
  unfold State.quenchChan
  extract_lets s1
  have left : StoresOnly s₀ s1 as := a.issueSreOn.emptied fun _ => ⟨rfl, rfl⟩
  clear_value s1
  exact left.same rfl rfl rfl fun _ => rfl

theorem StoresOnly.enterQuench {scope cause : Nat} : StoresOnly s₀ (s.enterQuench scope cause) as := by
  unfold State.enterQuench
  extract_lets other scope cause cs mask s1 stopped s2 s3 s4 s5 quench s6
  have cleared : StoresOnly s₀ s2 as := a.captureDump.updRaster
  have aborted : StoresOnly s₀ s3 as := cleared.foldl fun _ _ _ ht => ht.abort
  have quenched : StoresOnly s₀ s5 as := aborted.haltNow.foldl fun _ _ _ ht => ht.quenchChan
  have ended : StoresOnly s₀ s6 as := quenched.same rfl rfl rfl fun _ => rfl
  exact ended.raise.logErr

theorem StoresOnly.actOnHealth {c : ChanId} {r : RankId} {failing : Bool} : StoresOnly s₀ (s.actOnHealth c r failing) as := by
  unfold State.actOnHealth
  dsimp only
  split
  · exact .ite a.startMigration a.updMig
  · exact a
  · exact .ite a.enterQuench a

theorem StoresOnly.riseHealth {c : ChanId} {r : RankId} {h : Health} {count : Nat} :
    StoresOnly s₀ (s.riseHealth c r h count) as := by
  unfold State.riseHealth
  refine .ite a ?_
  extract_lets s1
  have risen : StoresOnly s₀ s1 as := a.updRank.logErr
  split
  · exact risen.raiseChan.actOnHealth
  · exact risen.raiseChan.actOnHealth
  · exact risen

theorem StoresOnly.countHealth {c : ChanId} {r : RankId} {x ce : Nat} {ue : Bool} :
    StoresOnly s₀ (s.countHealth c r x ce ue) as := by
  unfold State.countHealth
  refine .ite a ?_
  split
  · extract_lets s1 k s2 s3
    have counted : StoresOnly s₀ s1 as := a.updChan.updRank
    have corrected : StoresOnly s₀ s2 as := .ite counted.updRank.riseHealth.raise counted
    have due : StoresOnly s₀ s3 as := .ite corrected.riseHealth (.ite corrected.riseHealth corrected)
    exact .ite due.riseHealth due

theorem StoresOnly.queueScrub {c : ChanId} {x : Nat} : StoresOnly s₀ (s.queueScrub c x) as := a.updScrub

theorem StoresOnly.noteRead {path x : Nat} : StoresOnly s₀ (s.noteRead path x) as := by
  unfold State.noteRead
  extract_lets ws ds l r ce ue s1 s2
  have noted : StoresOnly s₀ s1 as := a.foldl fun _ _ _ ht => ht.noteWord
  have queued : StoresOnly s₀ s2 as := .ite noted.queueScrub noted
  exact .ite queued queued.countHealth

theorem StoresOnly.rewriteBurst {path x : Nat} (hx : x ∈ as) : StoresOnly s₀ (s.rewriteBurst path x) as := by
  unfold State.rewriteBurst
  extract_lets ws s1
  have logged : StoresOnly s₀ s1 as := a.foldl fun _ _ _ ht => .ite ht.logEcc ht
  exact logged.storeBurst hx (by rw [List.length_map, readBurst_length])

/-! ### Operations of the model's file Transfers -/

omit a in
theorem StoresOnly.force {c : ChanId} {f : State → State} (hf : StoresOnly s₀ (f s) as) : StoresOnly s₀ (s.force c f) as :=
  .ite hf.updChan hf

theorem StoresOnly.holdAccess {r : RankId} {x : Nat} : StoresOnly s₀ (s.holdAccess r x) as :=
  .ite (.force a.updChan) a

theorem StoresOnly.traceCmd {c : ChanId} {u : SubId} {code : Nat} {r : RankId} {group bank col row : Nat} {w : By} :
    StoresOnly s₀ (s.traceCmd c u code r group bank col row w) as := a.updChan

theorem StoresOnly.column {x code : Nat} {w : By} : StoresOnly s₀ (s.column x code w) as := a.traceCmd

theorem StoresOnly.useRank {c : ChanId} {r : RankId} {w : By} : StoresOnly s₀ (s.useRank c r w) as := a.ranks (ranksOnly_useRank ..)

theorem StoresOnly.closeRows {c : ChanId} {test : Row → Bool} {w : By} : StoresOnly s₀ (s.closeRows c test w) as :=
  a.ranks (serves_closeRows s c test w).only

theorem StoresOnly.activateOn {r : RankId} {x : Nat} {w : By} : StoresOnly s₀ (s.activateOn r x w) as :=
  a.closeRows.traceCmd.updChan.updBank

theorem StoresOnly.touchRowOn {r : RankId} {x code : Nat} {w : By} : StoresOnly s₀ (s.touchRowOn r x code w) as := by
  unfold State.touchRowOn
  extract_lets c s0 s1
  have used : StoresOnly s₀ s1 as := .ite a.useRank.updChan a.useRank.activateOn
  exact used.traceCmd

theorem StoresOnly.touchRow {x code : Nat} {w : By} : StoresOnly s₀ (s.touchRow x code w) as := a.touchRowOn

theorem StoresOnly.repeatRead {x : Nat} {w : By} : StoresOnly s₀ (s.repeatRead x w) as := a.closeRows.touchRow

theorem StoresOnly.readRow {x : Nat} {w : By} : StoresOnly s₀ (s.readRow x w) as :=
  .ite a.touchRow.repeatRead (.ite a.touchRow (.ite a.touchRow.useFree.repeatRead.logErr a.touchRow.useFree))

end

end State

end Sys2Proof.Machine
end

section
/-! SUPPORT. What a granted burst and a FETCH entry may store (R140, R311, R336 to R344, R352). -/

namespace Sys2Proof.Machine

namespace State

section
variable {s₀ s : State} {as : List Nat} (a : StoresOnly s₀ s as)
include a

/-! ### What a granted burst does -/

theorem StoresOnly.doRead {id x : Nat} : StoresOnly s₀ (s.doRead id x) as := a.noteRead.updCmd

theorem StoresOnly.doRawRead {id x : Nat} : StoresOnly s₀ (s.doRawRead id x) as := a.updCmd

theorem StoresOnly.doMerge {id x : Nat} (hx : x ∈ as) : StoresOnly s₀ (s.doMerge id x) as := by
  unfold State.doMerge
  extract_lets ws s1
  have noted : StoresOnly s₀ s1 as := a.noteRead
  split
  · exact noted
  · extract_lets out s2
    have logged : StoresOnly s₀ s2 as := noted.foldl fun _ _ _ ht => .ite ht.logEcc ht
    have long : (out.map (·.1)).length = 8 := by
      rw [List.length_map, List.length_map, List.length_zipIdx, readBurst_length]
    exact (logged.storeBurst hx long).updCmd

theorem StoresOnly.doWrite {c : Cmd} {x : Nat} (hx : x ∈ as) : StoresOnly s₀ (s.doWrite c x) as :=
  a.storeBurst hx (by rw [List.length_map, List.length_range])

theorem StoresOnly.doRawWrite {c : Cmd} {x : Nat} (hx : x ∈ as) : StoresOnly s₀ (s.doRawWrite c x) as := by
  unfold State.doRawWrite
  split
  exact .ite (a.storeBurst hx (by rw [List.length_map, List.length_range])) (a.storeBurst hx (List.length_replicate ..))

theorem StoresOnly.doInject {id : Nat} {c : Cmd} {x : Nat} {kind : BurstKind} (hx : x ∈ as) :
    StoresOnly s₀ (s.doInject id c x kind) as := by
  have old : (if kind = .rmw then readBurst s.raster.dram x else List.replicate 8 0).length = 8 := by
    split
    · exact readBurst_length ..
    · exact List.length_replicate ..
  unfold State.doInject
  exact .ite (a.storeBurst hx ((List.length_modify ..).trans old)).logEcc.updCmd (a.storeBurst hx (List.length_replicate ..))

theorem StoresOnly.doOutput {c : Cmd} {b : Burst} {w : By} (hb : b.addr ∈ as) : StoresOnly s₀ (s.doOutput c b w) as :=
  .ite (.ite a.noteRead.abort (a.noteRead.column.storeData hb)) (a.storeData hb)

theorem StoresOnly.doBurst {id : Nat} {b : Burst} (hb : b.addr ∈ as) : StoresOnly s₀ (s.doBurst id b) as := by
  unfold State.doBurst
  split
  · exact a
  · extract_lets w s1
    have row : StoresOnly s₀ s1 as := .ite a.touchRow a.readRow
    split
    · exact row.doOutput hb
    · exact row.doOutput hb
    · exact row.doRead
    · exact row.doRawRead
    · exact row.doRawWrite hb
    · exact row.column.doInject hb
    · exact row.doInject hb
    · exact row.column.doMerge hb
    · exact row.doWrite hb

theorem StoresOnly.doFill {n x : Nat} (hx : x ∈ as) : StoresOnly s₀ (s.doFill n x) as := by
  unfold State.doFill
  refine StoresOnly.updRaster ?_
  exact a.touchRow.storeBurst hx (List.length_replicate ..)

theorem StoresOnly.doScrub {c : ChanId} {b : Burst} (hb : b.addr ∈ as) : StoresOnly s₀ (s.doScrub c b) as :=
  .ite a.readRow.noteRead (.ite (a.readRow.noteRead.column.rewriteBurst hb) a.readRow.noteRead.updScrub)

theorem StoresOnly.doMigrate {c : ChanId} {b : Burst} (hb : b.addr ∈ as) : StoresOnly s₀ (s.doMigrate c b) as :=
  .ite a.readRow.noteRead (a.touchRowOn.rewriteBurst hb)

theorem StoresOnly.doXfer {c : ChanId} {src : Src} {b : Burst} (hb : b.addr ∈ as) : StoresOnly s₀ (s.doXfer c src b) as := by
  unfold State.doXfer
  split
  · exact a.doBurst hb
  · exact a.doFill hb
  · exact a.doScrub hb
  · exact a.doMigrate hb

/-! ### Bursts of a granted transfer -/

theorem StoresOnly.issueBursts {c : ChanId} {src : Src} {bs : List Burst} {n : Nat} (hb : ∀ b ∈ bs, b.addr ∈ as) :
    StoresOnly s₀ (issueBursts c src bs n s).1 as := by
  induction bs generalizing n s with
  | nil => exact a
  | cons b bs ih =>
    unfold State.issueBursts
    dsimp only
    split
    · exact a.holdAccess
    · exact ih (a.doXfer (hb b List.mem_cons_self)) fun y hy => hb y (List.mem_cons_of_mem _ hy)

theorem StoresOnly.issueGranted {c : ChanId} {x : Xfer} {bad : Option (Cmd × Burst × Nat)} (hb : ∀ b ∈ x.bursts, b.addr ∈ as) :
    StoresOnly s₀ (s.issueGranted c x bad).1 as := by
  unfold State.issueGranted
  split
  · exact a.issueBursts fun b h => hb b (List.mem_of_mem_drop h)
  · dsimp only
    split
    · exact (a.issueBursts fun b h => hb b (List.mem_of_mem_drop h)).updCmd
    · have issued {k n : Nat} : StoresOnly s₀ (State.issueBursts c x.src ((x.bursts.take k).drop x.done) n s).1 as :=
        a.issueBursts fun b h => hb b (List.mem_of_mem_take (List.mem_of_mem_drop h))
      split
      · exact issued.abort
      · exact issued

/-! ### FETCH entries -/

theorem StoresOnly.sampleAct {x : Nat} : StoresOnly s₀ (s.sampleAct x) as := .ite a (.ite a.useFree.updBank a.useFree)

theorem StoresOnly.placeBurst {n : LinkId} {u : Used} {data : BitVec 512} {bad : List (Nat × Bool)} :
    StoresOnly s₀ (s.placeBurst n u data bad) as := by
  unfold State.placeBurst
  dsimp only
  split
  · split
    · exact a.updEngine.updFetch
    · exact a.updFetch
  · split
    · exact a.updEngine.updFetch
    · exact a.updFetch
  · exact a.updFetch

theorem StoresOnly.fetchBurst {i : Nat} {n : LinkId} {u : Used} : StoresOnly s₀ (s.fetchBurst i n u) as :=
  .ite a.sampleAct.readRow.noteRead.placeBurst a.placeBurst

theorem StoresOnly.readGiven {c : ChanId} {i : Nat} {n : LinkId} {u : SubId} {l : List Used} :
    StoresOnly s₀ (readGiven c i n u l s) as := by
  induction l generalizing s with
  | nil => exact a
  | cons x l ih =>
    unfold State.readGiven
    split
    · exact a.holdAccess
    · exact ih a.fetchBurst.updFetch.updChan

end

/-- A FETCH entry stores nothing but what commands had open that a quench stops (R101, R361). -/
theorem fetchRead_writesOnly (s : State) (c : ChanId) (i : Nat) (e : Entry) : s.WritesOnly (s.fetchRead c i e) s.openWrites :=
  (StoresOnly.refl s []).readGiven.readGiven.writes

end State

/-! ### The entries of the course that act -/


theorem entriesAct : Clause.EntriesAct := by
  refine ⟨fun s c i e turn early => ⟨fun same => ⟨fun held => ?_, fun free => ?_⟩, fun same => ⟨fun held => ?_, fun free => ?_⟩,
    fun same fresh => ?_, fun same x => ?_, fun same => ⟨?_, fun none => ?_, ?_⟩⟩, fun s c i e he latched => ⟨fun wait => ?_, fun ready => ?_⟩⟩
  · exact congrArg _ (State.bankEntry_held turn early same held)
  · refine ⟨s.refsbEntry c i, rfl, ?_⟩
    rw [State.refsbEntry_acts turn early same free]
    exact (State.refsb_actsOnSubs c i e same).passed s
  · exact congrArg _ (State.bankEntry_held turn early same held)
  · refine ⟨s.mitigEntry c i, rfl, ?_⟩
    rw [State.mitigEntry_acts turn early same free]
    exact (State.mitig_actsOnSubs c i e).passed s
  · refine ⟨s.zqcalEntry c i, rfl, ?_⟩
    rw [State.zqcalEntry_acts turn early same fresh]
    exact State.zqStart_passed fresh
  · refine ⟨s.temperEntry c i x, rfl, ?_⟩
    rw [State.temperEntry_acts turn early same]
    exact State.temperStep_passed x
  · have row : exec (.fetchEntry c i) s = .next (s.fetchEntry c i) := rfl
    rw [row, State.fetchEntry_acts turn early same]
    rfl
  · have row : exec (.fetchEntry c i) s = .next (s.fetchEntry c i) := rfl
    rw [row, State.fetchEntry_ends turn early same none]
  · exact State.fetchRead_writesOnly s c i e
  · have row : exec (.zqcal c i) s = .next (s.zqLatch c i e) := congrArg _ (State.zqcalEntry_latches he latched)
    rw [row, State.zqLatch_waits i wait]
  · have row : exec (.zqcal c i) s = .next (s.zqLatch c i e) := congrArg _ (State.zqcalEntry_latches he latched)
    exact ⟨_, row, State.zqLatch_latches i ready⟩

/-- Settles O45: a boundary by how the course ends, an entry by its turn, and each row by what its entry does. -/
theorem coursesAndEntries : Obligations.CoursesAndEntries := ⟨coursesFollow, entriesActInOrder, entriesAct⟩

end Sys2Proof.Machine
end

section
/-! SUPPORT. The ends of transfers and of fills (R91, R92, R104, R148, R299, R311). -/

namespace Sys2Proof.Machine

namespace State

/-! ### A command goes on without a stored word changed -/

/-- A burst that is delivered is put out, and the command goes on under its opcode. -/
theorem deliver_op {s : State} {id : Nat} {c : Cmd} (hc : s.findCmd id = some c) (o : Out) (next bytes : Nat) :
    let t := (s.emit o).updCmd id fun x => { x with next := next, bytes := x.bytes + bytes }
    t.raster.dram = s.raster.dram ∧ ∃ d, t.findCmd id = some d ∧ d.op = c.op :=
  ⟨rfl, _, find_updCmd (s := s.emit o) hc (fun x => { x with next := next, bytes := x.bytes + bytes }) fun _ h => h, rfl⟩

/-- A READ or a RAW_READ writes nothing, whether it delivers or fails (R104, R333). -/
theorem deliverLoop_dram {s : State} {id : Nat} {c : Cmd} (hc : s.findCmd id = some c) (hop : c.op = 0x14 ∨ c.op = 0x51)
    (fuel : Nat) : (deliverLoop id fuel s).raster.dram = s.raster.dram := by
  induction fuel generalizing s c with
  | zero => rfl
  | succ fuel ih =>
    obtain rfl := id_of_find hc
    have goes_on {t : State} (h : t.raster.dram = s.raster.dram ∧ ∃ d, t.findCmd c.id = some d ∧ d.op = c.op) :
        (deliverLoop c.id fuel t).raster.dram = s.raster.dram := by
      obtain ⟨kept, d, hd, same⟩ := h
      exact (ih hd (same ▸ hop)).trans kept
    have stops (a : Answer) : (s.abort c.id a).raster.dram = s.raster.dram := by
      rw [abort, (finish_sessionOnly ..).raster]
      obtain h | h := hop <;> exact release_dram hc (by rw [h]; decide) (by rw [h]; decide)
    rw [deliverLoop, hc]
    dsimp only
    split
    · rfl
    · split
      · split
        · exact stops _
        · split
          · exact goes_on (deliver_op hc ..)
          · exact goes_on (deliver_op hc ..)
      · split
        · rfl
        · split
          · exact goes_on (deliver_op hc ..)
          · exact goes_on (deliver_op hc ..)

theorem sealDone_raster (s : State) (c : Cmd) : (s.sealDone c).raster = s.raster := by
  unfold sealDone
  split
  · exact (finish_sessionOnly ..).raster
  · exact (finish_sessionOnly ..).raster

/-- A command that reads no raster memory for a host goes on without a change of raster memory. -/
theorem progress_raster {s : State} {id : Nat} {c : Cmd} (hc : s.findCmd id = some c) (hread : c.op ≠ 0x14)
    (hraw : c.op ≠ 0x51) : (s.progress id).raster = s.raster := by
  unfold progress
  rw [hc]
  dsimp only
  rw [if_neg (not_or.mpr ⟨hread, hraw⟩)]
  split
  · split
    · exact sealDone_raster ..
    · exact (finish_sessionOnly ..).raster
  · rfl

theorem progress_dram (s : State) (id : Nat) : (s.progress id).raster.dram = s.raster.dram := by
  cases hc : s.findCmd id with
  | none =>
    unfold progress
    rw [hc]
  | some c =>
    by_cases hop : c.op = 0x14 ∨ c.op = 0x51
    · have delivered := deliverLoop_dram hc hop ((c.stop - c.next) / 64 + 1)
      unfold progress
      rw [hc]
      dsimp only
      rw [if_pos hop]
      split
      · exact delivered
      · split
        · rw [(finish_sessionOnly ..).raster, delivered]
        · exact delivered
    · obtain ⟨hread, hraw⟩ := not_or.mp hop
      rw [progress_raster hc hread hraw]

/-! ### What follows the last burst of a transfer -/

theorem present_raster (s : State) : s.present.raster = s.raster := by rw [(presented_present s).frame]

theorem settleHalf_raster (s : State) (c : ChanId) (x : Xfer) : (s.settleHalf c x).raster = s.raster := by
  unfold settleHalf
  dsimp only
  split <;> rfl

theorem migNext_raster (s : State) (c : ChanId) : (s.migNext c).raster = s.raster := by
  unfold migNext
  dsimp only
  split <;> rfl

theorem afterXfer_dram (s : State) (c : ChanId) (src : Src) : (s.afterXfer c src).raster.dram = s.raster.dram := by
  unfold afterXfer
  split
  · rw [progress_dram, present_raster]
  · rw [present_raster, migNext_raster]
  · rw [present_raster]

/-! ### The end of a granted transfer -/

section
variable {s : State} {c : ChanId} {r : Fin 12} {x : Xfer}

theorem transferDone_none (h : s.chans[c].arb.holder = none) (staging : Option Nat) : s.transferDone c staging = s := by
  rw [transferDone, h]

theorem transferDone_shut (h : s.chans[c].arb.holder = some (r, x))
    (stop : s.chanServes c = false ∨ s.storming c = true ∨ s.windowShut c x = true) (staging : Option Nat) :
    s.transferDone c staging = s := by
  have stops : (!s.chanServes c || s.storming c || s.windowShut c x) = true := by
    obtain h | h | h := stop <;> simp [h]
  rw [transferDone, h]
  exact if_pos stops

/-- The end of a transfer writes what its bursts write, and what a command that they stop had still to write. -/
theorem transferDone_writesOnly (h : s.chans[c].arb.holder = some (r, x)) (staging : Option Nat) :
    s.WritesOnly (s.transferDone c staging) (x.bursts.map (·.addr) ++ s.openWrites) := by
  have issued := (StoresOnly.refl s (x.bursts.map (·.addr))).issueGranted (c := c) (x := x) (bad := s.stagingBad x staging)
    fun b hb => List.mem_map_of_mem hb
  have writes := issued.writes
  have later {t : State} (ht : t.raster.dram = (s.issueGranted c x (s.stagingBad x staging)).1.raster.dram) :
      s.WritesOnly t (x.bursts.map (·.addr) ++ s.openWrites) := writes.trans (.of_dram ht _)
  unfold transferDone
  rw [h]
  dsimp only
  split
  · exact .refl s _
  · split
    · exact later (by rw [present_raster])
    · split
      · exact later rfl
      · exact later (by rw [afterXfer_dram, updChan_raster, settleHalf_raster])

/-- An access that the guard holds changes at most what its channel keeps of forced commands (R297). -/
theorem holdAccess_kept (s : State) (r : RankId) (a : Nat) :
    (s.holdAccess r a).cmds = s.cmds ∧ (s.holdAccess r a).raster = s.raster ∧
      ∀ c : ChanId, (s.holdAccess r a).chans[c].arb = s.chans[c].arb := by
  unfold holdAccess force
  dsimp only
  split
  · split
    · exact ⟨rfl, rfl, fun _ => Eq.trans updChan_arb updChan_arb⟩
    · exact ⟨rfl, rfl, fun _ => updChan_arb⟩
  · exact ⟨rfl, rfl, fun _ => rfl⟩

/-- The guard, or a replay on its subchannel, holds a burst of a transfer (R155, R297, R299). -/
def burstHeld (s : State) (c : ChanId) (src : Src) (b : Burst) : Prop :=
  s.actHeldOn (s.xferRank c src b) b.addr = true ∨ s.chans[c].subs[(s.raster.loc b.addr).sub].replay ≠ []

theorem issueBursts_held {src : Src} {b : Burst} (held : s.burstHeld c src b) (bs : List Burst) (n : Nat) :
    issueBursts c src (b :: bs) n s = (s.holdAccess (s.xferRank c src b) b.addr, n) := by
  have waits : (s.actHeldOn (s.xferRank c src b) b.addr ||
      s.chans[c].subs[(s.raster.loc b.addr).sub].replay != []) = true :=
    Bool.or_eq_true_iff.mpr (held.imp_right bne_iff_ne.mpr)
  unfold issueBursts
  dsimp only
  rw [if_pos waits]

/-- A transfer of which the next burst is held stays as it is. -/
theorem transferDone_held (h : s.chans[c].arb.holder = some (r, x)) (serves : s.chanServes c = true)
    (calm : s.storming c = false) (shut : s.windowShut c x = false) {b : Burst} {rest : List Burst}
    (next : x.bursts.drop x.done = b :: rest) (held : s.burstHeld c x.src b) :
    (s.transferDone c none).chans[c].arb.holder = some (r, x) ∧ (s.transferDone c none).raster = s.raster ∧
      (s.transferDone c none).cmds = s.cmds := by
  obtain ⟨cmds, raster, arb⟩ := s.holdAccess_kept (s.xferRank c x.src b) b.addr
  have issued : s.issueGranted c x (s.stagingBad x none) = (s.holdAccess (s.xferRank c x.src b) b.addr, x.done) := by
    rw [stagingBad_none, issueGranted, next, issueBursts_held held]
  have more : x.done < x.bursts.length := by
    have len := congrArg List.length next
    rw [List.length_drop, List.length_cons] at len
    omega
  have waits : s.transferDone c none = (s.holdAccess (s.xferRank c x.src b) b.addr).updChan c fun ch =>
      { ch with arb := { ch.arb with holder := some (r, { x with done := x.done }) } } := by
    unfold transferDone
    rw [h]
    dsimp only
    rw [if_neg (by rw [serves, calm, shut]; decide), issued]
    dsimp only
    rw [arb c, h, if_neg (by simp), if_pos more]
  rw [waits, updChan_at, if_pos rfl]
  exact ⟨rfl, raster, cmds⟩

end

end State

theorem transferMovesBursts : Clause.TransferMovesBursts := by
  intro s c staging
  have row (j : Option Nat) : exec (.transferComplete c j) s = .next (s.transferDone c j).settlePool := rfl
  refine ⟨fun none => ?_, fun r x holds => ⟨fun stop => ?_, ?_, fun serves calm shut hstaging b rest next => ⟨fun held => ?_, ?_⟩⟩⟩
  · rw [row, State.transferDone_none none]
  · rw [row, State.transferDone_shut holds stop]
  · exact ⟨_, row staging, State.transferDone_writesOnly holds staging⟩
  · obtain ⟨holder, raster, cmds⟩ := State.transferDone_held holds serves calm shut next held
    rw [hstaging]
    exact ⟨_, row none, holder, raster, cmds⟩
  · intro free last u kept
    subst last
    obtain ⟨-, -, ends⟩ := arbiterRows_complete s c
    obtain ⟨hact, hreplay⟩ := not_or.mp free
    rw [hstaging]
    exact ends r x b holds serves calm shut next (eq_false_of_ne_true hact) (not_not.mp hreplay) kept

/-! ### The end of a fill -/

namespace State

section
variable {s : State} {n : Nat} {f : Fill}

/-- A fill ends: its ashlar fills no more, and is written, but for one that goes back unwritten (R91, R119). -/
def filled (s : State) (n : Nat) (f : Fill) : State :=
  s.updRaster fun r => { r with
    filling := r.filling.filter fun g => g.ashlar ≠ n, written := if f.back then r.written else Raster.insertNat r.written n }

theorem filled_isFilling : (s.filled n f).raster.isFilling n = false := by
  simp [filled, Raster.isFilling]

theorem filled_isWritten (h : f.back = false) : (s.filled n f).raster.isWritten n = true := by
  simp only [filled, updRaster_raster, Raster.isWritten, h]
  exact contains_insertNat ..

variable (found : s.raster.filling.find? (fun f => f.ashlar = n) = some f)
include found

theorem fillDone_rest {rest : List Nat} (h : f.rest = some rest) : s.fillDone n = if rest = [] then s.filled n f else s := by
  rw [fillDone, found]
  dsimp only
  rw [h]
  rfl

theorem fillDone_running {c : Cmd} (h : f.rest = none) (hc : s.findCmd f.cmd = some c) : s.fillDone n =
    if (s.raster.ashlarBursts n).any (s.unwritten c) then s else (s.filled n f).progress f.cmd := by
  rw [fillDone, found]
  dsimp only
  rw [h]
  dsimp only
  rw [hc]
  rfl

end

theorem fillDone_none {s : State} {n : Nat} (h : s.raster.filling.find? (fun f => f.ashlar = n) = none) : s.fillDone n = s := by
  rw [fillDone, h]

end State

theorem fillsComplete : Clause.FillsComplete := by
  intro s n
  have row : exec (.fillComplete n) s = .next (s.fillDone n) := rfl
  refine ⟨fun none => by rw [row, State.fillDone_none none], fun f found => ⟨fun running c hc => ⟨fun open_ => ?_, fun closed => ?_⟩,
    fun rest stopped => ⟨fun more => ?_, fun done => ?_⟩⟩⟩
  · rw [row, State.fillDone_running found running hc, if_pos (List.any_eq_true.mpr open_)]
  · have none : ¬(s.raster.ashlarBursts n).any (s.unwritten c) = true := by
      intro any
      obtain ⟨a, ha, unwritten⟩ := List.any_eq_true.mp any
      exact absurd unwritten (ne_true_of_eq_false (closed a ha))
    rw [row, State.fillDone_running found running hc, if_neg none]
    refine ⟨rfl, fun hread hraw => ⟨_, rfl, ?_⟩⟩
    rw [State.progress_raster (s := s.filled n f) hc hread hraw]
    exact ⟨State.filled_isWritten, State.filled_isFilling, rfl⟩
  · rw [row, State.fillDone_rest found stopped, if_neg more]
  · rw [row, State.fillDone_rest found stopped, if_pos done]
    rfl

/-- Settles O43: the end of a transfer by what holds it and by what its bursts may store, the end of a fill by what it waits for. -/
theorem transfersAndFills : Obligations.TransfersAndFills := ⟨transferMovesBursts, fillsComplete⟩

end Sys2Proof.Machine
end

section
/-! SUPPORT. KEYSTONE accepted while no course runs (R75, R178, R223, R264, R421): what taking force leaves of the registers of
keystones and of the commands in flight. -/

namespace Sys2Proof.Machine

namespace State

/-! ### The keystones' registers and the numbers in flight -/

/-- The keystones' registers are as given, and the number of every command in flight passes a test. -/
def HasKeys (k : Keystone) (ok : Nat → Prop) (s : State) : Prop := s.ks = k ∧ ∀ c ∈ s.cmds, ok c.id

section
variable {k : Keystone} {ok : Nat → Prop}

theorem HasKeys.ite {p : Prop} [Decidable p] {t u : State} (ht : HasKeys k ok t) (hu : HasKeys k ok u) :
    HasKeys k ok (if p then t else u) := by
  split
  · exact ht
  · exact hu

theorem HasKeys.foldl {α : Type} {s : State} (has : HasKeys k ok s) {f : State → α → State} {l : List α}
    (hf : ∀ t x, HasKeys k ok t → HasKeys k ok (f t x)) : HasKeys k ok (l.foldl f s) := by
  induction l generalizing s with
  | nil => exact has
  | cons x l ih => exact ih (hf s x has)

variable {s : State} (has : HasKeys k ok s)
include has

/-- A change of other parts of the state. -/
theorem HasKeys.same {t : State} (hks : t.ks = s.ks) (hcmds : t.cmds = s.cmds) : HasKeys k ok t := by
  rw [HasKeys, hks, hcmds]
  exact has

theorem HasKeys.updLink {n : LinkId} {f : Link → Link} : HasKeys k ok (s.updLink n f) := has.same rfl rfl

theorem HasKeys.updSeq {f : Seq → Seq} : HasKeys k ok (s.updSeq f) := has.same rfl rfl

theorem HasKeys.updWeb {f : Web → Web} : HasKeys k ok (s.updWeb f) := has.same rfl rfl

theorem HasKeys.moveWeb {f : Web → Web} : HasKeys k ok (s.moveWeb f) := has.updWeb

theorem HasKeys.logErr {type host : Nat} {fs : List Nat} : HasKeys k ok (s.logErr type host fs) :=
  has.same (logErr_ks ..) (logErr_cmds ..)

theorem HasKeys.logLinkRun {type : Nat} {fs : List Nat} : HasKeys k ok (s.logLinkRun type fs) :=
  has.same (logLinkRun_ks ..) (logLinkRun_cmds ..)

theorem HasKeys.logCourse {type ch sub rank bank slot idx value tid : Nat} :
    HasKeys k ok (s.logCourse type ch sub rank bank slot idx value tid) :=
  has.same (logCourse_ks ..) (logCourse_cmds ..)

theorem HasKeys.finished {t : State} (done : Finished s t) : HasKeys k ok t := by
  obtain ⟨hs, ev, o, cs, rfl, -, fewer⟩ := done
  exact ⟨has.1, fun c hc => has.2 c (fewer.subset hc)⟩

theorem HasKeys.finish {id : Nat} {a : Answer} : HasKeys k ok (s.finish id a) := has.finished (finished_finish s id a)

theorem HasKeys.raise {n : Fin 96} : HasKeys k ok (s.raise n) := has.finished (raised_raise s n).finished

/-- A command in flight that keeps its number may change in all else. -/
theorem HasKeys.updCmd {id : Nat} {f : Cmd → Cmd} (hf : ∀ c, (f c).id = c.id) : HasKeys k ok (s.updCmd id f) := by
  refine ⟨has.1, fun d hd => ?_⟩
  obtain ⟨c, hc, rfl⟩ := List.mem_map.mp hd
  split
  · rw [hf]
    exact has.2 c hc
  · exact has.2 c hc

/-! ### Links -/

theorem HasKeys.setLink {n : LinkId} {st : LinkState} : HasKeys k ok (s.setLink n st) :=
  .ite has has.updLink.raise

theorem HasKeys.goDown {n : LinkId} {cause : Nat} : HasKeys k ok (s.goDown n cause) := by
  unfold State.goDown
  refine .ite has ?_
  split
  exact has.logLinkRun.updLink.setLink

theorem HasKeys.settleTrain {id : Nat} : HasKeys k ok (s.settleTrain id) := by
  unfold State.settleTrain
  split
  · exact has
  · refine .ite has ?_
    extract_lets links raised
    have kept : HasKeys k ok raised := has.foldl fun _ _ ht => ht.raise
    exact .ite kept.finish kept.finish

theorem HasKeys.trainEnd {n : LinkId} {passed silent : Bool} : HasKeys k ok (s.trainEnd n passed silent) := by
  unfold State.trainEnd
  extract_lets bit idle
  have kept : HasKeys k ok idle := has.updLink
  split
  · exact kept
  · exact (kept.updCmd fun _ => by rfl).settleTrain

theorem HasKeys.trainStop {n : LinkId} : HasKeys k ok (s.trainStop n) := .ite has.trainEnd has

theorem HasKeys.disableLink {n : LinkId} : HasKeys k ok (s.disableLink n) := by
  unfold State.disableLink
  extract_lets stopped fallen
  have kept : HasKeys k ok fallen := .ite has.trainStop.goDown has.trainStop
  exact .ite kept (kept.updLink.setLink)

theorem HasKeys.enableLink {n : LinkId} {rate : Fin 3} : HasKeys k ok (s.enableLink n rate) := has.updLink.setLink

theorem HasKeys.applyLink {n : LinkId} {old new : LinkCfg} : HasKeys k ok (s.applyLink n old new) :=
  .ite has (.ite has.disableLink (.ite has (.ite has.enableLink
    (.ite (.enableLink (.ite has.trainStop.goDown has.trainStop)) has))))

/-! ### The web loop and its pages -/

theorem HasKeys.setWeb {st : WebState} : HasKeys k ok (s.setWeb st) := .ite has has.moveWeb.logErr.raise

theorem HasKeys.acquire : HasKeys k ok s.acquire := has.setWeb.moveWeb

theorem HasKeys.commitWeb {c : WebCfg} : HasKeys k ok (s.commitWeb c) := by
  unfold State.commitWeb
  split
  · exact has.updWeb.acquire
  · exact .ite has.updWeb.updWeb.acquire has.updWeb

theorem HasKeys.cancelPages {which : Page → Bool} : HasKeys k ok (s.cancelPages which) := has.same rfl rfl

theorem HasKeys.ratioInForce {c : WebCfg} : HasKeys k ok (s.ratioInForce c) := by
  unfold State.ratioInForce
  refine .ite (.ite has.updWeb ?_) (.ite has.updWeb.updSeq has.updWeb)
  extract_lets logged
  have kept : HasKeys k ok logged := has.updWeb.foldl fun _ _ ht => ht.logCourse
  exact kept.cancelPages.raise

theorem HasKeys.settleWeb : HasKeys k ok s.settleWeb := by
  unfold State.settleWeb
  split
  · exact .ite has.ratioInForce has
  · exact has

theorem HasKeys.checkFloor : HasKeys k ok s.checkFloor := by
  unfold State.checkFloor
  dsimp only
  split
  · exact .ite has.updSeq.updSeq.raise has.updSeq
  · exact has.updSeq

/-! ### The forge pool -/

theorem HasKeys.settlePool : HasKeys k ok s.settlePool := has.same rfl rfl

theorem HasKeys.cutAnvil : HasKeys k ok s.cutAnvil := by
  unfold State.cutAnvil
  exact .ite (HasKeys.settlePool (has.same rfl rfl)) has.settlePool

theorem HasKeys.settleHalted : HasKeys k ok s.settleHalted :=
  .ite has.settleWeb.cutAnvil has

end

/-! ### KEYSTONE commands that complete -/

theorem completeKeys_accepted (s : State) (course : Nat) : (s.completeKeys course).ks.accepted = s.ks.accepted := by
  have emptied : HasKeys { s.ks with cmds := [] } (fun _ => True) { s with ks := { s.ks with cmds := [] } } :=
    ⟨rfl, fun _ _ => trivial⟩
  have completed : (s.completeKeys course).ks = { s.ks with cmds := [] } := (emptied.foldl fun _ _ ht => ht.finish).1
  rw [completed]

/-- A KEYSTONE command that waited is in flight no more. -/
theorem completeKeys_gone {s : State} {x : Nat × Nat} (hx : x ∈ s.ks.cmds) (course : Nat) :
    ∀ c ∈ (s.completeKeys course).cmds, c.id ≠ x.1 := by
  unfold completeKeys
  extract_lets cs
  have gone (l : List (Nat × Nat)) (hl : x ∈ l) (t : State) :
      ∀ c ∈ (l.foldl (fun acc y => acc.succeed y.1 (y.2 % 2 ^ 32) (course % 2 ^ 32)) t).cmds, c.id ≠ x.1 := by
    induction l generalizing t with
    | nil => exact absurd hl List.not_mem_nil
    | cons y l ih =>
      rcases List.mem_cons.mp hl with rfl | later
      · exact (HasKeys.foldl (ok := (· ≠ x.1)) ⟨rfl, finish_gone t x.1 _⟩ fun _ _ ht => ht.finish).2
      · exact ih later _
  exact gone cs hx _

/-! ### Settings that take force -/

/-- The accepted settings are in force, with the banks and the links that they set (R174, R251). -/
def applied (s : State) (new : Ks) : State :=
  let swapped := (s.inForce new).swapBanks
  swapped.partLinks.foldl (fun acc n => acc.applyLink n s.ks.force.link[n] new.link[n]) swapped

theorem takeForce_some {s : State} {new : Ks} (h : s.ks.accepted = some new) (course : Nat) : s.takeForce course =
    ((if new.webSet then (s.applied new).commitWeb new.web else s.applied new).settlePool.checkFloor).completeKeys course := by
  unfold takeForce
  rw [h]
  rfl

/-- Settings that have been accepted take force: none is accepted any more, and the KEYSTONE commands that waited are in flight no
more (R75, R178). -/
theorem takeForce_completes {s : State} {new : Ks} (h : s.ks.accepted = some new) (course : Nat) :
    (s.takeForce course).ks.accepted = none ∧
      ∀ x ∈ s.ks.cmds, ∀ c ∈ (s.takeForce course).cmds, c.id ≠ x.1 := by
  have start : HasKeys (s.inForce new).swapBanks.ks (fun _ => True) (s.inForce new).swapBanks := ⟨rfl, fun _ _ => trivial⟩
  have links : HasKeys (s.inForce new).swapBanks.ks (fun _ => True) (s.applied new) := start.foldl fun _ _ ht => ht.applyLink
  obtain ⟨settled, -⟩ := (HasKeys.ite (p := new.webSet = true) links.commitWeb links).settlePool.checkFloor
  rw [takeForce_some h]
  refine ⟨(completeKeys_accepted ..).trans (congrArg Keystone.accepted settled), fun x hx => completeKeys_gone ?_ course⟩
  rw [settled]
  exact hx

theorem acceptKey_idle {s : State} (hc : s.coursesRun = false) (cmd : Option Nat) :
    s.acceptKey cmd = ((s.keyTaken cmd).takeForce s.seq.number).settleHalted := by
  unfold acceptKey keyTaken
  dsimp only
  rw [hc]
  cases s.ks.accepted <;> cases cmd <;> simp

/-- A command's keystone while no course runs is in force at once, and the command has completed (R75, R178, R421). -/
theorem acceptKey_takes {s : State} (ha : s.ks.accepted = none) (hc : s.coursesRun = false) (id : Nat) :
    (s.acceptKey (some id)).keyView = (s.ks.shadow, s.ks.seq + 1, 2, s.raster, s.sr) ∧
      (s.acceptKey (some id)).ks.accepted = none ∧ ∀ c ∈ (s.acceptKey (some id)).cmds, c.id ≠ id := by
  have taken := keyTaken_accepted ha (some id)
  obtain ⟨accepted, gone⟩ := takeForce_completes taken s.seq.number
  have waits : (id, s.ks.seq + 1) ∈ (s.keyTaken (some id)).ks.cmds := List.mem_append_right _ List.mem_cons_self
  have settled : HasKeys _ (· ≠ id) ((s.keyTaken (some id)).takeForce s.seq.number).settleHalted :=
    .settleHalted ⟨rfl, gone _ waits⟩
  rw [acceptKey_idle hc]
  refine ⟨?_, (congrArg Keystone.accepted settled.1).trans accepted, settled.2⟩
  rw [keyView_settleHalted, takeForce_keyView taken, inForce_keyView]
  rfl

end State

/-- Settles O24: the keystone is accepted with its command waiting, and what it takes into force completes the command. -/
theorem idleKeystoneTakesForce : Obligations.IdleKeystoneTakesForce := by
  intro s i hr hd hwet hc ha
  have frame := State.sessionOnly_begun s i (op := 0x21) (by decide)
  have wet : ¬(s.issued 0x21 i).f 0 0 1 = 1 := fun h1 => absurd (hwet.symm.trans h1) (by decide)
  obtain ⟨view, accepted, gone⟩ := State.acceptKey_takes (s := s.begun 0x21 i)
    ((congrArg Keystone.accepted frame.ks).trans ha) (frame.coursesRun.trans hc) s.nextId
  rw [frame.ks, frame.raster] at view
  rw [exec_keystone hr, bodyKeystone_accepted (frame.keyRefusal.trans hd), if_neg wet]
  exact ⟨_, rfl, congrArg (·.1) view, accepted, congrArg (·.2.1) view, congrArg (·.2.2.1) view, gone,
    congrArg (·.2.2.2.1) view⟩

end Sys2Proof.Machine
end

section
/-! SUPPORT. FIRE_PHASE, LINK_TRAIN and a LINK_MSG that receives (R172, R241, R242, R248, R274). -/

namespace Sys2Proof.Machine

namespace State

theorem updLink_at (s : State) (n m : LinkId) (f : Link → Link) :
    (s.updLink n f).links[m] = if n = m then f s.links[m] else s.links[m] :=
  getElem_vmod ..

theorem updLink_here (s : State) (n : LinkId) (f : Link → Link) : (s.updLink n f).links[n] = f s.links[n] :=
  (updLink_at ..).trans (if_pos rfl)

theorem SessionOnly.updLink {s t : State} (a : SessionOnly s t) (n : LinkId) (f : Link → Link) :
    SessionOnly (s.updLink n f) (t.updLink n f) :=
  a.map (fun x => x.updLink n f) (fun _ _ _ _ _ _ => rfl) rfl rfl

theorem SessionOnly.link_here {s t : State} {n : LinkId} {f : Link → Link} (a : SessionOnly (s.updLink n f) t) :
    t.links[n] = f s.links[n] := by
  rw [a.links, updLink_here]

/-- The logs in the place of others. -/
theorem SessionOnly.own_logs {s t : State} {x : Logs} (a : SessionOnly { s with logs := x } t) :
    SessionOnly { s with logs := t.logs } t := by
  have own : t.logs = x := a.logs
  rw [own]
  exact a

/-! ### Fire phases -/

/-- A link's fire phase is in force at once, on the pages that run and in place of a phase that waits (R172). -/
def phased (s : State) (n : LinkId) (phi : Int) : State :=
  (s.updSeq fun q => { q with pages := q.pages.map fun p =>
    if p.active then { p with links := vmod p.links n fun l => { l with phase := phi } } else p }).updLink n fun l =>
      { l with phase := phi, phaseNext := none }

/-- The logs with the lines that a phase change skips, when it skips any (R274). -/
def phaseLogs (s : State) (n : LinkId) : Logs :=
  if s.phaseSkipped n = 0 then s.logs
  else (s.logWeb 0x0A06 n.val 0 s.web.st.code s.web.st.code (s.phaseSkipped n) 0xFFFF).logs

/-- A link's fire phase is in force at once, and the lines that it skips are logged (R172, R274). -/
def phasedLogged (s : State) (n : LinkId) (phi : Int) : State := { s.phased n phi with logs := (s.phased n phi).phaseLogs n }

theorem phaseLogs_eq (s : State) (n : LinkId) : { s with logs := s.phaseLogs n } =
    if s.phaseSkipped n = 0 then s
    else s.logWeb 0x0A06 n.val 0 s.web.st.code s.web.st.code (s.phaseSkipped n) 0xFFFF := by
  unfold phaseLogs
  split
  · rfl
  · rfl

theorem SessionOnly.phaseSkipped {s t : State} (a : SessionOnly s t) (n : LinkId) (phi : Int) :
    (t.phased n phi).phaseSkipped n = (s.phased n phi).phaseSkipped n :=
  a.same (fun x => (x.phased n phi).phaseSkipped n) fun _ _ _ _ _ _ => rfl

/-! ### Training -/

/-- A link in the search for alignment, for a command and from an instant on (R241). -/
def searching (id time : Nat) (l : Link) : Link :=
  { l with step := .search, stepStart := time, trainCmd := some id, testFrames := 0, testBad := false, echoes := 0
           trips := [], awaited := [] }

theorem trainStart_idle {s : State} {n : LinkId} (h : s.links[n].trainCmd = none) (id : Nat) :
    s.trainStart id n = s.updLink n (searching id s.time) := by
  have stays : s.trainStop n = s := by
    rw [trainStop, h]
    rfl
  unfold trainStart
  rw [stays]
  unfold enterStep updLink vmod vset
  simp [searching]

/-- Links that train for no command start training one after the other, each by itself. -/
theorem foldl_trainStart (id : Nat) {ns : List LinkId} (distinct : ns.Nodup) {s : State}
    (idle : ∀ n ∈ ns, s.links[n].trainCmd = none) :
    let t := ns.foldl (fun acc n => acc.trainStart id n) s
    t = { s with links := t.links } ∧
      ∀ n : LinkId, t.links[n] = if n ∈ ns then searching id s.time s.links[n] else s.links[n] := by
  induction ns generalizing s with
  | nil => exact ⟨rfl, fun n => (if_neg List.not_mem_nil).symm⟩
  | cons m ns ih =>
    obtain ⟨fresh, distinct⟩ := List.nodup_cons.mp distinct
    have others (n : LinkId) (hn : n ∈ ns) : (s.updLink m (searching id s.time)).links[n] = s.links[n] := by
      rw [updLink_at, if_neg fun e : m = n => fresh (e ▸ hn)]
    have later : ∀ n ∈ ns, (s.updLink m (searching id s.time)).links[n].trainCmd = none := by
      intro n hn
      rw [others n hn]
      exact idle n (List.mem_cons_of_mem _ hn)
    obtain ⟨rest, links⟩ := ih distinct later
    rw [List.foldl_cons, trainStart_idle (idle m List.mem_cons_self)]
    refine ⟨rest, fun n => (links n).trans ?_⟩
    rw [updLink_at]
    by_cases hn : m = n
    · subst hn
      simp [fresh]
    · simp [hn, Ne.symm hn]

/-- A LINK_TRAIN waits while any of its links still trains (R242). -/
theorem settleTrain_open {s : State} {id : Nat} {c : Cmd} (hc : s.findCmd id = some c) (hm : c.mask ≠ 0) :
    s.settleTrain id = s := by
  unfold settleTrain
  rw [hc]
  exact if_pos hm

/-- A packet's own meaning that changes its command alone. -/
theorem begun_updCmd {s : State} {op : Byte} {i : Issue} (hr : s.runs op i = true) (hop : op ≠ 0x07) (f : Cmd → Cmd) :
    ((s.begun op i).updCmd s.nextId f).cmds = s.cmds ++ [f { s.issued op i with prog := .event }] ∧
      s.SessionOnly ((s.begun op i).updCmd s.nextId f) := by
  obtain ⟨same, hosts, out⟩ := sessionOnly_begun s i hop
  have moved : (s.begun op i).updCmd s.nextId f = { s.begun op i with cmds := ((s.begun op i).updCmd s.nextId f).cmds } := rfl
  refine ⟨?_, ?_, hosts, out⟩
  · simp only [updCmd, begun, under, List.map_append, fresh_map (fresh_of_runs hr)]
    simp [issued]
  · rw [moved, same]

/-- The links of the part that a LINK_TRAIN names. -/
def trainLinks (s : State) (c : Cmd) : List LinkId := s.partLinks.filter fun n => c.p 0 / 2 ^ n.val % 2 = 1

theorem mem_trainLinks {s : State} {c : Cmd} {n : LinkId} :
    n ∈ s.trainLinks c ↔ (decide (n.val < s.part.links) && c.p 0 / 2 ^ n.val % 2 == 1) = true := by
  simp [trainLinks, partLinks, and_comm]

theorem trainLinks_nodup (s : State) (c : Cmd) : (s.trainLinks c).Nodup := ((List.nodup_finRange 32).filter _).filter _

/-- A link of a LINK_TRAIN is UP and has lines in a running page (R242). -/
def trainBusy (s : State) (c : Cmd) : Bool := (s.trainLinks c).any fun n => s.links[n].st == .up && s.hasLines n

theorem trainBusy_iff {s : State} {c : Cmd} : s.trainBusy c = true ↔
    ∃ n : LinkId, (decide (n.val < s.part.links) && c.p 0 / 2 ^ n.val % 2 == 1) = true ∧ s.links[n].st = .up ∧
      s.hasLines n = true := by
  simp only [trainBusy, List.any_eq_true, mem_trainLinks, Bool.and_eq_true, beq_iff_eq]

theorem SessionOnly.trainLinks {s t : State} (a : SessionOnly s t) (c : Cmd) : t.trainLinks c = s.trainLinks c :=
  a.same (fun x => x.trainLinks c) fun _ _ _ _ _ _ => rfl

theorem SessionOnly.trainBusy {s t : State} (a : SessionOnly s t) (c : Cmd) : t.trainBusy c = s.trainBusy c :=
  a.same (fun x => x.trainBusy c) fun _ _ _ _ _ _ => rfl

end State

/-! ### The clauses -/

theorem bodyFirePhase_now {c : Cmd} (hnow : c.f 0 8 1 = 1) (s : State) :
    let n : LinkId := Fin.ofNat 32 (c.f 0 0 5)
    let phi : Int := (BitVec.ofNat 32 (c.p 1)).toInt * 65536 + c.f 2 0 16
    bodyFirePhase c s = (s.phasedLogged n phi).finish c.id { r0 := (s.phased n phi).phaseSkipped n } := by
  intro n phi
  rw [State.phasedLogged, State.phaseLogs_eq]
  exact if_pos hnow

theorem bodyFirePhase_next {c : Cmd} (hnext : c.f 0 8 1 = 0) (s : State) :
    let n : LinkId := Fin.ofNat 32 (c.f 0 0 5)
    let phi : Int := (BitVec.ofNat 32 (c.p 1)).toInt * 65536 + c.f 2 0 16
    bodyFirePhase c s = (s.updLink n fun l => { l with phaseNext := some phi }).finish c.id {} :=
  if_neg fun hnow => absurd (hnext.symm.trans hnow) (by decide)

theorem firePhaseSetsPhase : Clause.FirePhaseSetsPhase := by
  intro s i hr c n phi
  have frame := State.sessionOnly_begun s i (op := 0x33) (by decide)
  have runs := State.submit_runs bodyFirePhase hr
  refine ⟨fun hnext => ?next, fun hnow => ?now⟩
  case next =>
    obtain ⟨answered, only⟩ := State.begun_map_finish hr (by decide)
      (fun x => x.updLink n fun l => { l with phaseNext := some phi }) (fun _ _ _ _ _ _ => rfl) {}
    exact ⟨_, congrArg Host.Outcome.next (runs.trans (bodyFirePhase_next hnext _)), answered,
      congrArg Link.phaseNext only.link_here, only⟩
  case now =>
    intro pages u
    obtain ⟨answered, only⟩ := State.begun_map_finish hr (by decide) (fun x => x.phasedLogged n phi)
      (fun _ _ _ _ _ _ => rfl) { r0 := (s.phased n phi).phaseSkipped n }
    have links := congrArg (fun v : Vector Link 32 => v[n].phase) only.links
    have row := runs.trans (bodyFirePhase_now hnow _)
    rw [frame.phaseSkipped] at row
    exact ⟨_, congrArg Host.Outcome.next row, answered, links.trans (congrArg Link.phase (State.updLink_here ..)),
      congrArg Seq.pages only.seq, only.own_logs, fun hnone => only.logs.trans (if_pos hnone)⟩

theorem bodyLinkTrain_busy {c : Cmd} {s : State} (hb : s.trainBusy c = true) :
    bodyLinkTrain c s = s.finish c.id { status := .resourceConflict } :=
  if_pos hb

theorem bodyLinkTrain_free {c : Cmd} {s : State} (hb : s.trainBusy c = false) : bodyLinkTrain c s =
    ((s.trainLinks c).foldl (fun acc n => acc.trainStart c.id n)
      (s.updCmd c.id fun x => { x with mask := BitVec.ofNat 32 (c.p 0) })).settleTrain c.id :=
  if_neg (Bool.eq_false_iff.mp hb)

/-- A parameter dword is a number below 2 ^ 32: as 32 bits it is 0 only when it is 0. -/
theorem ofNat_param_ne_zero {c : Cmd} {k : Nat} (h : c.p k ≠ 0) : BitVec.ofNat 32 (c.p k) ≠ 0 := by
  rw [Cmd.p, BitVec.ofNat_toNat, BitVec.setWidth_eq]
  exact fun e => h (congrArg BitVec.toNat e)

theorem trainingStarts : Clause.TrainingStarts := by
  intro s i hr c named busy
  have frame := State.sessionOnly_begun s i (op := 0x31) (by decide)
  have row : exec (.linkTrain i) s = .next (bodyLinkTrain c (s.begun 0x31 i)) :=
    congrArg Host.Outcome.next (State.submit_runs bodyLinkTrain hr)
  refine ⟨fun hbusy => ?busy, fun hfree hsome hidle => ?free⟩
  case busy =>
    rw [row, bodyLinkTrain_busy ((frame.trainBusy c).trans (State.trainBusy_iff.mpr hbusy))]
    exact ⟨_, rfl, State.begun_finish hr (by decide) _⟩
  case free =>
    have free : s.trainBusy c = false := Bool.eq_false_iff.mpr (mt State.trainBusy_iff.mp hfree)
    obtain ⟨cmds, waits⟩ := State.begun_updCmd hr (by decide) fun x => { x with mask := BitVec.ofNat 32 (c.p 0) }
    generalize hu : (s.begun 0x31 i).updCmd s.nextId (fun x => { x with mask := BitVec.ofNat 32 (c.p 0) }) = u at cmds waits
    obtain ⟨only, links⟩ := State.foldl_trainStart s.nextId (s.trainLinks_nodup c) (s := u) fun n _ => by
      rw [waits.links]
      exact hidle n
    generalize ht : (s.trainLinks c).foldl (fun acc n => acc.trainStart s.nextId n) u = t at only links
    have mine : t.cmds = s.cmds ++ [{ c with prog := .event, mask := BitVec.ofNat 32 (c.p 0) }] := by
      rw [only]
      exact cmds
    have found : t.findCmd s.nextId = some { c with prog := .event, mask := BitVec.ofNat 32 (c.p 0) } := by
      rw [State.findCmd, mine]
      exact State.fresh_find (State.fresh_of_runs hr) rfl
    have stays : bodyLinkTrain c (s.begun 0x31 i) = t := by
      rw [bodyLinkTrain_free ((frame.trainBusy c).trans free), frame.trainLinks, ← ht, ← hu]
      rw [← ht, ← hu] at found
      exact State.settleTrain_open found (ofNat_param_ne_zero hsome)
    rw [row, stays]
    rw [waits.time, waits.links] at links
    refine ⟨t, rfl, mine, fun n hn => ?_, fun n hn => ?_, ?_⟩
    · rw [links, if_pos (State.mem_trainLinks.mpr hn)]
      rfl
    · rw [links, if_neg fun hmem => absurd (State.mem_trainLinks.mp hmem) (Bool.eq_false_iff.mp hn)]
    · have moved := waits.map (fun x => { x with links := t.links }) (fun _ _ _ _ _ _ => rfl) rfl rfl
      rwa [← only] at moved

theorem bodyLinkMsg_receive {c : Cmd} (hrecv : c.f 0 9 1 = 1) (s : State) :
    let n : LinkId := Fin.ofNat 32 (c.f 0 0 5)
    bodyLinkMsg c s = match s.links[n].inbox with
      | [] => s.finish c.id {}
      | m :: rest => ((s.updLink n fun l => { l with inbox := rest }).emit (.hostWrite c.host (c.hostAddr 1) m)).finish c.id
          { r0 := m.length } :=
  if_pos hrecv

theorem messageIsReceived : Clause.MessageIsReceived := by
  intro s i hr c n hrecv
  have frame := State.sessionOnly_begun s i (op := 0x35) (by decide)
  have runs := (State.submit_runs bodyLinkMsg hr).trans (bodyLinkMsg_receive hrecv _)
  rw [frame.links] at runs
  rw [exec_linkMsg, runs]
  refine ⟨fun hnone => ?none, fun m rest hm => ?oldest⟩
  case none =>
    rw [show s.links[(Fin.ofNat 32 (c.f 0 0 5) : LinkId)].inbox = [] from hnone]
    exact ⟨_, rfl, State.begun_finish hr (by decide) {}⟩
  case oldest =>
    rw [show s.links[(Fin.ofNat 32 (c.f 0 0 5) : LinkId)].inbox = m :: rest from hm]
    obtain ⟨answered, only, sent⟩ := State.begun_report hr
      (u := ((s.begun 0x35 i).updLink n fun l => { l with inbox := rest }).emit (.hostWrite i.host (c.hostAddr 1) m))
      (xs := [.hostWrite i.host (c.hostAddr 1) m]) { r0 := m.length }
      ((frame.updLink n fun l => { l with inbox := rest }).trans (State.raised_emit ..).sessionOnly) rfl rfl rfl
    exact ⟨_, rfl, answered, sent _ List.mem_cons_self, congrArg Link.inbox only.link_here, only⟩

/-- Settles O27: a phase by when it takes force, a training by whether a link that it names carries lines, a message by what its
link holds. -/
theorem linkCommands : Obligations.LinkCommands := ⟨firePhaseSetsPhase, trainingStarts, messageIsReceived⟩

end Sys2Proof.Machine
end

section
/-! SUPPORT. What the drain leaves alone, and what settling it does (R165, R171, R181, R189): the halts that complete, the pages
that leave the queue, and the slots and markers that go with them. One lemma for each operation of the model, under its name. -/

namespace Sys2Proof.Machine

/-- A link has given up line slots and markers and taken none, and no line has come under way on it. -/
structure Link.Sheds (l k : Link) : Prop where
  slots : k.slots ⊆ l.slots
  markers : k.markers ⊆ l.markers
  idle : l.fetch.busy = false → k.fetch.busy = false

theorem Link.Sheds.refl (l : Link) : l.Sheds l := ⟨fun _ h => h, fun _ h => h, id⟩

theorem Link.Sheds.trans {l k m : Link} (a : l.Sheds k) (b : k.Sheds m) : l.Sheds m :=
  ⟨fun _ h => a.slots (b.slots h), fun _ h => a.markers (b.markers h), fun h => b.idle (a.idle h)⟩

namespace State

theorem updLink_other {s : State} {n m : LinkId} {f : Link → Link} (h : m ≠ n) : (s.updLink n f).links[m] = s.links[m] :=
  (updLink_at ..).trans (if_neg (Ne.symm h))

theorem DueOnly.refl (s : State) : s.DueOnly s := fun _ => rfl

theorem DueOnly.trans {s t u : State} (a : s.DueOnly t) (b : t.DueOnly u) : s.DueOnly u := fun c => by rw [b c, a c]

theorem DrainOnly.refl (s : State) : s.DrainOnly s := ⟨rfl, .refl s, fun _ => rfl, [], rfl⟩

theorem DrainOnly.trans {s t u : State} (a : s.DrainOnly t) (b : t.DrainOnly u) : s.DrainOnly u := by
  obtain ⟨ha, due, hosts, o, ho⟩ := a
  obtain ⟨hb, due', hosts', o', ho'⟩ := b
  refine ⟨?_, due.trans due', fun k => ?_, o' ++ o, by rw [ho', ho, List.append_assoc]⟩
  · rw [hb, ha]
  · rw [hosts' k, hosts k]

/-- What a frame of the drain says of a part of the state outside it. -/
theorem DrainOnly.same {s t : State} (a : s.DrainOnly t) {β : Type} (g : State → β)
    (hg : ∀ x hs ev cs o q w ls es lg n ch, g { x with hosts := hs, events := ev, cmds := cs, out := o, seq := q, web := w
                                                       links := ls, engines := es, logs := lg, free := n, chans := ch } = g x) :
    g t = g s := by
  rw [a.1]
  exact hg ..

theorem DrainOnly.due {s t : State} (a : s.DrainOnly t) : s.DueOnly t := a.2.1

theorem DrainOnly.raster {s t : State} (a : s.DrainOnly t) : t.raster = s.raster :=
  a.same State.raster fun _ _ _ _ _ _ _ _ _ _ _ _ => rfl

theorem DrainOnly.strips {s t : State} (a : s.DrainOnly t) : t.strips = s.strips :=
  a.same State.strips fun _ _ _ _ _ _ _ _ _ _ _ _ => rfl

theorem Finished.drainOnly {s t : State} (a : Finished s t) : s.DrainOnly t := by
  obtain ⟨hs, ev, o, cs, rfl, hosts, -⟩ := a
  refine ⟨rfl, .refl s, fun k => ?_, o, rfl⟩
  obtain ⟨q, b, v, hk⟩ := hosts k
  simp only [Fin.getElem_fin, hk]

section
variable {s₀ s : State} (a : s₀.DrainOnly s)
include a

theorem DrainOnly.updLink {n : LinkId} {f : Link → Link} : s₀.DrainOnly (s.updLink n f) :=
  a.trans ⟨rfl, .refl s, fun _ => rfl, [], rfl⟩

theorem DrainOnly.updSeq {f : Seq → Seq} : s₀.DrainOnly (s.updSeq f) := a.trans ⟨rfl, .refl s, fun _ => rfl, [], rfl⟩

theorem DrainOnly.updPageLink {id : BitVec 16} {n : LinkId} {f : PageLink → PageLink} : s₀.DrainOnly (s.updPageLink id n f) :=
  DrainOnly.updSeq a (f := fun q => { q with pages := q.pages.map fun p =>
    if p.id = id then { p with links := vmod p.links n f } else p })

theorem DrainOnly.updWeb {f : Web → Web} : s₀.DrainOnly (s.updWeb f) := a.trans ⟨rfl, .refl s, fun _ => rfl, [], rfl⟩

theorem DrainOnly.updEngine {e : Fin 34} {f : Engine → Engine} : s₀.DrainOnly (s.updEngine e f) :=
  a.trans ⟨rfl, .refl s, fun _ => rfl, [], rfl⟩

theorem DrainOnly.emit {o : Out} : s₀.DrainOnly (s.emit o) := a.trans ⟨rfl, .refl s, fun _ => rfl, [o], rfl⟩

theorem DrainOnly.sendFrame {n : LinkId} {ftype flags len line : Nat} {page : BitVec 16} {pageLine : Nat} {payload : List Byte} :
    s₀.DrainOnly (s.sendFrame n ftype flags len line page pageLine payload) := a.emit.updLink

theorem DrainOnly.logDrain {type : Nat} {n : LinkId} {cause engine strip page stripLine line value : Nat} :
    s₀.DrainOnly (s.logDrain type n cause engine strip page stripLine line value) :=
  a.trans ⟨rfl, .refl s, fun _ => rfl, [], rfl⟩

theorem DrainOnly.logLinkRun {type : Nat} {fs : List Nat} : s₀.DrainOnly (s.logLinkRun type fs) :=
  a.trans ⟨rfl, .refl s, fun _ => rfl, [], rfl⟩

theorem DrainOnly.raise {n : Fin 96} : s₀.DrainOnly (s.raise n) := a.trans (raised_raise s n).finished.drainOnly

end

/-! ### Settling -/

/-- The drain has settled: pages may have ended and a halt may have completed. The web loop stands as it did, engines stay in
service or out of it, and links have only given up lines. -/
structure Settles (s t : State) : Prop where
  drain : s.DrainOnly t
  web : t.web = s.web
  engines : ∀ e : Fin 34, t.engines[e].st = s.engines[e].st
  links : ∀ n : LinkId, s.links[n].Sheds t.links[n]

theorem Settles.refl (s : State) : s.Settles s := ⟨.refl s, rfl, fun _ => rfl, fun _ => .refl _⟩

theorem Settles.trans {s t u : State} (a : s.Settles t) (b : t.Settles u) : s.Settles u where
  drain := a.drain.trans b.drain
  web := b.web.trans a.web
  engines e := (b.engines e).trans (a.engines e)
  links n := (a.links n).trans (b.links n)

theorem Finished.settles {s t : State} (a : Finished s t) : s.Settles t := by
  have drain := a.drainOnly
  obtain ⟨hs, ev, o, cs, rfl, -, -⟩ := a
  exact ⟨drain, rfl, fun _ => rfl, fun _ => .refl _⟩

theorem Settles.ite {P : Prop} [Decidable P] {s t u : State} (ht : s.Settles t) (hu : s.Settles u) :
    s.Settles (if P then t else u) := by
  split
  · exact ht
  · exact hu

section
variable {s₀ s : State} (a : s₀.Settles s)
include a

theorem Settles.foldl {α : Type} {f : State → α → State} {l : List α}
    (hf : ∀ t x, s₀.Settles t → s₀.Settles (f t x)) : s₀.Settles (l.foldl f s) := by
  induction l generalizing s with
  | nil => exact a
  | cons x l ih => exact ih (hf s x a)

theorem Settles.updSeq {f : Seq → Seq} : s₀.Settles (s.updSeq f) :=
  a.trans ⟨(DrainOnly.refl s).updSeq, rfl, fun _ => rfl, fun _ => .refl _⟩

theorem Settles.updPage {id : BitVec 16} {f : Page → Page} : s₀.Settles (s.updPage id f) := a.updSeq

theorem Settles.updLink {n : LinkId} {f : Link → Link} (hf : ∀ l : Link, l.Sheds (f l)) : s₀.Settles (s.updLink n f) := by
  refine a.trans ⟨(DrainOnly.refl s).updLink, rfl, fun _ => rfl, fun m => ?_⟩
  rw [updLink_at]
  split
  · exact hf _
  · exact .refl _

/-- A change of what is due on the channels. -/
theorem Settles.setChans {v : Vector Chan 2} (hv : ∀ c : ChanId, v[c] = { s.chans[c] with due := v[c].due }) :
    s₀.Settles { s with chans := v } :=
  a.trans ⟨⟨rfl, hv, fun _ => rfl, [], rfl⟩, rfl, fun _ => rfl, fun _ => .refl _⟩

/-- A change of every engine that leaves it in service or out of it. -/
theorem Settles.mapEngines {f : Engine → Engine} (hf : ∀ e : Engine, (f e).st = e.st) :
    s₀.Settles { s with engines := s.engines.map f } := by
  refine a.trans ⟨⟨rfl, .refl s, fun _ => rfl, [], rfl⟩, rfl, fun e => ?_, fun _ => .refl _⟩
  rw [show (s.engines.map f)[e] = f s.engines[e] from Vector.getElem_map ..]
  exact hf _

/-- A change of every link by which it gives up lines. -/
theorem Settles.mapLinks {f : Link → Link} (hf : ∀ l : Link, l.Sheds (f l)) :
    s₀.Settles { s with links := s.links.map f } := by
  refine a.trans ⟨⟨rfl, .refl s, fun _ => rfl, [], rfl⟩, rfl, fun _ => rfl, fun m => ?_⟩
  rw [show (s.links.map f)[m] = f s.links[m] from Vector.getElem_map ..]
  exact hf _

theorem Settles.emit {o : Out} : s₀.Settles (s.emit o) := a.trans (raised_emit s o).finished.settles

theorem Settles.raise {n : Fin 96} : s₀.Settles (s.raise n) := a.trans (raised_raise s n).finished.settles

theorem Settles.finish {id : Nat} {x : Answer} : s₀.Settles (s.finish id x) := a.trans (finished_finish s id x).settles

theorem Settles.useFree : s₀.Settles s.useFree :=
  a.trans ⟨⟨rfl, .refl s, fun _ => rfl, [], rfl⟩, rfl, fun _ => rfl, fun _ => .refl _⟩

/-! ### Operations of the model's file Pages -/

theorem Settles.checkFloor : s₀.Settles s.checkFloor := by
  unfold State.checkFloor
  extract_lets now was s1
  have noted : s₀.Settles s1 := a.updSeq
  clear_value now was
  split
  · exact .ite noted.updSeq.raise noted
  · exact noted

theorem Settles.noteLast {page : BitVec 16} : s₀.Settles (s.noteLast page) := by
  unfold State.noteLast
  split
  · exact a
  · exact a.updSeq

theorem Settles.noteSkip {page : BitVec 16} : s₀.Settles (s.noteSkip page) := by
  unfold State.noteSkip
  split
  · exact .ite a.noteLast a
  · exact a

theorem Settles.sendFrame {n : LinkId} {ftype flags len line : Nat} {page : BitVec 16} {pageLine : Nat} {payload : List Byte} :
    s₀.Settles (s.sendFrame n ftype flags len line page pageLine payload) :=
  a.emit.updLink fun _ => ⟨fun _ h => h, fun _ h => h, id⟩

theorem Settles.flush : s₀.Settles s.flush :=
  a.foldl fun _ _ ht => ht.sendFrame.updLink fun _ => ⟨fun _ h => h, fun _ h => h, id⟩

theorem Settles.dropPages {which : Page → Bool} : s₀.Settles (s.dropPages which) :=
  a.updSeq.mapLinks fun _ => ⟨List.filter_sublist.subset, List.filter_sublist.subset, id⟩

theorem Settles.stopFill : s₀.Settles s.stopFill := by
  unfold State.stopFill
  extract_lets rest s1
  have stopped : s₀.Settles { s1 with
      links := s1.links.map fun l => { l with fetch := { l.fetch with want := [], busy := false } } } :=
    a.updSeq.mapLinks fun _ => ⟨fun _ h => h, fun _ h => h, fun _ => rfl⟩
  refine stopped.setChans fun c => ?_
  rw [show (Vector.ofFn fun c : Fin 2 => rest c s1.chans[c])[c] = rest c s1.chans[c] from Vector.getElem_ofFn ..]

theorem Settles.endPages : s₀.Settles s.endPages := by
  unfold State.endPages
  extract_lets s1 s2
  have dropped : s₀.Settles s2 := a.dropPages.stopFill.updSeq
  exact (dropped.mapLinks (f := fun l => { l with fetch := {}, slots := [] }) fun _ =>
    ⟨List.nil_subset _, fun _ h => h, fun _ => rfl⟩).mapEngines fun _ => rfl

theorem Settles.haltDone : s₀.Settles s.haltDone := by
  unfold State.haltDone
  split
  exact a.useFree.updSeq.foldl fun _ _ ht => ht.finish

theorem Settles.settlePages : s₀.Settles s.settlePages := by
  unfold State.settlePages
  extract_lets s1
  have dropped : s₀.Settles s1 := a.dropPages
  split
  · exact .ite (.ite dropped dropped.haltDone) (.ite (.ite dropped.endPages.flush.haltDone dropped) dropped)
  · exact dropped

/-! ### Operations of the model's file Drain -/

theorem Settles.pageFilled {id : BitVec 16} : s₀.Settles (s.pageFilled id) := by
  unfold State.pageFilled
  split
  · exact a
  · exact .ite a.updPage.updSeq.raise.settlePages a

theorem Settles.endLine {n : LinkId} {page : BitVec 16} : s₀.Settles (s.endLine n page) := by
  have idle : s₀.Settles (s.updFetch n fun f => { f with busy := false }) :=
    a.updLink fun _ => ⟨fun _ h => h, fun _ h => h, fun _ => rfl⟩
  exact idle.checkFloor.pageFilled

end

/-- At the end of a line none is under way on its link. -/
theorem endLine_idle (s : State) (n : LinkId) (page : BitVec 16) : (s.endLine n page).links[n].fetch.busy = false := by
  have settled : (s.updFetch n fun f => { f with busy := false }).Settles (s.endLine n page) :=
    (Settles.refl _).checkFloor.pageFilled
  refine (settled.links n).idle ?_
  exact congrArg (fun l : Link => l.fetch.busy) (updLink_here ..)

end State

end Sys2Proof.Machine
end

section
/-! SUPPORT. Markers at their boundaries and fire instants (R171, R218, R235, R251, R253, R273). -/

namespace Sys2Proof.Machine

/-- A link without a marker and without the slot of its line. -/
def Link.dropLine (l : Link) (m : Marker) : Link :=
  { l with markers := l.markers.filter (fun k => k ≠ m), slots := l.slots.filter fun x => x.page ≠ m.page || x.line ≠ m.line }

/-- A line that a link has dropped stays gone while the link only gives up others. -/
theorem Link.Sheds.dropped {l k : Link} {m : Marker} (a : (l.dropLine m).Sheds k) :
    m ∉ k.markers ∧ ∀ x ∈ k.slots, x.page = m.page → x.line ≠ m.line := by
  refine ⟨fun h => ?_, fun x h hp => ?_⟩
  · exact of_decide_eq_true (List.mem_filter.mp (a.markers h)).2 rfl
  · have kept := (List.mem_filter.mp (a.slots h)).2
    simpa [hp] using kept

namespace State

/-- A link of the device drops a line (R218). -/
def dropLine (s : State) (n : LinkId) (m : Marker) : State :=
  (s.updLink n fun l => { l with markers := l.markers.filter fun k => k ≠ m }).freeSlot n m.page m.line

theorem dropLine_here (s : State) (n : LinkId) (m : Marker) : (s.dropLine n m).links[n] = s.links[n].dropLine m := by
  unfold dropLine freeSlot
  rw [updLink_here, updLink_here]
  rfl

theorem dropLine_drainOnly (s : State) (n : LinkId) (m : Marker) : s.DrainOnly (s.dropLine n m) :=
  (DrainOnly.refl s).updLink.updLink

/-- A marker leaves (R235, R273). -/
def markerLeft (s : State) (n : LinkId) (m : Marker) : State :=
  (s.emit (.marker n m.boundary m.fine (BitVec.ofNat 8 m.count))).updLink n fun l => { l with
    markers := l.markers.map fun k => if k = m then { k with sent := true } else k
    lastMark := some m.boundary, marked := l.marked + 1, sinceEcho := l.sinceEcho + 1
    held := l.held.filter fun h => 0 < (h + 2 ^ 32 - m.count) % 2 ^ 32 ∧ (h + 2 ^ 32 - m.count) % 2 ^ 32 < 2 ^ 31
    laneFree := if s.time < l.laneFree then l.laneFree + 3 * s.symOf n else l.laneFree }

/-- A marker does not leave, and its line is skipped (R251, R253). -/
def markerSkipped (s : State) (n : LinkId) (m : Marker) : State :=
  (((s.dropLine n m).countSkips 1).noteSkip m.page).checkFloor.settlePages

/-- A line has fired (R171, R218). -/
def lineFired (s : State) (n : LinkId) (m : Marker) : State := ((s.dropLine n m).noteLast m.page).checkFloor.settlePages

theorem fireMarker_none {s : State} {n : LinkId} (h : (s.links[n].markers.find? fun m => !m.sent) = none) :
    s.fireMarker n = s := by
  unfold fireMarker
  rw [h]

theorem fireMarker_some {s : State} {n : LinkId} {m : Marker} (h : (s.links[n].markers.find? fun m => !m.sent) = some m) :
    s.fireMarker n = if s.time < m.boundary then s else if !s.carries n then s.markerSkipped n m else s.markerLeft n m := by
  unfold fireMarker
  rw [h]
  rfl

theorem fireInstant_none {s : State} {n : LinkId}
    (h : (s.links[n].markers.find? fun m => m.sent && decide (m.instant ≤ s.time)) = none) : s.fireInstant n = s := by
  unfold fireInstant
  rw [h]

theorem fireInstant_some {s : State} {n : LinkId} {m : Marker}
    (h : (s.links[n].markers.find? fun m => m.sent && decide (m.instant ≤ s.time)) = some m) :
    s.fireInstant n = s.lineFired n m := by
  unfold fireInstant
  rw [h]
  rfl

theorem markerLeft_here (s : State) (n : LinkId) (m : Marker) : (s.markerLeft n m).links[n] = { s.links[n] with
    markers := s.links[n].markers.map fun k => if k = m then { k with sent := true } else k
    lastMark := some m.boundary, marked := s.links[n].marked + 1, sinceEcho := s.links[n].sinceEcho + 1
    held := s.links[n].held.filter fun h => 0 < (h + 2 ^ 32 - m.count) % 2 ^ 32 ∧ (h + 2 ^ 32 - m.count) % 2 ^ 32 < 2 ^ 31
    laneFree := if s.time < s.links[n].laneFree then s.links[n].laneFree + 3 * s.symOf n else s.links[n].laneFree } :=
  updLink_here ..

/-- The board holds the frame of a marker that has left no more, nor any that it did not hold before (R238). -/
theorem markerLeft_held {s : State} {n : LinkId} {m : Marker} {h : Nat} (held : h ∈ (s.markerLeft n m).links[n].held) :
    h ∈ s.links[n].held ∧ h ≠ m.count := by
  rw [markerLeft_here] at held
  obtain ⟨mem, ahead⟩ := List.mem_filter.mp held
  obtain ⟨ahead, -⟩ := of_decide_eq_true ahead
  refine ⟨mem, fun same => ?_⟩
  rw [same, Nat.add_sub_cancel_left, Nat.mod_self] at ahead
  exact absurd ahead (Nat.lt_irrefl 0)

theorem markerSkipped_settles (s : State) (n : LinkId) (m : Marker) :
    ((s.dropLine n m).countSkips 1).Settles (s.markerSkipped n m) :=
  (Settles.refl _).noteSkip.checkFloor.settlePages

theorem lineFired_settles (s : State) (n : LinkId) (m : Marker) : (s.dropLine n m).Settles (s.lineFired n m) :=
  (Settles.refl _).noteLast.checkFloor.settlePages

end State

theorem exec_fireMarker (n : LinkId) (s : State) : exec (.fireMarker n) s = .next (s.fireMarker n) := rfl

theorem exec_fireInstant (n : LinkId) (s : State) : exec (.fireInstant n) s = .next (s.fireInstant n) := rfl

theorem markersLeave : Clause.MarkersLeave := by
  intro s n first
  rw [exec_fireMarker]
  refine ⟨fun h => congrArg _ (State.fireMarker_none h), fun m hm => ?_⟩
  rw [State.fireMarker_some hm]
  refine ⟨fun early => congrArg _ (if_pos early), fun due carries => ?leaves, fun due silent => ?skipped⟩
  case leaves =>
    rw [if_neg (Nat.not_lt.mpr due), carries]
    have here := s.markerLeft_here n m
    refine ⟨s.markerLeft n m, rfl, rfl, ?_, ?_, ?_, fun h => State.markerLeft_held, ?_, fun k hk => State.updLink_other hk⟩
    all_goals rw [here]
  case skipped =>
    rw [if_neg (Nat.not_lt.mpr due), silent]
    have settled := s.markerSkipped_settles n m
    have links : ((s.dropLine n m).countSkips 1).links[n].Sheds (s.markerSkipped n m).links[n] := settled.links n
    rw [show ((s.dropLine n m).countSkips 1).links[n] = s.links[n].dropLine m from s.dropLine_here n m] at links
    obtain ⟨marker, slot⟩ := links.dropped
    exact ⟨s.markerSkipped n m, rfl, (s.dropLine_drainOnly n m).updWeb.trans settled.drain, marker, settled.web, slot⟩

theorem linesFire : Clause.LinesFire := by
  intro s n first
  rw [exec_fireInstant]
  refine ⟨fun h => congrArg _ (State.fireInstant_none h), fun m hm => ?_⟩
  rw [State.fireInstant_some hm]
  have settled := s.lineFired_settles n m
  have links := settled.links n
  rw [s.dropLine_here n m] at links
  obtain ⟨marker, slot⟩ := links.dropped
  exact ⟨s.lineFired n m, rfl, (s.dropLine_drainOnly n m).trans settled.drain, marker, settled.web, slot⟩

end Sys2Proof.Machine
end

section
/-! SUPPORT. LINE frames as they go out, and the frames of lines that come too late (R219, R234, R238, R250, R254). -/

namespace Sys2Proof.Machine

namespace State

/-- The header of the LINE frame of a line (R231, R234). -/
def lineHeader (s : State) (n : LinkId) (p : Page) (i flag : Nat) : BitVec 128 :=
  frameHeader n 1 (flag + (if i + 1 = p.links[n].lines then 4 else 0) + 16 * (s.waveBank n p.links[n].pitch).val)
    (if p.links[n].blank then s.links[n].board.maxWords else s.pageWords p.links[n]) (p.links[n].lineNo i) p.id
    s.links[n].seq i

/-- The LINE frame of a line (R231, R234). -/
def lineFrameOf (s : State) (n : LinkId) (p : Page) (i flag : Nat) (payload : List Byte) : Out :=
  .frame n (s.lineHeader n p i flag) payload (crc32 (headerBytes (s.lineHeader n p i flag) ++ payload))

/-- A link's lane has carried the frame of a line: its SEQ and what its board holds have moved on, and nothing has happened on
another link (R232, R238). -/
structure LaneTakes (s t : State) (n : LinkId) (count : Nat) : Prop where
  drain : s.DrainOnly t
  seq : t.links[n].seq = s.links[n].seq + 1
  held : t.links[n].held = s.links[n].held ++ [count]
  others : ∀ k, k ≠ n → t.links[k] = s.links[k]

/-- What is put out on top of a state that only the drain has changed has been put out since. -/
theorem DrainOnly.sent {s t u : State} {o : Out} (a : s.DrainOnly t) (h : u.out = o :: t.out) : s.Sent u o := by
  obtain ⟨-, -, -, xs, hx⟩ := a
  exact ⟨o :: xs, by rw [h, hx]; rfl, List.mem_cons_self⟩

theorem DrainOnly.setOut {s t : State} (a : s.DrainOnly t) {l : List Out} (h : ∃ o, l = o ++ s.out) :
    s.DrainOnly { t with out := l } := by
  obtain ⟨parts, due, hosts, -⟩ := a
  refine ⟨?_, due, hosts, h⟩
  rw [parts]

/-! ### A LINE frame -/

theorem sendLine_here (s : State) (n : LinkId) (p : Page) (i flag : Nat) (payload : List Byte) :
    (s.sendLine n p i flag payload).links[n] = { s.links[n] with
      seq := s.links[n].seq + 1, held := s.links[n].held ++ [p.links[n].lineNo i]
      laneFree := max s.time s.links[n].laneFree + (24 + payload.length) * s.symOf n
      bank := s.waveBank n p.links[n].pitch, autoStarted := true } :=
  (updLink_here ..).trans (congrArg (fun k : Link => { k with
    held := k.held ++ [p.links[n].lineNo i], bank := s.waveBank n p.links[n].pitch, autoStarted := true }) (updLink_here ..))

theorem sendLine_takes (s : State) (n : LinkId) (p : Page) (i flag : Nat) (payload : List Byte) :
    s.LaneTakes (s.sendLine n p i flag payload) n (p.links[n].lineNo i) where
  drain := (DrainOnly.refl s).sendFrame.updLink.updPageLink
  seq := by rw [sendLine_here]
  held := by rw [sendLine_here]
  others _ hk := (updLink_other hk).trans (updLink_other hk)

/-- The frame of a line that needs a slot has the width of its strip (R234). -/
theorem lineFrameOf_filled (s : State) {n : LinkId} {p : Page} (i flag : Nat) (payload : List Byte)
    (blank : p.links[n].blank = false) : s.lineFrameOf n p i flag payload =
      s.frameOf n 1 (flag + (if i + 1 = p.links[n].lines then 4 else 0) + 16 * (s.waveBank n p.links[n].pitch).val)
        (s.pageWords p.links[n]) (p.links[n].lineNo i) p.id i payload := by
  unfold lineFrameOf lineHeader
  rw [blank]
  rfl

theorem countNoData_sendLine (s : State) (n : LinkId) (p : Page) (i flag : Nat) (payload : List Byte) :
    ((s.sendLine n p i flag payload).countNoData n).links[n].noData = satAdd 0xFFFF s.links[n].noData 1 := by
  unfold countNoData
  rw [updLink_here, sendLine_here]

section
variable {s t : State} {n : LinkId} {count : Nat} (a : s.LaneTakes t n count)
include a

theorem LaneTakes.updLink {f : Link → Link} (hf : ∀ l : Link, (f l).seq = l.seq ∧ (f l).held = l.held) :
    s.LaneTakes (t.updLink n f) n count where
  drain := a.drain.updLink
  seq := by rw [updLink_here, (hf _).1, a.seq]
  held := by rw [updLink_here, (hf _).2, a.held]
  others k hk := (updLink_other hk).trans (a.others k hk)

theorem LaneTakes.countNoData : s.LaneTakes (t.countNoData n) n count := a.updLink fun _ => ⟨rfl, rfl⟩

theorem LaneTakes.logLinkRun {type : Nat} {fs : List Nat} : s.LaneTakes (t.logLinkRun type fs) n count :=
  ⟨a.drain.logLinkRun, a.seq, a.held, a.others⟩

/-- A frame that has gone out on top of what was put out before. -/
theorem LaneTakes.sends {u : State} {o : Out} (before : s.DrainOnly u) (h : t.out = o :: u.out) :
    s.DrainOnly t ∧ s.Sent t o ∧ t.links[n].seq = s.links[n].seq + 1 ∧ t.links[n].held = s.links[n].held ++ [count] ∧
      ∀ k, k ≠ n → t.links[k] = s.links[k] :=
  ⟨a.drain, before.sent h, a.seq, a.held, a.others⟩

end

/-! ### An uncorrectable word of the slot -/

/-- A read of a slot reaches no more than the drain, and leaves the web loop. -/
theorem slotUe_settled (s : State) (n : LinkId) (p : Page) (i x : Nat) :
    s.DrainOnly (s.slotUe n p i x) ∧ (s.slotUe n p i x).web = s.web ∧ (s.slotUe n p i x).links = (s.updLink n fun k => { k with
      slots := k.slots.map fun y => if y.page = p.id ∧ y.line = i then { y with poison := true } else y }).links := by
  refine ⟨(DrainOnly.refl s).updLink.logDrain.raise, ?_⟩
  unfold slotUe
  obtain ⟨hs, ev, o, raised, -⟩ := raised_raise _ _
  rw [raised]
  exact ⟨rfl, rfl⟩

theorem slotUe_here (s : State) (n : LinkId) (p : Page) (i x : Nat) : (s.slotUe n p i x).links[n] = { s.links[n] with
    slots := s.links[n].slots.map fun y => if y.page = p.id ∧ y.line = i then { y with poison := true } else y } := by
  obtain ⟨-, -, links⟩ := s.slotUe_settled n p i x
  rw [links]
  exact updLink_here ..

theorem slotUe_symOf (s : State) (n : LinkId) (p : Page) (i x : Nat) : (s.slotUe n p i x).symOf n = s.symOf n := by
  unfold symOf
  rw [slotUe_here]

/-- A word of a slot does not show in the header of a frame. -/
theorem slotUe_lineHeader (s : State) (n : LinkId) (p : Page) (i x flag : Nat) :
    (s.slotUe n p i x).lineHeader n p i flag = s.lineHeader n p i flag := by
  obtain ⟨drain, web, -⟩ := s.slotUe_settled n p i x
  have settings : (s.slotUe n p i x).ks = s.ks := drain.same State.ks fun _ _ _ _ _ _ _ _ _ _ _ _ => rfl
  have time : (s.slotUe n p i x).time = s.time := drain.same State.time fun _ _ _ _ _ _ _ _ _ _ _ _ => rfl
  have words : (s.slotUe n p i x).pageWords p.links[n] = s.pageWords p.links[n] :=
    drain.same (fun y => y.pageWords p.links[n]) fun _ _ _ _ _ _ _ _ _ _ _ _ => rfl
  unfold lineHeader waveBank estNow
  rw [settings, time, words, web, slotUe_here]

theorem slotUe_lineFrameOf (s : State) (n : LinkId) (p : Page) (i x flag : Nat) (payload : List Byte) :
    (s.slotUe n p i x).lineFrameOf n p i flag payload = s.lineFrameOf n p i flag payload := by
  unfold lineFrameOf
  rw [slotUe_lineHeader]

/-- A frame that goes out after an uncorrectable word of its line's slot. -/
theorem LaneTakes.after_slotUe {s t : State} {n : LinkId} {p : Page} {i x count : Nat}
    (a : (s.slotUe n p i x).LaneTakes t n count) : s.LaneTakes t n count := by
  obtain ⟨drain, seq, held, others⟩ := a
  obtain ⟨before, -, links⟩ := s.slotUe_settled n p i x
  rw [slotUe_here] at seq held
  refine ⟨before.trans drain, seq, held, fun k hk => (others k hk).trans ?_⟩
  rw [links]
  exact updLink_other hk

/-- A LINE frame that ends early, after a part of its payload (R250). -/
def sendPart (s : State) (n : LinkId) (p : Page) (i : Nat) (part : List Byte) : State :=
  { s.sendLine n p i 0 part with out := .abortedFrame n (s.lineHeader n p i 0) part :: s.out }

theorem sendPart_takes (s : State) (n : LinkId) (p : Page) (i : Nat) (part : List Byte) :
    s.LaneTakes (s.sendPart n p i part) n (p.links[n].lineNo i) := by
  obtain ⟨drain, seq, held, others⟩ := s.sendLine_takes n p i 0 part
  exact ⟨drain.setOut ⟨[_], rfl⟩, seq, held, others⟩

/-- The lane is free sooner after a LINE frame that ends early, which is counted and logged (R250, R256). -/
def sendBroken (s : State) (n : LinkId) (p : Page) (i : Nat) (part : List Byte) : State :=
  ((s.sendPart n p i part).updLink n fun z => { z with
    aborted := satAdd 0xFFFF z.aborted 1, laneFree := z.laneFree - 4 * s.symOf n }).logLinkRun 0x0904
      (linkFields n 0 3 3 (p.links[n].lineNo i) p.id.toNat i)

theorem sendBroken_takes (s : State) (n : LinkId) (p : Page) (i : Nat) (part : List Byte) :
    s.LaneTakes (s.sendBroken n p i part) n (p.links[n].lineNo i) := by
  refine LaneTakes.logLinkRun (LaneTakes.updLink (s.sendPart_takes n p i part) ?_)
  exact fun _ => ⟨rfl, rfl⟩

/-- What goes out for a line whose slot is sound, by what the slot's words turn out to be while it is read (R219, R250). -/
def sendImage (s : State) (n : LinkId) (p : Page) (i : Nat) (image : List Byte) : SlotRead → State
  | .good => s.sendLine n p i 0 image
  | .badBefore x => (s.slotUe n p i x.toNat).sendLine n p i 1 []
  | .badDuring x k => (s.slotUe n p i x.toNat).sendBroken n p i (image.take k)

/-! ### The cases of a LINE frame -/

theorem tooWide_iff (s : State) {n : LinkId} {l : PageLink} :
    s.tooWide n l = true ↔ s.links[n].board.maxWords < s.pageWords l := decide_eq_true_iff

/-- A link may send a LINE frame of a line now (R238). -/
def mayFrame (s : State) (n : LinkId) (p : Page) (i : Nat) : Bool :=
  s.carries n && s.boardTakes n (p.links[n].lineNo i) && decide (s.links[n].laneFree ≤ s.time)

theorem mayFrame_eq {s : State} {n : LinkId} {p : Page} {i : Nat} : s.mayFrame n p i =
    !(!s.carries n || !s.boardTakes n (p.links[n].lineNo i) || decide (s.time < s.links[n].laneFree)) := by
  simp only [mayFrame, Bool.not_or, Bool.not_not, ← decide_not, Nat.not_lt]

theorem lineFrame_none {s : State} {n : LinkId} (h : s.nextFrame n = none) (ue : SlotRead) : s.lineFrame n ue = s := by
  unfold lineFrame
  rw [h]

section
variable {s : State} {n : LinkId} {p : Page} {i : Nat} (next : s.nextFrame n = some (p, i)) (ue : SlotRead)
include next

theorem lineFrame_blocked (clear : s.mayFrame n p i = false) : s.lineFrame n ue = s := by
  rw [mayFrame_eq, Bool.not_eq_false'] at clear
  unfold lineFrame
  rw [next]
  exact if_pos clear

section
variable (clear : s.mayFrame n p i = true)
include clear

theorem lineFrame_blank (blank : p.links[n].blank = true) : s.lineFrame n ue = s.sendLine n p i 2 [] := by
  rw [mayFrame_eq, Bool.not_eq_true'] at clear
  unfold lineFrame
  rw [next]
  exact (if_neg (Bool.eq_false_iff.mp clear)).trans (if_pos blank)

theorem lineFrame_empty (blank : p.links[n].blank = false) (slot : s.slotOf n p.id i = none) : s.lineFrame n ue = s := by
  rw [mayFrame_eq, Bool.not_eq_true'] at clear
  unfold lineFrame
  rw [next]
  refine (if_neg (Bool.eq_false_iff.mp clear)).trans ((if_neg (Bool.eq_false_iff.mp blank)).trans ?_)
  rw [slot]

theorem lineFrame_slot (blank : p.links[n].blank = false) {x : Slot} (slot : s.slotOf n p.id i = some x) :
    s.lineFrame n ue =
      if !x.complete then s
      else if s.tooWide n p.links[n] then (s.sendLine n p i 8 []).countNoData n
      else if x.poison then s.sendLine n p i 1 []
      else s.sendImage n p i x.image ue := by
  rw [mayFrame_eq, Bool.not_eq_true'] at clear
  unfold lineFrame
  rw [next]
  refine (if_neg (Bool.eq_false_iff.mp clear)).trans ((if_neg (Bool.eq_false_iff.mp blank)).trans ?_)
  rw [slot]
  cases ue with
  | good => rfl
  | badBefore a => rfl
  | badDuring a k =>
    rw [sendImage, sendBroken, slotUe_symOf]
    rfl

end

end

/-! ### The cases of a line that comes too late -/

/-- The slot of a line is complete, or the line needs none (R238). -/
def lineComplete (s : State) (n : LinkId) (p : Page) (i : Nat) : Bool :=
  p.links[n].blank || ((s.slotOf n p.id i).map (·.complete)).getD false

theorem noDataFrame_none {s : State} {n : LinkId} (h : s.nextFrame n = none) : s.noDataFrame n = s := by
  unfold noDataFrame
  rw [h]

theorem noDataFrame_some {s : State} {n : LinkId} {p : Page} {i : Nat} (next : s.nextFrame n = some (p, i)) :
    s.noDataFrame n =
      if !s.carries n || s.lineComplete n p i || !s.deadline n p i then s
      else if s.boardTakes n (p.links[n].lineNo i) && decide (s.links[n].laneFree ≤ s.time) then
        ((s.sendLine n p i 8 []).countNoData n).logLinkRun 0x0903
          (linkFields n 0 3 3 (p.links[n].lineNo i) p.id.toNat i)
      else s.updPageLink p.id n fun k => { k with frame := i + 1 } := by
  unfold noDataFrame
  rw [next]
  rfl

end State

/-! ### The clauses -/

theorem exec_lineFrame (n : LinkId) (ue : SlotRead) (s : State) : exec (.lineFrame n ue) s = .next (s.lineFrame n ue) := rfl

theorem exec_noData (n : LinkId) (s : State) : exec (.noData n) s = .next (s.noDataFrame n) := rfl

theorem lineFrames : Clause.LineFrames := by
  intro s n ue
  rw [exec_lineFrame]
  refine ⟨fun h => congrArg _ (State.lineFrame_none h ue), fun p i next => ?_⟩
  intro l clear flags words out sends
  have goes {o : Out} {t u : State} (h : s.lineFrame n ue = t) (takes : s.LaneTakes t n (l.lineNo i)) (before : s.DrainOnly u)
      (hout : t.out = o :: u.out) : sends o := ⟨t, congrArg _ h, takes.sends before hout⟩
  refine ⟨fun blocked => ?_, fun free blank => ?_, fun free blank empty => ?_, fun free blank x slot => ?_⟩
  · exact congrArg _ (State.lineFrame_blocked next ue blocked)
  · exact goes (State.lineFrame_blank next ue free blank) (s.sendLine_takes n p i 2 []) (.refl s) rfl
  · exact congrArg _ (State.lineFrame_empty next ue free blank empty)
  have outcome := State.lineFrame_slot next ue free blank slot
  refine ⟨fun partly => ?_, fun full wide => ?_, fun full fits poison => ?_, fun full fits sound => ?_⟩
  · rw [partly] at outcome
    exact congrArg _ outcome
  all_goals rw [full] at outcome
  · rw [s.tooWide_iff.mpr wide] at outcome
    exact goes outcome (s.sendLine_takes n p i 8 []).countNoData (.refl s) rfl
  all_goals rw [Bool.eq_false_iff.mpr fun h => fits (s.tooWide_iff.mp h)] at outcome
  · rw [poison] at outcome
    exact goes outcome (s.sendLine_takes n p i 1 []) (.refl s) rfl
  · rw [sound] at outcome
    have image (r : SlotRead) (h : ue = r) : s.lineFrame n ue = s.sendImage n p i x.image r :=
      outcome.trans (congrArg (s.sendImage n p i x.image) h)
    refine ⟨fun good => ?_, fun a before => ?_, fun a k during => ?_⟩
    · exact goes (image _ good) (s.sendLine_takes n p i 0 x.image) (.refl s) rfl
    all_goals obtain ⟨read, -, -⟩ := s.slotUe_settled n p i a.toNat
    · refine goes (image _ before) (State.sendLine_takes _ n p i 1 []).after_slotUe read ?_
      exact congrArg (· :: _) (s.slotUe_lineFrameOf n p i a.toNat 1 [])
    · refine goes (image _ during) (State.sendBroken_takes _ n p i _).after_slotUe read ?_
      exact congrArg (fun h => Out.abortedFrame n h (x.image.take k) :: _) (s.slotUe_lineHeader n p i a.toNat 0)

theorem noDataFrames : Clause.NoDataFrames := by
  intro s n
  rw [exec_noData]
  refine ⟨fun h => congrArg _ (State.noDataFrame_none h), fun p i next => ?_⟩
  intro l complete due takes
  rw [State.noDataFrame_some next]
  have late : (!s.carries n || s.lineComplete n p i || !s.deadline n p i) = !due := by
    simp only [due, complete, l, State.lineComplete, Bool.not_and, Bool.not_not]
  have free : (s.boardTakes n (p.links[n].lineNo i) && decide (s.links[n].laneFree ≤ s.time)) = takes := rfl
  rw [late, free]
  refine ⟨fun early => ?_, fun late full => ?_, fun late free => ?_⟩
  · rw [early]
    rfl
  · rw [late, full]
    rfl
  · have blank : l.blank = false := by
      simp only [due, complete, Bool.and_eq_true, Bool.not_eq_true', Bool.or_eq_false_iff] at late
      exact late.1.2.1
    rw [late, free]
    refine ⟨_, rfl, (s.sendLine_takes n p i 8 []).countNoData.logLinkRun.drain, s.countNoData_sendLine n p i 8 [], ?_⟩
    rw [← s.lineFrameOf_filled i 8 [] blank]
    exact (State.DrainOnly.refl s).sent rfl

end Sys2Proof.Machine
end

section
/-! SUPPORT. Decoder engines and their lines (R198, R205 to R208, R212). -/

namespace Sys2Proof.Machine

/-- A burst of a compressed strip's stream. -/
def Used.isStream (u : Used) : Bool := match u.use with
  | .stream _ => true
  | _ => false

/-- A burst of a raw line. -/
def Used.isRaw (u : Used) : Bool := match u.use with
  | .raw _ => true
  | _ => false

theorem Used.isStream_iff {u : Used} : u.isStream = true ↔ ∃ k, u.use = .stream k := by
  obtain ⟨addr, use⟩ := u
  cases use <;> simp [isStream]

theorem Used.isRaw_iff {u : Used} : u.isRaw = true ↔ ∃ k, u.use = .raw k := by
  obtain ⟨addr, use⟩ := u
  cases use <;> simp [isRaw]

namespace State

/-! ### What a line that goes wrong leaves -/

/-- Raster memory, the web loop and the channels stay, but for what is due on them, and engines stay in service or out of it. -/
structure LineKept (s t : State) : Prop where
  raster : t.raster = s.raster
  due : s.DueOnly t
  web : t.web = s.web
  engines : ∀ e : Fin 34, t.engines[e].st = s.engines[e].st

theorem LineKept.refl (s : State) : s.LineKept s := ⟨rfl, .refl s, rfl, fun _ => rfl⟩

theorem Settles.lineKept {s t : State} (a : s.Settles t) : s.LineKept t := ⟨a.drain.raster, a.drain.due, a.web, a.engines⟩

theorem LineKept.ite {P : Prop} [Decidable P] {s t u : State} (ht : s.LineKept t) (hu : s.LineKept u) :
    s.LineKept (if P then t else u) := by
  split
  · exact ht
  · exact hu

section
variable {s₀ s : State} (a : s₀.LineKept s)
include a

theorem LineKept.trans {t : State} (b : s.LineKept t) : s₀.LineKept t where
  raster := b.raster.trans a.raster
  due := a.due.trans b.due
  web := b.web.trans a.web
  engines e := (b.engines e).trans (a.engines e)

theorem LineKept.updLink {n : LinkId} {f : Link → Link} : s₀.LineKept (s.updLink n f) :=
  a.trans ⟨rfl, .refl s, rfl, fun _ => rfl⟩

theorem LineKept.updFetch {n : LinkId} {f : Fetch → Fetch} : s₀.LineKept (s.updFetch n f) := a.updLink

theorem LineKept.logDrain {type : Nat} {n : LinkId} {cause engine strip page stripLine line value : Nat} :
    s₀.LineKept (s.logDrain type n cause engine strip page stripLine line value) := a.trans ⟨rfl, .refl s, rfl, fun _ => rfl⟩

theorem LineKept.raise {n : Fin 96} : s₀.LineKept (s.raise n) := a.trans (Settles.refl s).raise.lineKept

theorem LineKept.fillSlot {n : LinkId} {page : BitVec 16} {i : Nat} {image : List Byte} {poison : Bool} :
    s₀.LineKept (s.fillSlot n page i image poison) := a.updLink

theorem LineKept.markStrip {t : Strip} {cause : Nat} : s₀.LineKept (s.markStrip t cause) :=
  .ite (a.trans ⟨rfl, .refl s, rfl, fun _ => rfl⟩) a

theorem LineKept.endLine {n : LinkId} {page : BitVec 16} : s₀.LineKept (s.endLine n page) :=
  a.trans (Settles.refl s).endLine.lineKept

theorem LineKept.poisonLine {n : LinkId} {p : Page} {t : Strip} {i cause value : Nat} {rest : Bool} :
    s₀.LineKept (s.poisonLine n p t i cause value rest) := a.fillSlot.updFetch.logDrain.raise.markStrip.endLine

end

/-! ### Engines that fail -/

theorem engineServes_some {s : State} {n : LinkId} {e : Fin 34} (engine : s.links[n].engine = some e) :
    s.engineServes n = (s.engines[e].st == .serving) := by
  unfold engineServes
  rw [engine]

theorem engineFault_idle {s : State} {n : LinkId} (idle : s.engineServes n = false) (x : BitVec 64) : s.engineFault n x = s := by
  cases engine : s.links[n].engine with
  | none =>
    unfold engineFault
    rw [engine]
  | some e =>
    rw [engineServes_some engine] at idle
    unfold engineFault
    rw [engine]
    exact if_pos (beq_eq_false_iff_ne.mp idle)

/-- An engine that fails is out of service, whatever becomes of its line (R212). -/
theorem engineFault_kept {s : State} {n : LinkId} {e : Fin 34} (engine : s.links[n].engine = some e)
    (serving : s.engines[e].st = .serving) (x : BitVec 64) :
    (s.updEngine e fun y => { y with st := .out }).LineKept (s.engineFault n x) := by
  have out : (s.updEngine e fun y => { y with st := .out }).LineKept (s.updEngine e fun y => { y with st := .out }) := .refl _
  unfold engineFault
  rw [engine]
  dsimp only
  rw [if_neg (not_not_intro serving)]
  split
  · exact .ite out.updFetch.logDrain.raise.poisonLine (.ite out.updFetch.logDrain.raise.updFetch.logDrain.raise
      out.updFetch.logDrain.raise)
  · exact out.updFetch.logDrain.raise

/-! ### Lines that come out whole -/

/-- A line has been decoded into its slot: nothing else of it is under way, and all outside the drain stays (R198, R218). -/
def LineFilled (s t : State) (n : LinkId) (page : BitVec 16) (i : Nat) (image : List Byte) : Prop :=
  t.raster = s.raster ∧ s.DueOnly t ∧ t.strips = s.strips ∧ t.links[n].fetch.busy = false ∧
    ∀ x ∈ t.links[n].slots, x.page = page → x.line = i → x.complete = true ∧ x.poison = false ∧ x.image = image

theorem lineFilled_endLine {s u : State} (before : s.DrainOnly u) (n : LinkId) (page : BitVec 16) (i : Nat) (image : List Byte) :
    s.LineFilled ((u.fillSlot n page i image false).endLine n page) n page i image := by
  have settled := (Settles.refl (u.fillSlot n page i image false)).endLine (n := n) (page := page)
  have drain : s.DrainOnly (u.fillSlot n page i image false) := before.updLink
  have all := drain.trans settled.drain
  refine ⟨all.raster, all.due, all.strips, endLine_idle .., fun x hx hp hi => ?_⟩
  have filled := (settled.links n).slots hx
  rw [fillSlot, updLink_here] at filled
  obtain ⟨y, -, rfl⟩ := List.mem_map.mp filled
  split at hp
  · next here => rw [if_pos here]; exact ⟨rfl, rfl, rfl⟩
  · next other =>
    rw [if_neg other] at hi
    exact absurd ⟨hp, hi⟩ other

/-! ### Raw lines -/

/-- The bytes of a raw line from the bursts that its engine has (R197). -/
def rawBytes (s : State) (u : Strip) (e : Fin 34) : List Byte :=
  (List.range (lineBytes u.words)).map fun k =>
    match s.engines[e].input.find? fun b => b.1 = k / 64 with
    | some b => byteOf b.2 (k % 64)
    | none => 0

theorem firstBadWord_none {f : Fetch} (h : f.badWords = []) (low : Nat) : firstBadWord f low = none := by
  unfold firstBadWord
  rw [h]
  rfl

section
variable {s : State} {n : LinkId} (p : Page) (u : Strip) (i : Nat) (e : Fin 34)

theorem decodeRaw_waits (h : s.links[n].fetch.want.any Used.isRaw = true) : s.decodeRaw n p u i e = s := if_pos h

theorem decodeRaw_whole (h : s.links[n].fetch.want.any Used.isRaw = false) (missing : s.links[n].fetch.missing = [])
    (words : s.links[n].fetch.badWords = []) :
    s.decodeRaw n p u i e = (s.fillSlot n p.id i (clearPads u.words (s.rawBytes u e)) false).endLine n p.id := by
  refine (if_neg (Bool.eq_false_iff.mp h)).trans ?_
  dsimp only
  rw [firstBadWord_none words, missing]
  rfl

/-! ### Compressed lines -/

/-- What an engine makes of a line from the input that it has (R195, R198). -/
def runOf (s : State) (u : Strip) (e : Fin 34) : Inflate × List Byte × RunEnd :=
  let x := s.engines[e]
  x.dec.line (inputOf x.input (512 * firstGap x.input (x.input.length + 1) (x.dec.bit / 512))) (lineBytes u.words)

/-- An engine that has come so far keeps the bursts that it has not read through. -/
def fedTo (d : Inflate) (y : Engine) : Engine := { y with dec := d, input := y.input.filter fun b => decide (d.bit / 512 ≤ b.1) }

/-- What becomes of a compressed line of which no burst is lost or bad, by what its engine makes of it (R198, R205 to R207). -/
def streamOutcome (s : State) (n : LinkId) (p : Page) (u : Strip) (i : Nat) (e : Fin 34) (r : Inflate × List Byte × RunEnd) :
    State :=
  match r.2.2 with
  | .full =>
    if p.links[n].firstLine + i + 1 = u.lines ∧ r.1.pending = true then
      (s.updEngine e (fedTo r.1)).poisonLine n p u i 4 r.1.bit false
    else ((s.updEngine e (fedTo r.1)).fillSlot n p.id i (clearPads u.words r.2.1) false).endLine n p.id
  | .streamEnd => s.poisonLine n p u i 2 r.1.bit true
  | .error => s.poisonLine n p u i 3 r.1.bit true
  | .short => if s.links[n].fetch.want.any Used.isStream then s else s.poisonLine n p u i 1 r.1.bit true

theorem decodeStream_sound (missing : s.links[n].fetch.missing = []) (words : s.links[n].fetch.badWords = []) :
    s.decodeStream n p u i e = s.streamOutcome n p u i e (s.runOf u e) := by
  unfold decodeStream runOf
  dsimp only
  rw [firstBadWord_none words, missing, show least [] = none from rfl]
  dsimp only
  generalize Inflate.line _ _ _ = run
  obtain ⟨d, bytes, reason⟩ := run
  cases reason with
  | full => rfl
  | streamEnd => rfl
  | error => rfl
  | short =>
    dsimp only
    exact if_congr (by rw [show (none != some _) = true from rfl, Bool.and_true]; rfl) rfl rfl

end

/-! ### The line of an engine -/

theorem decodeLine_idle {s : State} {n : LinkId} (idle : s.links[n].fetch.busy = false ∨ s.engineServes n = false) :
    s.decodeLine n none = s := by
  refine if_pos ?_
  simpa using idle

theorem decodeLine_busy {s : State} {n : LinkId} {e : Fin 34} {p : Page} {u : Strip} (busy : s.links[n].fetch.busy = true)
    (engine : s.links[n].engine = some e) (serving : s.engines[e].st = .serving)
    (page : s.findPage s.links[n].fetch.page = some p) (strip : s.pageStrip p n = some u) :
    s.decodeLine n none = if u.raw then s.decodeRaw n p u (p.links[n].taken - 1) e
      else s.decodeStream n p u (p.links[n].taken - 1) e := by
  have serves : s.engineServes n = true := (engineServes_some engine).trans (beq_iff_eq.mpr serving)
  unfold decodeLine
  dsimp only
  rw [busy, serves, engine, page]
  dsimp only
  rw [strip]
  rfl

end State

/-! ### The clause -/

theorem exec_decodeLineComplete {n : LinkId} {fault : Option (BitVec 64)} {s t : State} (h : s.decodeLine n fault = t) :
    exec (.decodeLineComplete n fault) s = .next t :=
  congrArg Host.Outcome.next h

theorem linesDecode : Clause.LinesDecode := by
  intro s n f
  refine ⟨fun idle => ?_, fun x idle => ?_, fun x e engine serving => ?_, fun e p u busy engine serving page strip => ?_⟩
  · exact exec_decodeLineComplete (State.decodeLine_idle idle)
  · exact exec_decodeLineComplete (State.engineFault_idle idle x)
  · obtain ⟨raster, due, web, engines⟩ := State.engineFault_kept engine serving x
    refine ⟨_, exec_decodeLineComplete rfl, (engines e).trans ?_, raster, due, web⟩
    exact congrArg Engine.st (vmod_same ..)
  have line := State.decodeLine_busy busy engine serving page strip
  intro i filled
  refine ⟨fun raw waits => ?_, fun raw read missing words => ?_, fun packed missing words => ?_⟩
  · obtain ⟨b, hb, use⟩ := waits
    have unread := List.any_eq_true.mpr ⟨b, hb, Used.isRaw_iff.mpr use⟩
    exact exec_decodeLineComplete (line.trans ((if_pos raw).trans (State.decodeRaw_waits p u i e unread)))
  · have all_read : f.want.any Used.isRaw = false := List.any_eq_false.mpr fun b hb h =>
      (Used.isRaw_iff.mp h).elim (read b hb)
    exact ⟨_, exec_decodeLineComplete (line.trans ((if_pos raw).trans (State.decodeRaw_whole p u i e all_read missing words))),
      State.lineFilled_endLine (.refl s) ..⟩
  · intro x limit r
    have outcome : s.decodeLine n none = s.streamOutcome n p u i e r :=
      line.trans ((if_neg (Bool.eq_false_iff.mp packed)).trans (State.decodeStream_sound p u i e missing words))
    unfold State.streamOutcome at outcome
    refine ⟨fun full whole => ?_, fun full last pending => ?_, fun ends => ?_, fun wrong => ?_, fun short waits => ?_,
      fun short read => ?_⟩
    · rw [full] at outcome
      exact ⟨_, exec_decodeLineComplete (outcome.trans (if_neg whole)),
        State.lineFilled_endLine (State.DrainOnly.refl s).updEngine ..⟩
    · rw [full] at outcome
      exact ⟨_, _, exec_decodeLineComplete (outcome.trans (if_pos ⟨last, pending⟩)), rfl⟩
    · rw [ends] at outcome
      exact exec_decodeLineComplete outcome
    · rw [wrong] at outcome
      exact exec_decodeLineComplete outcome
    · rw [short] at outcome
      obtain ⟨b, hb, use⟩ := waits
      exact exec_decodeLineComplete (outcome.trans (if_pos (List.any_eq_true.mpr ⟨b, hb, Used.isStream_iff.mpr use⟩)))
    · rw [short] at outcome
      refine exec_decodeLineComplete (outcome.trans (if_neg fun h => ?_))
      obtain ⟨b, hb, use⟩ := List.any_eq_true.mp h
      exact (Used.isStream_iff.mp use).elim (read b hb)

/-- Settles O51: a line by what its engine makes of it, a frame by the state of its slot, a marker by whether its link carries, and
what each leaves by what the drain may do when it settles. -/
theorem linesAndMarkers : Obligations.LinesAndMarkers := ⟨linesDecode, lineFrames, noDataFrames, markersLeave, linesFire⟩

end Sys2Proof.Machine
end

section
/-! SUPPORT. What an operation leaves that turns one link: its record, and the links and parts of the device beside it (R241, R242,
R251, R252). -/

namespace Sys2Proof.Machine

namespace State

/-! ### A link that turns into another record -/

/-- Nothing outside the drain has changed, and of the links one alone, which has a new record. -/
structure LinkTurns (s t : State) (n : LinkId) (l : Link) : Prop where
  drain : s.DrainOnly t
  links : t.links = vset s.links n l

theorem LinkTurns.start (s : State) (n : LinkId) : s.LinkTurns s n s.links[n] :=
  ⟨.refl s, (Vector.set_getElem_self n.isLt).symm⟩

theorem vset_vset {α : Type} {k : Nat} (v : Vector α k) (i : Fin k) (x y : α) : vset (vset v i x) i y = vset v i y :=
  Vector.set_set ..

section
variable {s t : State} {n : LinkId} {l : Link} (a : s.LinkTurns t n l)
include a

theorem LinkTurns.here : t.links[n] = l := by
  rw [a.links]
  exact vset_same ..

/-- What is read of the link. -/
theorem LinkTurns.read {β : Type} (g : Link → β) : g t.links[n] = g l := congrArg g a.here

theorem LinkTurns.others : ∀ k, k ≠ n → t.links[k] = s.links[k] := by
  intro k hk
  rw [a.links]
  exact vset_other _ _ _ _ hk.symm

/-- An operation that leaves the links. -/
theorem LinkTurns.step {u : State} (b : t.DrainOnly u) (same : u.links = t.links) : s.LinkTurns u n l :=
  ⟨a.drain.trans b, same.trans a.links⟩

theorem LinkTurns.updLink {f : Link → Link} : s.LinkTurns (t.updLink n f) n (f l) := by
  refine ⟨a.drain.updLink, ?_⟩
  have turned : (t.updLink n f).links = vset t.links n (f t.links[n]) := rfl
  rw [turned, a.here, a.links, vset_vset]

theorem LinkTurns.updSeq {f : Seq → Seq} : s.LinkTurns (t.updSeq f) n l := a.step (DrainOnly.refl t).updSeq rfl

theorem LinkTurns.updCmd {id : Nat} {f : Cmd → Cmd} : s.LinkTurns (t.updCmd id f) n l :=
  a.step ⟨rfl, .refl t, fun _ => rfl, [], rfl⟩ rfl

theorem LinkTurns.logLinkRun {type : Nat} {fs : List Nat} : s.LinkTurns (t.logLinkRun type fs) n l :=
  a.step (DrainOnly.refl t).logLinkRun rfl

theorem LinkTurns.finished {u : State} (b : Finished t u) : s.LinkTurns u n l :=
  a.step b.drainOnly b.sessionOnly.links

theorem LinkTurns.raise {k : Fin 96} : s.LinkTurns (t.raise k) n l := a.finished (raised_raise t k).finished

theorem LinkTurns.sendFrame {ftype flags len line : Nat} {page : BitVec 16} {pageLine : Nat} {payload : List Byte} :
    s.LinkTurns (t.sendFrame n ftype flags len line page pageLine payload) n
      { l with seq := l.seq + 1, laneFree := max t.time l.laneFree + (24 + payload.length) * t.symOf n } :=
  (a.step (DrainOnly.refl t).emit rfl).updLink

/-! ### States and training -/

theorem LinkTurns.setLink {st : LinkState} : s.LinkTurns (t.setLink n st) n { l with st := st } := by
  unfold State.setLink
  split
  · next same =>
    rw [a.here] at same
    rwa [← same]
  · exact a.updLink.raise

theorem LinkTurns.settleTrain {id : Nat} : s.LinkTurns (t.settleTrain id) n l := by
  unfold State.settleTrain
  split
  · exact a
  · split
    · exact a
    · extract_lets links s1
      have told : s.LinkTurns s1 n l := a.finished (raised_foldl _ (fun x k => raised_raise x _) links t).finished
      split
      · exact told.finished (finished_finish ..)
      · exact told.finished (finished_finish ..)

theorem LinkTurns.trainEnd {ok silent : Bool} :
    s.LinkTurns (t.trainEnd n ok silent) n { l with step := .idle, trainCmd := none } := by
  unfold State.trainEnd
  extract_lets bit s1
  have idle : s.LinkTurns s1 n { l with step := .idle, trainCmd := none } := a.updLink
  split
  · exact idle
  · exact idle.updCmd.settleTrain

/-- A training that fails (R241, R242). -/
theorem LinkTurns.trainFail {cause : Nat} : s.LinkTurns (t.trainFail n cause) n
    { l with trainCause := cause, st := .untrained, step := .idle, trainCmd := none } :=
  a.logLinkRun.updLink.setLink.trainEnd

end

/-! ### Falling to DOWN -/

/-- An UP link that falls to DOWN writes its entry and changes its state (R252). -/
theorem goDown_up {s : State} {n : LinkId} (up : s.links[n].st = .up) (cause : Nat) : ∃ fs,
    s.goDown n cause = ((s.logLinkRun 0x0901 fs).updLink n fun l => { l with downCause := cause }).setLink n .down := by
  unfold goDown
  rw [if_neg (not_not_intro up)]
  exact ⟨_, rfl⟩

theorem goDown_other {s : State} {n : LinkId} (other : s.links[n].st ≠ .up) (cause : Nat) : s.goDown n cause = s :=
  if_pos other

theorem LinkTurns.goDown {s t : State} {n : LinkId} {l : Link} (a : s.LinkTurns t n l) (up : l.st = .up) (cause : Nat) :
    s.LinkTurns (t.goDown n cause) n { l with downCause := cause, st := .down } := by
  obtain ⟨fs, down⟩ := goDown_up (a.here.symm ▸ up) cause
  rw [down]
  exact a.logLinkRun.updLink.setLink

/-! ### Nothing but a link -/

section
variable {s t : State} {n : LinkId}

theorem LinkOnly.refl (s : State) (n : LinkId) : s.LinkOnly s n := ⟨rfl, fun _ _ => rfl, [], rfl⟩

theorem LinkOnly.trans {u : State} (a : s.LinkOnly t n) (b : t.LinkOnly u n) : s.LinkOnly u n := by
  obtain ⟨ha, others, o, ho⟩ := a
  obtain ⟨hb, others', o', ho'⟩ := b
  refine ⟨?_, fun m hm => (others' m hm).trans (others m hm), o' ++ o, by rw [ho', ho, List.append_assoc]⟩
  rw [hb, ha]

variable (a : s.LinkOnly t n)
include a

theorem LinkOnly.updLink {f : Link → Link} : s.LinkOnly (t.updLink n f) n :=
  a.trans ⟨rfl, fun _ hm => updLink_other hm, [], rfl⟩

theorem LinkOnly.logLinkRun {type : Nat} {fs : List Nat} : s.LinkOnly (t.logLinkRun type fs) n :=
  a.trans ⟨rfl, fun _ _ => rfl, [], rfl⟩

theorem LinkOnly.raise {k : Fin 96} : s.LinkOnly (t.raise k) n := by
  obtain ⟨hs, ev, o, raised, -⟩ := raised_raise t k
  refine a.trans ?_
  rw [raised]
  exact ⟨rfl, fun _ _ => rfl, o, rfl⟩

theorem LinkOnly.setLink {st : LinkState} : s.LinkOnly (t.setLink n st) n := by
  unfold State.setLink
  split
  · exact a
  · exact a.updLink.raise

theorem LinkOnly.goDown {cause : Nat} : s.LinkOnly (t.goDown n cause) n := by
  by_cases up : t.links[n].st = .up
  · obtain ⟨fs, down⟩ := goDown_up up cause
    rw [down]
    exact a.logLinkRun.updLink.setLink
  · rwa [goDown_other up]

end

end State

/-! ### What the clauses on links say -/

theorem failed_of_turns {s t : State} {n : LinkId} {l : Link} {cause : Nat} (a : s.LinkTurns t n
    { l with trainCause := cause, st := .untrained, step := .idle, trainCmd := none }) : Clause.Failed s t n cause :=
  ⟨a.drain, a.read Link.step, a.read Link.trainCmd, a.read Link.trainCause, a.read Link.st, a.others⟩

/-- A link that falls to DOWN after changes that leave its markers and its slots. -/
theorem down_of_up {s t : State} {n : LinkId} {l : Link} (only : s.LinkOnly t n) (a : s.LinkTurns t n l) (up : l.st = .up)
    (markers : l.markers = s.links[n].markers) (slots : l.slots = s.links[n].slots) (cause : Nat) :
    Clause.Down s (t.goDown n cause) n cause := by
  have fallen := a.goDown up cause
  exact ⟨only.goDown, fallen.read Link.st, fallen.read Link.downCause, (fallen.read Link.markers).trans markers,
    (fallen.read Link.slots).trans slots⟩

end Sys2Proof.Machine
end

section
/-! SUPPORT. Return frames as they arrive, and training step by step (R241 to R244, R247, R248). -/

namespace Sys2Proof.Machine

/-- A board's declarations are in range (R241, R247). -/
def Board.Sound (b : Board) : Prop := 2 ≤ b.buffers ∧ b.buffers ≤ 16 ∧ 1 ≤ b.maxWords ∧ b.maxWords ≤ 1024

/-- What a return frame of the board's declarations says (R247). -/
def boardOf (f : ReturnFrame) : Board := Board.of (BitVec.ofNat 256 (leNat f.payload))

/-- What a STATUS frame says (R247). -/
def statusOf (f : ReturnFrame) : BitVec 128 := BitVec.ofNat 128 (leNat f.payload)

/-- The frames that a board has discarded, as its STATUS frame says (R247). -/
def discardedOf (f : ReturnFrame) : BitVec 16 := (statusOf f).extractLsb' 32 16

namespace State

/-! ### Return frames -/

theorem heard_here (s : State) (n : LinkId) : (s.heard n).links[n] = { s.links[n] with lastReturn := s.time } := updLink_here ..

theorem heard_awaited (s : State) (n : LinkId) : (s.heard n).links[n].awaited = s.links[n].awaited := by
  rw [heard_here]

theorem heard_turns (s : State) (n : LinkId) : s.LinkTurns (s.heard n) n { s.links[n] with lastReturn := s.time } :=
  (LinkTurns.start s n).updLink

theorem heard_only (s : State) (n : LinkId) : s.LinkOnly (s.heard n) n := (LinkOnly.refl s n).updLink

theorem heard_carries (s : State) (n : LinkId) : (s.heard n).carries n = s.carries n := by
  unfold carries
  rw [heard_here]

theorem carries_up {s : State} {n : LinkId} (h : s.carries n = true) : s.links[n].st = .up :=
  (beq_iff_eq.mp (Bool.and_eq_true_iff.mp h).1)

section
variable {s : State} {n : LinkId} {f : ReturnFrame} {rtype lo hi : Nat} (act : State → State)

theorem onReturn_bad (h : goodReturn f rtype lo hi = false) : s.onReturn n f rtype lo hi act = s.badReturn n :=
  if_neg (Bool.eq_false_iff.mp h)

theorem onReturn_good (h : goodReturn f rtype lo hi = true) : s.onReturn n f rtype lo hi act = act (s.heard n) := if_pos h

end

/-- The answer to a frame of the device has come (R247). -/
def replied (s : State) (n : LinkId) (f : ReturnFrame) : State := (s.heard n).answered n f.seq

theorem replied_turns (s : State) (n : LinkId) (f : ReturnFrame) : s.LinkTurns (s.replied n f) n
    { s.links[n] with lastReturn := s.time, awaited := s.links[n].awaited.erase f.seq } :=
  (s.heard_turns n).updLink

theorem replied_only (s : State) (n : LinkId) (f : ReturnFrame) : s.LinkOnly (s.replied n f) n := (s.heard_only n).updLink

/-! ### Steps of training -/

/-- A link is in a step of its training whose limit is still ahead (R241). -/
def inStep (s : State) (n : LinkId) (x : TrainStep) : Prop := s.links[n].step = x ∧ s.time ≤ s.links[n].stepStart + x.limit

theorem inStep_iff {s : State} {n : LinkId} {x : TrainStep} :
    s.inStep n x ↔ s.links[n].step = x ∧ s.inTime n = true := by
  unfold inStep inTime
  rw [decide_eq_true_iff]
  exact and_congr_right fun h => by rw [h]

theorem heard_inStep {s : State} {n : LinkId} {x : TrainStep} : (s.heard n).inStep n x ↔ s.inStep n x := by
  unfold inStep
  rw [heard_here]
  exact Iff.rfl

/-! #### Alignment -/

theorem comma_aligned {s : State} {n : LinkId} {k : Nat} (search : s.inStep n .search) (long : 1024 ≤ k) :
    s.comma n k = (s.sendAsking n 6).enterStep n .ident :=
  if_pos ⟨(inStep_iff.mp search).1, (inStep_iff.mp search).2, long⟩

theorem comma_waits {s : State} {n : LinkId} {k : Nat} (h : ¬s.inStep n .search ∨ k < 1024) : s.comma n k = s := by
  refine if_neg fun ⟨search, ahead, long⟩ => ?_
  exact h.elim (fun other => other (inStep_iff.mpr ⟨search, ahead⟩)) (Nat.not_lt.mpr long)

/-- A frame that the board answers has gone out, and its SEQ is awaited (R247). -/
theorem sendAsking_here (s : State) (n : LinkId) (ftype : Nat) : (s.sendAsking n ftype).links[n] = { s.links[n] with
    seq := s.links[n].seq + 1, laneFree := max s.time s.links[n].laneFree + 24 * s.symOf n
    awaited := s.links[n].awaited ++ [s.links[n].seq] } := by
  unfold sendAsking sendFrame
  rw [updLink_here, updLink_here]
  rfl

/-- Sending a frame changes links and outputs alone, and so does what its link notes after it. -/
theorem sendAsking_updLink (s : State) (n : LinkId) (ftype : Nat) (f : Link → Link) :
    (s.sendAsking n ftype).updLink n f =
      { s with links := ((s.sendAsking n ftype).updLink n f).links, out := (s.sendAsking n ftype).out } := by
  have sent : s.sendAsking n ftype = { s with links := (s.sendAsking n ftype).links, out := (s.sendAsking n ftype).out } := rfl
  generalize s.sendAsking n ftype = u at sent
  rw [sent]
  rfl

theorem enterStep_here (s : State) (n : LinkId) (x : TrainStep) :
    (s.enterStep n x).links[n] = { s.links[n] with step := x, stepStart := s.time } := updLink_here ..

/-! #### The board's declarations -/

/-- The TEST frames go out to a board whose declarations are in range (R241). -/
def declared (s : State) (n : LinkId) (b : Board) : State :=
  ((List.range 256).foldl (fun acc _ => acc.sendFrame n 4 0 2304 0 0xFFFF 0 testPayload)
    (s.updLink n fun l => { l with board := b })).enterStep n .test

theorem ident_unasked {s : State} {n : LinkId} {f : ReturnFrame} (h : ¬s.inStep n .ident ∨ f.seq ∉ s.links[n].awaited) :
    s.ident n f = s := by
  refine if_neg fun ⟨step, ahead, asked⟩ => ?_
  exact h.elim (fun other => other (inStep_iff.mpr ⟨step, ahead⟩)) fun fresh => fresh (List.contains_iff_mem.mp asked)

section
variable {s : State} {n : LinkId} {f : ReturnFrame} (step : s.inStep n .ident) (asked : f.seq ∈ s.links[n].awaited)
include step asked

theorem ident_asked : (s.heard n).ident n f =
    if !(boardOf f).rates.getLsbD s.links[n].rate.val then (s.replied n f).trainFail n 3
    else if (boardOf f).buffers < 2 ∨ 16 < (boardOf f).buffers ∨ (boardOf f).maxWords < 1 ∨ 1024 < (boardOf f).maxWords then
      (s.replied n f).trainFail n 4
    else (s.replied n f).declared n (boardOf f) := by
  obtain ⟨ident, ahead⟩ := inStep_iff.mp (heard_inStep.mpr step)
  rw [show s.links[n].rate = (s.heard n).links[n].rate by rw [heard_here]]
  exact if_pos ⟨ident, ahead, List.contains_iff_mem.mpr (s.heard_awaited n ▸ asked)⟩

theorem ident_rate (slow : (boardOf f).rates.getLsbD s.links[n].rate.val = false) :
    (s.heard n).ident n f = (s.replied n f).trainFail n 3 := by
  rw [ident_asked step asked, slow]
  rfl

variable (rate : (boardOf f).rates.getLsbD s.links[n].rate.val = true)
include rate

theorem ident_range (range : ¬(boardOf f).Sound) : (s.heard n).ident n f = (s.replied n f).trainFail n 4 := by
  rw [ident_asked step asked, rate]
  refine (if_neg (by decide)).trans (if_pos ?_)
  unfold Board.Sound at range
  omega

theorem ident_sound (range : (boardOf f).Sound) : (s.heard n).ident n f = (s.replied n f).declared n (boardOf f) := by
  rw [ident_asked step asked, rate]
  refine (if_neg (by decide)).trans (if_neg ?_)
  unfold Board.Sound at range
  omega

end

/-- So many frames of one kind, one after the other. -/
theorem foldl_sendFrame (n : LinkId) (ftype flags len line : Nat) (page : BitVec 16) (pageLine : Nat) (payload : List Byte)
    (k : Nat) (s : State) :
    let t := (List.range k).foldl (fun acc _ => acc.sendFrame n ftype flags len line page pageLine payload) s
    t = { s with links := t.links, out := t.out } ∧ t.out.length = s.out.length + k ∧
      t.links[n] = { s.links[n] with seq := s.links[n].seq + BitVec.ofNat 8 k, laneFree := t.links[n].laneFree } := by
  induction k with
  | zero => exact ⟨rfl, rfl, by rw [show BitVec.ofNat 8 0 = 0#8 from rfl, BitVec.add_zero]; rfl⟩
  | succ k ih =>
    obtain ⟨same, length, link⟩ := ih
    rw [List.range_succ, List.foldl_append, List.foldl_cons, List.foldl_nil]
    generalize (List.range k).foldl _ s = u at same length link
    refine ⟨?_, ?_, ?_⟩
    · rw [same]
      rfl
    · exact (congrArg (· + 1) length).trans (Nat.add_assoc ..)
    · have sent : (u.sendFrame n ftype flags len line page pageLine payload).links[n] = { u.links[n] with
          seq := u.links[n].seq + 1, laneFree := max u.time u.links[n].laneFree + (24 + payload.length) * u.symOf n } :=
        updLink_here ..
      rw [sent, link, BitVec.ofNat_add, BitVec.add_assoc]
      rfl

/-- The TEST frames have gone out: SEQ has come round (R232, R241). -/
theorem declared_effect (s : State) (n : LinkId) (b : Board) :
    s.declared n b = { s with links := (s.declared n b).links, out := (s.declared n b).out } ∧
      (s.declared n b).out.length = s.out.length + 256 ∧ (s.declared n b).links[n].board = b ∧
      (s.declared n b).links[n].step = .test ∧ (s.declared n b).links[n].seq = s.links[n].seq := by
  obtain ⟨same, length, link⟩ := foldl_sendFrame n 4 0 2304 0 0xFFFF 0 testPayload 256
    (s.updLink n fun l => { l with board := b })
  unfold declared
  generalize (List.range 256).foldl _ _ = u at same length link
  rw [updLink_here] at link
  have entered := u.enterStep_here n .test
  rw [link] at entered
  refine ⟨?_, length, congrArg Link.board entered, congrArg Link.step entered, (congrArg Link.seq entered).trans ?_⟩
  · rw [same]
    rfl
  · exact BitVec.add_zero _

/-! #### TEST frames of the board -/

theorem testReturn_counted {s : State} {n : LinkId} (f : ReturnFrame) (step : s.inStep n .test) :
    s.testReturn n f = s.updLink n fun l => { l with
      testFrames := l.testFrames + 1, testBad := l.testBad || f.payload != testPayload
      step := if 256 ≤ l.testFrames + 1 then .status else .test } :=
  if_pos (inStep_iff.mp step)

theorem testReturn_other {s : State} {n : LinkId} (f : ReturnFrame) (other : ¬s.inStep n .test) : s.testReturn n f = s :=
  if_neg (mt inStep_iff.mpr other)

/-! #### STATUS frames -/

/-- The STATUS frames that came within the last 256 markers (R247). -/
def recentStatuses (s : State) (n : LinkId) : List (Nat × Nat) :=
  s.links[n].statuses.filter fun x => decide (s.links[n].marked ≤ x.2 + 256)

/-- The payload of a STATUS frame is kept, and the frames that the board has discarded by then (R247). -/
def statusKept (s : State) (n : LinkId) (f : ReturnFrame) : State := s.updLink n fun k => { k with
  lastStatus := statusOf f, statuses := s.recentStatuses n ++ [((discardedOf f).toNat, s.links[n].marked)] }

/-- The board has discarded four frames within 256 markers (R252). -/
def framesLost (s : State) (n : LinkId) (f : ReturnFrame) : Bool :=
  (s.recentStatuses n).any fun x => decide (4 ≤ ((discardedOf f).toNat + 65536 - x.1) % 65536)

theorem status_training {s : State} {n : LinkId} (f : ReturnFrame) (step : s.inStep n .status) :
    s.status n f = if s.links[n].testBad ∨ (discardedOf f).toNat ≠ 0 then (s.statusKept n f).trainFail n 5
      else (s.statusKept n f).enterStep n .measure :=
  if_pos (inStep_iff.mp step)

theorem status_other {s : State} {n : LinkId} (f : ReturnFrame) (other : ¬s.inStep n .status) :
    s.status n f = if s.carries n then
        if s.framesLost n f then (s.statusKept n f).goDown n 4
        else if (statusOf f).getLsbD 81 then (s.statusKept n f).goDown n 6
        else s.statusKept n f
      else s.statusKept n f :=
  if_neg (mt inStep_iff.mpr other)

/-- What a STATUS frame tells a link that has just been heard depends on nothing that hearing it changes. -/
theorem heard_recentStatuses (s : State) (n : LinkId) : (s.heard n).recentStatuses n = s.recentStatuses n := by
  unfold recentStatuses
  rw [heard_here]

theorem heard_framesLost (s : State) (n : LinkId) (f : ReturnFrame) : (s.heard n).framesLost n f = s.framesLost n f := by
  unfold framesLost
  rw [heard_recentStatuses]

theorem heard_statusKept (s : State) (n : LinkId) (f : ReturnFrame) :
    (s.heard n).statusKept n f = (s.heard n).updLink n fun k => { k with
      lastStatus := statusOf f, statuses := s.recentStatuses n ++ [((discardedOf f).toNat, s.links[n].marked)] } := by
  unfold statusKept
  rw [heard_recentStatuses, heard_here]

theorem statusKept_turns (s : State) (n : LinkId) (f : ReturnFrame) :
    s.LinkTurns ((s.heard n).statusKept n f) n { s.links[n] with
      lastReturn := s.time, lastStatus := statusOf f
      statuses := s.recentStatuses n ++ [((discardedOf f).toNat, s.links[n].marked)] } := by
  rw [heard_statusKept]
  exact (s.heard_turns n).updLink

/-! #### Echoes and limits -/

/-- The next of the ECHO frames of a training is due (R241, R243). -/
def echoDue (s : State) (n : LinkId) : Prop := s.links[n].step = .measure ∧ s.links[n].echoes < 64 ∧
  s.links[n].stepStart + s.links[n].echoes * 4096 * s.symOf n ≤ s.time

theorem measureEcho_due {s : State} {n : LinkId} (due : s.echoDue n) :
    s.measureEcho n = (s.sendAsking n 5).updLink n fun l => { l with echoes := l.echoes + 1 } :=
  if_pos due

theorem measureEcho_waits {s : State} {n : LinkId} (h : ¬s.echoDue n) : s.measureEcho n = s := if_neg h

theorem inTime_iff {s : State} {n : LinkId} : s.inTime n = true ↔ s.time ≤ s.links[n].stepStart + s.links[n].step.limit :=
  decide_eq_true_iff

theorem stepTimeout_waits {s : State} {n : LinkId}
    (h : s.links[n].step = .idle ∨ s.time ≤ s.links[n].stepStart + s.links[n].step.limit) : s.stepTimeout n = s :=
  if_pos (h.imp_right inTime_iff.mpr)

theorem stepTimeout_late {s : State} {n : LinkId} (train : s.links[n].step ≠ .idle)
    (late : s.links[n].stepStart + s.links[n].step.limit < s.time) : s.stepTimeout n = s.trainFail n s.links[n].step.cause :=
  if_neg fun h => h.elim train fun ahead => absurd (inTime_iff.mp ahead) (Nat.not_le.mpr late)

end State

/-! ### The rows -/

section
variable {s : State} {n : LinkId} {f : ReturnFrame}

theorem exec_statusFrame (h : goodReturn f 1 16 16 = true) : exec (.statusFrame n f) s = .next ((s.heard n).status n f) :=
  congrArg Host.Outcome.next (State.onReturn_good (fun t => t.status n f) h)

theorem exec_messageFrame (h : goodReturn f 2 1 240 = true) : exec (.messageFrame n f) s = .next ((s.heard n).message n f) :=
  congrArg Host.Outcome.next (State.onReturn_good (fun t => t.message n f) h)

theorem exec_ackFrame (h : goodReturn f 3 0 0 = true) : exec (.ackFrame n f) s = .next ((s.heard n).ack n f) :=
  congrArg Host.Outcome.next (State.onReturn_good (fun t => t.ack n f) h)

theorem exec_identFrame (h : goodReturn f 4 32 32 = true) : exec (.identFrame n f) s = .next ((s.heard n).ident n f) :=
  congrArg Host.Outcome.next (State.onReturn_good (fun t => t.ident n f) h)

theorem exec_echoReply (h : goodReturn f 5 0 0 = true) (rt : Nat) :
    exec (.echoReply n f rt) s = .next ((s.heard n).echo n f rt) :=
  congrArg Host.Outcome.next (State.onReturn_good (fun t => t.echo n f rt) h)

theorem exec_testFrame (h : goodReturn f 6 2304 2304 = true) : exec (.testFrame n f) s = .next ((s.heard n).testReturn n f) :=
  congrArg Host.Outcome.next (State.onReturn_good (fun t => t.testReturn n f) h)

end

theorem badReturns : Clause.BadReturns := by
  intro s n f dropped
  have drops {rtype lo hi : Nat} (act : State → State) (bad : goodReturn f rtype lo hi = false) :
      (Host.Outcome.next (s.onReturn n f rtype lo hi act) : Host.Outcome State Fault Refusal) = .next dropped :=
    congrArg Host.Outcome.next (State.onReturn_bad act bad)
  exact ⟨rfl, drops _, drops _, drops _, drops _, fun bad _ => drops _ bad, drops _⟩

/-! ### Training -/

theorem commaAlignment_aligned {s : State} {n : LinkId} {k : Nat} (search : s.inStep n .search) (long : 1024 ≤ k) :
    ∃ t, exec (.commaAlignment n k) s = .next t ∧ s.Sent t (s.frameOf n 6 0 0 0 0xFFFF 0 []) ∧
      t.links[n].awaited = s.links[n].awaited ++ [s.links[n].seq] ∧ t.links[n].step = .ident ∧
      t.links[n].stepStart = s.time ∧ t = { s with links := t.links, out := t.out } := by
  refine ⟨_, congrArg Host.Outcome.next (State.comma_aligned search long), ⟨[_], rfl, List.mem_cons_self⟩, ?_, ?_, ?_,
    s.sendAsking_updLink n 6 _⟩
  all_goals rw [State.enterStep_here]
  · rw [State.sendAsking_here]
  · rfl

theorem identFrame_sound {s : State} {n : LinkId} {f : ReturnFrame} (good : goodReturn f 4 32 32 = true)
    (step : s.inStep n .ident) (asked : f.seq ∈ s.links[n].awaited)
    (rate : (boardOf f).rates.getLsbD s.links[n].rate.val = true) (range : (boardOf f).Sound) :
    ∃ t, exec (.identFrame n f) s = .next t ∧ t.links[n].board = boardOf f ∧ t.links[n].step = .test ∧
      t.links[n].seq = s.links[n].seq ∧ t.out.length = s.out.length + 256 ∧ t = { s with links := t.links, out := t.out } := by
  rw [exec_identFrame good, State.ident_sound step asked rate range]
  obtain ⟨same, length, board, test, seq⟩ := (s.replied n f).declared_effect n (boardOf f)
  exact ⟨_, rfl, board, test, seq.trans ((s.replied_turns n f).read Link.seq), length, same⟩

theorem testFrame_counted {s : State} {n : LinkId} {f : ReturnFrame} (good : goodReturn f 6 2304 2304 = true)
    (step : s.inStep n .test) : ∃ t, exec (.testFrame n f) s = .next t ∧ t = { s with links := t.links } ∧
      t.links[n].testFrames = s.links[n].testFrames + 1 ∧
      t.links[n].testBad = (s.links[n].testBad || decide (f.payload ≠ testPayload)) ∧
      t.links[n].step = (if 256 ≤ s.links[n].testFrames + 1 then .status else .test) := by
  rw [exec_testFrame good, State.testReturn_counted f (State.heard_inStep.mpr step)]
  have counted := (s.heard_turns n).updLink (f := fun l => { l with
    testFrames := l.testFrames + 1, testBad := l.testBad || f.payload != testPayload
    step := if 256 ≤ l.testFrames + 1 then .status else .test })
  have wrong : (f.payload != testPayload) = decide (f.payload ≠ testPayload) :=
    Bool.eq_iff_iff.mpr (bne_iff_ne.trans decide_eq_true_iff.symm)
  refine ⟨_, rfl, rfl, counted.read Link.testFrames, ?_, counted.read Link.step⟩
  rw [← wrong]
  exact counted.read Link.testBad

theorem statusFrame_training {s : State} {n : LinkId} {f : ReturnFrame} (good : goodReturn f 1 16 16 = true)
    (step : s.inStep n .status) :
    (s.links[n].testBad = true ∨ discardedOf f ≠ 0#16 →
      ∃ t, exec (.statusFrame n f) s = .next t ∧ Clause.Failed s t n 5) ∧
    (s.links[n].testBad = false → discardedOf f = 0#16 → ∃ t, exec (.statusFrame n f) s = .next t ∧
      t.links[n].step = .measure ∧ t.links[n].stepStart = s.time ∧ t = { s with links := t.links }) := by
  have bad : (s.heard n).links[n].testBad = s.links[n].testBad := by rw [State.heard_here]
  have kept := s.statusKept_turns n f
  have zero : (discardedOf f).toNat = 0 ↔ discardedOf f = 0#16 := BitVec.toNat_inj (y := 0#16)
  rw [exec_statusFrame good, State.status_training f (State.heard_inStep.mpr step), bad]
  refine ⟨fun wrong => ?_, fun sound none => ?_⟩
  · rw [if_pos (wrong.imp_right fun h => mt zero.mp h)]
    exact ⟨_, rfl, failed_of_turns kept.trainFail⟩
  · rw [if_neg fun h => h.elim (Bool.eq_false_iff.mp sound) fun h => h (zero.mpr none)]
    refine ⟨_, rfl, ?_, ?_, rfl⟩
    all_goals rw [State.enterStep_here]
    rfl

theorem measureEcho_sends {s : State} {n : LinkId} (due : s.echoDue n) : ∃ t, exec (.measureEcho n) s = .next t ∧
    s.Sent t (s.frameOf n 5 0 0 0 0xFFFF 0 []) ∧ t.links[n].echoes = s.links[n].echoes + 1 ∧
    t = { s with links := t.links, out := t.out } := by
  refine ⟨_, congrArg Host.Outcome.next (State.measureEcho_due due), ⟨[_], rfl, List.mem_cons_self⟩, ?_,
    s.sendAsking_updLink n 5 _⟩
  rw [State.updLink_here, State.sendAsking_here]

theorem trainingStepTimeout_fails {s : State} {n : LinkId} (train : s.links[n].step ≠ .idle)
    (late : s.links[n].stepStart + s.links[n].step.limit < s.time) :
    ∃ t, exec (.trainingStepTimeout n) s = .next t ∧ Clause.Failed s t n s.links[n].step.cause :=
  ⟨_, congrArg Host.Outcome.next (State.stepTimeout_late train late), failed_of_turns (State.LinkTurns.start s n).trainFail⟩

theorem trainingGoes : Clause.TrainingGoes := by
  intro s n l at_ due heard
  refine ⟨fun k => commaAlignment_aligned, fun k h => congrArg Host.Outcome.next (State.comma_waits h), fun f good => ?ident,
    fun f good => ?test, fun f good step => statusFrame_training good step, ⟨measureEcho_sends, fun h => ?_⟩,
    fun h => congrArg Host.Outcome.next (State.stepTimeout_waits h), trainingStepTimeout_fails⟩
  case ident =>
    have fails {cause : Nat} (h : (s.heard n).ident n f = (s.replied n f).trainFail n cause) :
        ∃ t, exec (.identFrame n f) s = .next t ∧ Clause.Failed s t n cause :=
      ⟨_, (exec_identFrame good).trans (congrArg _ h), failed_of_turns (s.replied_turns n f).trainFail⟩
    refine ⟨fun h => ?_, fun step asked slow => fails (State.ident_rate step asked slow),
      fun step asked rate range => fails (State.ident_range step asked rate range), identFrame_sound good⟩
    have unasked : ¬(s.heard n).inStep n .ident ∨ f.seq ∉ (s.heard n).links[n].awaited := by
      rw [State.heard_inStep, s.heard_awaited n]
      exact h
    exact (exec_identFrame good).trans (congrArg Host.Outcome.next (State.ident_unasked unasked))
  case test =>
    refine ⟨fun other => ?_, testFrame_counted good⟩
    exact (exec_testFrame good).trans (congrArg Host.Outcome.next (State.testReturn_other f (mt State.heard_inStep.mp other)))
  exact congrArg Host.Outcome.next (State.measureEcho_waits h)

end Sys2Proof.Machine
end

section
/-! SUPPORT. Echoes: the end of training and the tracking of latency (R241 to R245). -/

namespace Sys2Proof.Machine

namespace State

/-! ### Line counts from 0 -/

/-- A page that runs is numbered from the count that the pages before it have come to (R233). -/
def numberPage (n : LinkId) (acc : List Page × Nat) (p : Page) : List Page × Nat :=
  if p.active then
    let l := p.links[n]
    let base := (acc.2 + 2 ^ 32 - l.commit) % 2 ^ 32
    (acc.1 ++ [{ p with links := vset p.links n { l with base := base } }], acc.2 + (l.lines - l.commit))
  else (acc.1 ++ [p], acc.2)

theorem renumber_eq (s : State) (n : LinkId) :
    s.renumber n = (s.updSeq fun q => { q with pages := (s.seq.pages.foldl (numberPage n) ([], 0)).1 }).updLink n fun l =>
      { l with count := (s.seq.pages.foldl (numberPage n) ([], 0)).2 } :=
  rfl

theorem LinkTurns.renumber {s t : State} {n : LinkId} {l : Link} (a : s.LinkTurns t n l) :
    s.LinkTurns (t.renumber n) n { l with count := (t.seq.pages.foldl (numberPage n) ([], 0)).2 } := by
  rw [renumber_eq]
  exact a.updSeq.updLink

/-- Pages without lines of the link do not move its count. -/
theorem numberPage_count {n : LinkId} {p : Page} (none : (p.active && p.links[n].lines != 0) = false) (acc : List Page × Nat) :
    (numberPage n acc p).2 = acc.2 := by
  unfold numberPage
  split
  · next active =>
    rw [active, Bool.true_and, bne_eq_false_iff_eq] at none
    dsimp only
    rw [none, Nat.zero_sub]
    rfl
  · rfl

theorem foldl_numberPage_count {n : LinkId} {ps : List Page} (none : ∀ p ∈ ps, (p.active && p.links[n].lines != 0) = false)
    (acc : List Page × Nat) : (ps.foldl (numberPage n) acc).2 = acc.2 := by
  induction ps generalizing acc with
  | nil => rfl
  | cons p ps ih =>
    rw [List.foldl_cons, ih fun q hq => none q (List.mem_cons_of_mem _ hq)]
    exact numberPage_count (none p List.mem_cons_self) acc

theorem renumber_count {s : State} {n : LinkId} (none : s.hasLines n = false) :
    (s.seq.pages.foldl (numberPage n) ([], 0)).2 = 0 := by
  refine foldl_numberPage_count (fun p hp => ?_) _
  exact Bool.eq_false_iff.mpr (List.any_eq_false.mp none p hp)

/-! ### The end of training -/

/-- The state of a link whose training has passed (R242, R253). -/
def stateTrained (s : State) (n : LinkId) : LinkState :=
  match s.links[n].st with
  | .untrained => if s.hasLines n then .rejoin else .up
  | .down => .rejoin
  | x => x

theorem stateTrained_untrained {s : State} {n : LinkId} (h : s.links[n].st = .untrained) :
    s.stateTrained n = if s.hasLines n then .rejoin else .up := by
  unfold stateTrained
  rw [h]

theorem stateTrained_down {s : State} {n : LinkId} (h : s.links[n].st = .down) : s.stateTrained n = .rejoin := by
  unfold stateTrained
  rw [h]

theorem stateTrained_other {s : State} {n : LinkId} (fresh : s.links[n].st ≠ .untrained) (up : s.links[n].st ≠ .down) :
    s.stateTrained n = s.links[n].st := by
  unfold stateTrained
  split
  · next h => exact absurd h fresh
  · next h => exact absurd h up
  · rfl

/-- The record of a link whose training has passed (R244). -/
def linkTrained (s : State) (n : LinkId) (l : Link) : Link :=
  let lat := (latOf s.links[n].board s.links[n].trips).toNat
  { l with
    seq := 0, held := [], lat := lat, latTrained := lat, trips := [], sinceEcho := 0, awaited := [], marked := 0
    statuses := [], lastReturn := s.time, count := (s.seq.pages.foldl (numberPage n) ([], 0)).2, st := s.stateTrained n
    step := .idle, trainCmd := none }

theorem LinkTurns.trainPass {s t : State} {n : LinkId} {l : Link} (a : s.LinkTurns t n l) : ∃ free,
    s.LinkTurns (t.trainPass n) n (t.linkTrained n { l with laneFree := free }) :=
  ⟨_, (LinkTurns.renumber (LinkTurns.updLink (LinkTurns.sendFrame a))).setLink.trainEnd⟩

/-! ### Round trips -/

/-- The round trips of a training with one more (R243). -/
def tripsWith (s : State) (n : LinkId) (rt : Nat) : List Nat := rt :: s.links[n].trips

/-- By how much the round trips of a training differ (R243). -/
def tripSpread (s : State) (n : LinkId) (rt : Nat) : Nat :=
  (s.tripsWith n rt).foldl max 0 - (s.tripsWith n rt).foldl min rt

/-- A round trip of a training is noted. -/
def tripNoted (s : State) (n : LinkId) (f : ReturnFrame) (rt : Nat) : State :=
  (s.replied n f).updLink n fun k => { k with trips := s.tripsWith n rt }

/-- What a round trip does in a training: the last of them ends it (R243, R244). -/
def measured (s : State) (n : LinkId) (f : ReturnFrame) (rt : Nat) : State :=
  if (s.tripsWith n rt).length < 64 then s.tripNoted n f rt
  else if 8 < s.tripSpread n rt then (s.tripNoted n f rt).trainFail n 6
  else (s.tripNoted n f rt).trainPass n

theorem tripNoted_turns (s : State) (n : LinkId) (f : ReturnFrame) (rt : Nat) : s.LinkTurns (s.tripNoted n f rt) n
    { s.links[n] with lastReturn := s.time, awaited := s.links[n].awaited.erase f.seq, trips := s.tripsWith n rt } :=
  (s.replied_turns n f).updLink

section
variable {s : State} {n : LinkId} {rt : Nat} (f : ReturnFrame)

theorem measured_few (few : (s.tripsWith n rt).length < 64) : s.measured n f rt = s.tripNoted n f rt := if_pos few

theorem measured_apart (all : 64 ≤ (s.tripsWith n rt).length) (apart : 8 < s.tripSpread n rt) :
    s.measured n f rt = (s.tripNoted n f rt).trainFail n 6 :=
  (if_neg (Nat.not_lt.mpr all)).trans (if_pos apart)

theorem measured_near (all : 64 ≤ (s.tripsWith n rt).length) (near : s.tripSpread n rt ≤ 8) :
    s.measured n f rt = (s.tripNoted n f rt).trainPass n :=
  (if_neg (Nat.not_lt.mpr all)).trans (if_neg (Nat.not_lt.mpr near))

end

/-- LAT as the median of the last eight round trips has it (R245). -/
def latTarget (s : State) (n : LinkId) (rt : Nat) : Int := latOf s.links[n].board ((s.tripsWith n rt).take 8)

/-- LAT one step nearer to a target (R245). -/
def latToward (target : Int) (lat : Nat) : Nat :=
  (if target - lat > 1 then (lat : Int) + 1 else if lat - target > 1 then (lat : Int) - 1 else lat).toNat

theorem latToward_near (target : Int) (lat : Nat) : latToward target lat ≤ lat + 1 ∧ lat ≤ latToward target lat + 1 := by
  unfold latToward
  split
  · omega
  · split <;> omega

/-- LAT has taken its step (R245). -/
def latMoved (s : State) (n : LinkId) (f : ReturnFrame) (rt : Nat) : State :=
  (s.replied n f).updLink n fun k => { k with
    trips := (s.tripsWith n rt).take 8, lat := latToward (s.latTarget n rt) s.links[n].lat }

/-- What a round trip does on a link that carries (R245). -/
def tracked (s : State) (n : LinkId) (f : ReturnFrame) (rt : Nat) : State :=
  if 64 < (s.latTarget n rt - s.links[n].latTrained).natAbs then (s.latMoved n f rt).goDown n 5 else s.latMoved n f rt

theorem latMoved_turns (s : State) (n : LinkId) (f : ReturnFrame) (rt : Nat) : s.LinkTurns (s.latMoved n f rt) n
    { s.links[n] with
      lastReturn := s.time, awaited := s.links[n].awaited.erase f.seq, trips := (s.tripsWith n rt).take 8
      lat := latToward (s.latTarget n rt) s.links[n].lat } :=
  (s.replied_turns n f).updLink

theorem heard_inTime (s : State) (n : LinkId) : (s.heard n).inTime n = s.inTime n := by
  unfold inTime
  rw [heard_here]
  rfl

theorem echo_unasked {s : State} {n : LinkId} {f : ReturnFrame} (h : f.seq ∉ s.links[n].awaited) (rt : Nat) :
    s.echo n f rt = s :=
  if_pos (Bool.eq_false_iff.mpr fun asked => h (List.contains_iff_mem.mp asked))

section
variable {s : State} {n : LinkId} {f : ReturnFrame} (asked : f.seq ∈ s.links[n].awaited) (rt : Nat)
include asked

theorem echo_asked : (s.heard n).echo n f rt =
    if s.links[n].step = .measure then if s.inTime n = false then s.replied n f else s.measured n f rt
    else if s.carries n then s.tracked n f rt else s.replied n f := by
  unfold echo
  rw [heard_here, heard_carries, heard_inTime]
  exact if_neg (Bool.not_eq_false _ ▸ List.contains_iff_mem.mpr asked)

theorem echo_late (step : s.links[n].step = .measure) (late : s.inTime n = false) :
    (s.heard n).echo n f rt = s.replied n f := by
  rw [echo_asked asked, if_pos step, if_pos late]

theorem echo_measured (step : s.inStep n .measure) : (s.heard n).echo n f rt = s.measured n f rt := by
  obtain ⟨measure, ahead⟩ := inStep_iff.mp step
  rw [echo_asked asked, if_pos measure, ahead]
  rfl

variable (other : s.links[n].step ≠ .measure)
include other

theorem echo_quiet (silent : s.carries n = false) : (s.heard n).echo n f rt = s.replied n f := by
  rw [echo_asked asked, if_neg other, silent]
  rfl

theorem echo_tracked (carries : s.carries n = true) : (s.heard n).echo n f rt = s.tracked n f rt := by
  rw [echo_asked asked, if_neg other, carries]
  rfl

end

/-! ### ECHO frames under lines -/

/-- An ECHO is due on a link that carries (R245). -/
def trackDue (s : State) (n : LinkId) : Bool := s.carries n && decide (4096 ≤ s.links[n].sinceEcho) && s.gapFits n 22

/-- An ECHO has gone out on a link that carries (R245). -/
def echoSent (s : State) (n : LinkId) : State :=
  (s.sendAsking n 5).updLink n fun k => { k with sinceEcho := k.sinceEcho - 4096, awaited := [s.links[n].seq] }

theorem echoTracking_eq (s : State) (n : LinkId) : s.echoTracking n = if s.trackDue n then s.echoSent n else s := rfl

theorem echoSent_turns (s : State) (n : LinkId) : ∃ l, s.LinkTurns (s.echoSent n) n l ∧
    l.sinceEcho = s.links[n].sinceEcho - 4096 ∧ l.awaited = [s.links[n].seq] :=
  ⟨_, (LinkTurns.start s n).sendFrame.updLink.updLink, rfl, rfl⟩

end State

/-! ### The clauses -/

theorem trainingPasses : Clause.TrainingPasses := by
  intro s n f rt good asked l trips spread taken step
  rw [exec_echoReply good]
  refine ⟨fun late => ?_, fun ahead => ?_⟩
  · have late : s.inTime n = false := by
      rw [Bool.eq_false_iff, ne_eq, State.inTime_iff, show s.links[n].step = .measure from step]
      exact Nat.not_le.mpr late
    exact congrArg Host.Outcome.next (State.echo_late asked rt step late)
  · rw [State.echo_measured asked rt ⟨step, ahead⟩]
    have noted := s.tripNoted_turns n f rt
    have was : (s.tripNoted n f rt).links[n].st = s.links[n].st := noted.read Link.st
    refine ⟨fun few => congrArg Host.Outcome.next (State.measured_few f few), fun all apart => ?_, fun all near => ?_⟩
    · rw [State.measured_apart f all apart]
      exact ⟨_, rfl, failed_of_turns noted.trainFail⟩
    · rw [State.measured_near f all near]
      obtain ⟨free, passed⟩ := noted.trainPass
      have turned : ((s.tripNoted n f rt).trainPass n).links[n].st = (s.tripNoted n f rt).stateTrained n := passed.read Link.st
      have lat := passed.read Link.lat
      refine ⟨_, rfl, passed.drain, ?_, passed.read Link.step, passed.read Link.seq, fun none => ?_, passed.read Link.held,
        fun fresh => turned.trans (State.stateTrained_untrained (was.trans fresh)),
        fun down => turned.trans (State.stateTrained_down (was.trans down)), fun old up => ?_, passed.others⟩
      · unfold State.linkTrained at lat
        rwa [noted.here] at lat
      · exact (passed.read Link.count).trans (State.renumber_count none)
      · rw [turned, State.stateTrained_other (was.symm ▸ old) (was.symm ▸ up), was]

theorem latencyTracks : Clause.LatencyTracks := by
  intro s n f rt l due
  refine ⟨fun early => ?_, fun now => ?_, fun good fresh => ?_,
    fun good asked other => ⟨fun silent => ?_, fun carries => ?_⟩⟩
  · exact congrArg Host.Outcome.next ((s.echoTracking_eq n).trans (if_neg (Bool.eq_false_iff.mp early)))
  · obtain ⟨k, turns, since, awaited⟩ := s.echoSent_turns n
    refine ⟨_, congrArg Host.Outcome.next ((s.echoTracking_eq n).trans (if_pos now)), rfl, ?_, ?_, turns.others⟩
    · exact (turns.read Link.sinceEcho).trans since
    · exact (turns.read Link.awaited).trans awaited
  · rw [exec_echoReply good]
    rw [← s.heard_awaited n] at fresh
    exact congrArg Host.Outcome.next (State.echo_unasked fresh rt)
  · rw [exec_echoReply good]
    exact congrArg Host.Outcome.next (State.echo_quiet asked rt other silent)
  · intro target
    have moved := s.latMoved_turns n f rt
    have only : s.LinkOnly (s.latMoved n f rt) n := (s.replied_only n f).updLink
    have up := State.carries_up carries
    have down := moved.goDown up 5
    obtain ⟨low, high⟩ := State.latToward_near (s.latTarget n rt) s.links[n].lat
    rw [exec_echoReply good, State.echo_tracked asked rt other carries]
    unfold State.tracked
    by_cases far : 64 < (s.latTarget n rt - s.links[n].latTrained).natAbs
    · rw [if_pos far]
      refine ⟨_, rfl, only.goDown, down.read Link.awaited, ?_, ?_, fun near => absurd far (Nat.not_lt.mpr near),
        fun _ => ⟨down.read Link.st, down.read Link.downCause⟩⟩
      all_goals rw [down.here]
      · exact low
      · exact high
    · rw [if_neg far]
      refine ⟨_, rfl, only, moved.read Link.awaited, ?_, ?_, fun _ => (moved.read Link.st).trans up, fun h => absurd h far⟩
      all_goals rw [moved.here]
      · exact low
      · exact high

end Sys2Proof.Machine
end

section
/-! SUPPORT. Links that fall to DOWN, and the messages of the boards and to them (R240, R247, R248, R252). -/

namespace Sys2Proof.Machine

namespace State

/-! ### Losses -/

theorem statusTimeout_late {s : State} {n : LinkId} (h : s.links[n].lastReturn + 16000000 ≤ s.time) :
    s.statusTimeout n = s.goDown n 3 :=
  if_pos h

theorem statusTimeout_waits {s : State} {n : LinkId} (h : s.time < s.links[n].lastReturn + 16000000) : s.statusTimeout n = s :=
  if_neg (Nat.not_le.mpr h)

theorem statusTimeout_other {s : State} {n : LinkId} (other : s.links[n].st ≠ .up) : s.statusTimeout n = s := by
  unfold statusTimeout
  rw [goDown_other other, ite_self]

/-! ### Messages of the board -/

theorem message_room {s : State} {n : LinkId} (f : ReturnFrame) (room : s.links[n].inbox.length < 8) : s.message n f =
    (s.updLink n fun l => { l with inbox := l.inbox ++ [f.payload] }).raise ⟨16 + n.val, by omega⟩ :=
  if_pos room

theorem message_full {s : State} {n : LinkId} (f : ReturnFrame) (full : 8 ≤ s.links[n].inbox.length) :
    s.message n f = { s with logs := (s.message n f).logs } := by
  have dropped : s.message n f = s.logLinkRun 0x0905
      (linkFields n 0 s.links[n].st.code s.links[n].st.code 0xFFFFFFFF 0xFFFF 0xFFFF) := if_neg (Nat.not_lt.mpr full)
  rw [dropped]
  rfl

theorem heard_inbox (s : State) (n : LinkId) : (s.heard n).links[n].inbox = s.links[n].inbox := by
  rw [heard_here]

theorem heard_sending (s : State) (n : LinkId) : (s.heard n).links[n].sending = s.links[n].sending := by
  rw [heard_here]

/-! ### Messages to the board -/

theorem DrainOnly.finish {s₀ s : State} (a : s₀.DrainOnly s) (id : Nat) (x : Answer) : s₀.DrainOnly (s.finish id x) :=
  a.trans (finished_finish s id x).drainOnly

/-- Taking up a message changes links alone, and may send a frame. -/
theorem serveMessages_effect (s : State) (n : LinkId) : s.serveMessages n =
      { s with links := (s.serveMessages n).links, out := (s.serveMessages n).out } ∧
    ∃ o, (s.serveMessages n).out = o ++ s.out := by
  unfold serveMessages
  extract_lets s1
  have taken : s1 = { s with links := s1.links } := by
    unfold s1
    split
    · rfl
    · rfl
  generalize s1 = t at taken
  have kept : t = { s with links := t.links, out := t.out } ∧ ∃ o, t.out = o ++ s.out := by
    rw [taken]
    exact ⟨rfl, [], rfl⟩
  split
  · exact kept
  · split
    · split
      · rw [taken]
        exact ⟨rfl, [_], rfl⟩
      · exact kept
    · exact kept

theorem DrainOnly.serveMessages {s₀ s : State} (a : s₀.DrainOnly s) (n : LinkId) : s₀.DrainOnly (s.serveMessages n) := by
  obtain ⟨same, out⟩ := s.serveMessages_effect n
  generalize s.serveMessages n = t at same out
  refine a.trans ?_
  rw [same]
  exact ⟨rfl, .refl s, fun _ => rfl, out⟩

theorem endSend_some {s : State} {n : LinkId} {m : Sending} (h : s.links[n].sending = some m) (a : Answer) : s.endSend n a =
    ((s.updLink n fun l => { l with sending := none }).finish m.cmd a).serveMessages n := by
  unfold endSend
  rw [h]

/-- A message has ended with an answer: its LINK_MSG has completed, and nothing outside the drain has changed (R240, R248). -/
def MessageEnded (s t : State) (m : Sending) (a : Cmd → Answer) : Prop :=
  s.DrainOnly t ∧ (∀ c ∈ t.cmds, c.id ≠ m.cmd) ∧ ∀ c, s.findCmd m.cmd = some c →
    s.Sent t (.completion c.iss.host c.iss.queue (s.queue c.iss.host c.iss.queue).cqTail
      (completionEntry c.iss.tag (a c) (s.queue c.iss.host c.iss.queue).phase c.iss.queue
        (s.queue c.iss.host c.iss.queue).sqHead))

theorem finish_ends {s : State} {m : Sending} {x : Answer} {a : Cmd → Answer}
    (answer : ∀ c, s.findCmd m.cmd = some c → x = a c) : s.MessageEnded (s.finish m.cmd x) m a := by
  refine ⟨(DrainOnly.refl s).finish m.cmd x, finish_gone s m.cmd x, fun c hc => ?_⟩
  obtain ⟨o, out, -⟩ := finish_found x hc
  rw [answer c hc] at out ⊢
  exact ⟨_, out, List.mem_append_right _ List.mem_cons_self⟩

section
variable {s t : State} {n : LinkId} {m : Sending} {a : Cmd → Answer}

theorem MessageEnded.serveMessages (h : s.MessageEnded t m a) (n : LinkId) : s.MessageEnded (t.serveMessages n) m a := by
  obtain ⟨drain, gone, sent⟩ := h
  obtain ⟨same, o, out⟩ := t.serveMessages_effect n
  refine ⟨drain.serveMessages n, fun c hc => ?_, fun c hc => ?_⟩
  · rw [same] at hc
    exact gone c hc
  · obtain ⟨xs, put, mem⟩ := sent c hc
    exact ⟨o ++ xs, by rw [out, put, List.append_assoc], List.mem_append_right _ mem⟩

/-- What its links hold does not show in how a message ends. -/
theorem MessageEnded.of_updLink {f : Link → Link} (h : (s.updLink n f).MessageEnded t m a) : s.MessageEnded t m a := by
  obtain ⟨drain, gone, sent⟩ := h
  exact ⟨(DrainOnly.refl s).updLink.trans drain, gone, sent⟩

theorem endSend_ends (h : s.links[n].sending = some m) {x : Answer} (answer : ∀ c, s.findCmd m.cmd = some c → x = a c) :
    s.MessageEnded (s.endSend n x) m a := by
  rw [endSend_some h]
  refine MessageEnded.of_updLink (n := n) (f := fun l => { l with sending := none }) (MessageEnded.serveMessages ?_ n)
  exact finish_ends answer

end

section
variable {s : State} {n : LinkId} {m : Sending} (h : s.links[n].sending = some m)
include h

theorem gapTimeout_some : s.gapTimeout n =
    if m.seq.isNone ∧ m.start + 160000000 ≤ s.time then s.endSend n { status := .timeout } else s := by
  unfold gapTimeout
  rw [h]
  rfl

theorem ackTimeout_some : s.ackTimeout n =
    if m.seq.isSome ∧ m.sentAt + 160000000 ≤ s.time then s.endSend n { status := .timeout } else s := by
  unfold ackTimeout
  rw [h]
  rfl

theorem ack_some (f : ReturnFrame) : s.ack n f =
    if m.seq = some f.seq then s.endSend n { r0 := ((s.findCmd m.cmd).map (·.buf.length)).getD 0 } else s := by
  unfold ack
  rw [h]

end

theorem timeouts_none {s : State} {n : LinkId} (h : s.links[n].sending = none) : s.gapTimeout n = s ∧ s.ackTimeout n = s := by
  unfold gapTimeout ackTimeout
  rw [h]
  exact ⟨rfl, rfl⟩

theorem ack_other {s : State} {n : LinkId} {f : ReturnFrame} (h : ∀ m, s.links[n].sending = some m → m.seq ≠ some f.seq) :
    s.ack n f = s := by
  cases sending : s.links[n].sending with
  | none =>
    unfold ack
    rw [sending]
  | some m => exact (ack_some sending f).trans (if_neg (h m sending))

end State

/-! ### The clauses -/

/-- An UP link falls to DOWN from the state in which it is. -/
theorem down_now {s : State} {n : LinkId} (up : s.links[n].st = .up) (cause : Nat) :
    Clause.Down s (s.goDown n cause) n cause :=
  down_of_up (.refl s n) (.start s n) up rfl rfl cause

theorem statusFrame_tracked {s : State} {n : LinkId} {f : ReturnFrame} (good : goodReturn f 1 16 16 = true)
    (other : ¬s.inStep n .status) :
    let kept : State := (s.heard n).statusKept n f
    (s.carries n = false ∨ s.framesLost n f = false ∧ (statusOf f).getLsbD 81 = false →
      exec (.statusFrame n f) s = .next kept) ∧
    (s.carries n = true → s.framesLost n f = true → exec (.statusFrame n f) s = .next (kept.goDown n 4)) ∧
    (s.carries n = true → s.framesLost n f = false → (statusOf f).getLsbD 81 = true →
      exec (.statusFrame n f) s = .next (kept.goDown n 6)) := by
  rw [exec_statusFrame good, State.status_other f (mt State.heard_inStep.mp other), s.heard_carries n, s.heard_framesLost n f]
  refine ⟨fun h => ?_, fun carries lost => ?_, fun carries safe fault => ?_⟩
  · obtain silent | ⟨safe, sound⟩ := h
    · rw [silent]
      rfl
    · rw [safe, sound]
      exact congrArg Host.Outcome.next (ite_self _)
  · rw [carries, lost]
    rfl
  · rw [carries, safe, fault]
    rfl

theorem linksFall : Clause.LinksFall := by
  intro s n l
  refine ⟨fun f good other => ?status, fun k other => ⟨?_, ?_, ?_⟩, fun k short => ?_, fun k long => ?_,
    fun early => congrArg Host.Outcome.next (State.statusTimeout_waits early),
    fun up => ⟨fun k long => ⟨_, congrArg Host.Outcome.next (if_pos long), down_now up 1⟩,
      fun k short => ⟨_, congrArg Host.Outcome.next (if_pos short), down_now up 2⟩,
      fun late => ⟨_, congrArg Host.Outcome.next (State.statusTimeout_late late), down_now up 3⟩⟩⟩
  case status =>
    intro w bad recent lost kept
    obtain ⟨stays, loses, faults⟩ := statusFrame_tracked good other
    have same : (s.heard n).statusKept n f = kept := s.heard_statusKept n f
    have only : s.LinkOnly ((s.heard n).statusKept n f) n := (s.heard_only n).updLink
    have down (carries : s.carries n = true) (cause : Nat) :=
      down_of_up only (s.statusKept_turns n f) (State.carries_up carries) rfl rfl cause
    exact ⟨fun h => (stays h).trans (congrArg _ same), fun carries lost => ⟨_, loses carries lost, down carries 4⟩,
      fun carries safe fault => ⟨_, faults carries safe fault, down carries 6⟩⟩
  · exact congrArg Host.Outcome.next ((congrArg (ite _ · s) (State.goDown_other other 1)).trans (ite_self s))
  · exact congrArg Host.Outcome.next ((congrArg (ite _ · s) (State.goDown_other other 2)).trans (ite_self s))
  · exact congrArg Host.Outcome.next (State.statusTimeout_other other)
  · exact congrArg Host.Outcome.next (if_neg (Nat.not_le.mpr short))
  · exact congrArg Host.Outcome.next (if_neg (Nat.not_le.mpr long))

theorem messageFrame_kept {s : State} {n : LinkId} {f : ReturnFrame} (good : goodReturn f 2 1 240 = true)
    (room : s.links[n].inbox.length < 8) : ∃ t, exec (.messageFrame n f) s = .next t ∧
      t.links[n].inbox = s.links[n].inbox ++ [f.payload] ∧ s.LinkOnly t n := by
  rw [exec_messageFrame good, State.message_room f (by rwa [s.heard_inbox n])]
  have kept := ((s.heard_turns n).updLink (f := fun l => { l with inbox := l.inbox ++ [f.payload] })).raise
    (k := ⟨16 + n.val, by omega⟩)
  exact ⟨_, rfl, kept.read Link.inbox, (s.heard_only n).updLink.raise⟩

theorem messagesEnd : Clause.MessagesEnd := by
  intro s n l heard ends
  have timeout {m : Sending} (sending : l.sending = some m) :
      s.MessageEnded (s.endSend n { status := .timeout }) m fun _ => { status := .timeout } :=
    State.endSend_ends sending fun _ _ => rfl
  refine ⟨fun f => messageFrame_kept, fun f good full => ?full, fun f good other => ?other, fun f m good sending seq => ?ack,
    fun none => ?none, fun m sending => ?sending⟩
  case full =>
    rw [exec_messageFrame good]
    exact ⟨_, rfl, State.message_full f (by rwa [s.heard_inbox n])⟩
  case other =>
    rw [exec_ackFrame good]
    exact congrArg Host.Outcome.next (State.ack_other (s.heard_sending n ▸ other))
  case ack =>
    have sending : (s.heard n).links[n].sending = some m := (s.heard_sending n).trans sending
    have acked := (State.ack_some sending f).trans (if_pos seq)
    refine ⟨_, (exec_ackFrame good).trans (congrArg Host.Outcome.next acked),
      (State.endSend_ends sending fun c hc => ?_).of_updLink⟩
    rw [hc]
    rfl
  case none =>
    obtain ⟨gap, ack⟩ := State.timeouts_none none
    exact ⟨congrArg Host.Outcome.next gap, congrArg Host.Outcome.next ack⟩
  case sending =>
    have gap := State.gapTimeout_some sending
    have ack := State.ackTimeout_some sending
    refine ⟨fun unsent late => ?_, fun h => ?_, fun sent late => ?_, fun h => ?_⟩
    · rw [if_pos ⟨Option.isNone_iff_eq_none.mpr unsent, late⟩] at gap
      exact ⟨_, congrArg Host.Outcome.next gap, timeout sending⟩
    · rw [if_neg fun ⟨unsent, late⟩ => h.elim (· (Option.isNone_iff_eq_none.mp unsent)) (Nat.not_lt.mpr late)] at gap
      exact congrArg Host.Outcome.next gap
    · rw [if_pos ⟨Option.isSome_iff_ne_none.mpr sent, late⟩] at ack
      exact ⟨_, congrArg Host.Outcome.next ack, timeout sending⟩
    · rw [if_neg fun ⟨sent, late⟩ => h.elim (Option.isSome_iff_ne_none.mp sent) (Nat.not_lt.mpr late)] at ack
      exact congrArg Host.Outcome.next ack

/-- Settles O52: a return frame by whether it is valid and what its link awaits, a training by its step, a loss by whether its link
is UP, a message by whether its board has answered. -/
theorem linkEvents : Obligations.LinkEvents :=
  ⟨badReturns, trainingGoes, trainingPasses, latencyTracks, linksFall, messagesEnd⟩

end Sys2Proof.Machine
end

section
/-! SUPPORT. The rows of the web loop in states in which their time has come (R171, R257 to R262, R272, R278 to R281). -/

namespace Sys2Proof.Machine

namespace State

theorem inCore_on {s : State} (on : s.domainOn 1 = true) (f : State → State) : s.inCore f = f s := if_pos on

/-! ### The web loop under operations of the drain -/

theorem raise_web (s : State) (n : Fin 96) : (s.raise n).web = s.web := (Settles.refl s).raise.web

theorem settlePages_web (s : State) : s.settlePages.web = s.web := (Settles.refl s).settlePages.web

theorem haltNow_web (s : State) : s.haltNow.web = s.web :=
  (Settles.ite (.refl s) (Settles.refl s).endPages.flush.haltDone).web

/-- A halt at once leaves the drain HALTED, in whatever state it was (R189). -/
theorem haltNow_drain (s : State) : s.haltNow.seq.drain = .halted := by
  by_cases halted : s.drainHalted = true
  · rw [show s.haltNow = s from if_pos halted]
    exact beq_iff_eq.mp halted
  · obtain ⟨done, -⟩ := haltNow_effect (Bool.eq_false_iff.mpr halted)
    exact beq_iff_eq.mp done

/-- What is read of the web loop and neither the high-water mark nor the arming of the links shows in (R276). -/
theorem noteHigh_read {β : Type} (s : State) (g : Web → β) (same : ∀ w h b, g { w with hwm := h, armed := b } = g w) :
    g s.noteHigh.web = g s.web := by
  unfold noteHigh
  split
  · rfl
  · exact same ..

/-- The loop is in the state that it is put into (R260). -/
theorem setWeb_st (s : State) (st : WebState) : (s.setWeb st).web.st = st := by
  unfold setWeb
  split
  · assumption
  · rw [raise_web]
    rfl

/-! ### Updates of the loop -/

/-- Of the web loop only the count of skipped lines has changed. -/
def SkipsOnly (s t : State) : Prop := ∃ k, t.web = { s.web with skipped := k }

theorem SkipsOnly.of_web {s t : State} (h : t.web = s.web) : s.SkipsOnly t := ⟨s.web.skipped, h⟩

theorem SkipsOnly.trans {s t u : State} (a : s.SkipsOnly t) (b : t.SkipsOnly u) : s.SkipsOnly u := by
  obtain ⟨j, hj⟩ := a
  obtain ⟨k, hk⟩ := b
  exact ⟨k, by rw [hk, hj]⟩

theorem skipLine_skipsOnly (s : State) (n : LinkId) (page : BitVec 16) (i : Nat) : s.SkipsOnly (s.skipLine n page i) :=
  ⟨_, (Settles.refl _).noteSkip.web⟩

theorem commitLink_skipsOnly (n : LinkId) (fuel : Nat) (s : State) : s.SkipsOnly (commitLink n fuel s) := by
  induction fuel generalizing s with
  | zero => exact .of_web rfl
  | succ fuel ih =>
    unfold commitLink
    split
    · exact .of_web rfl
    · split
      · exact (SkipsOnly.of_web rfl).trans (ih _)
      · split
        · exact .of_web rfl
        · exact (skipLine_skipsOnly ..).trans (ih _)
        · exact (SkipsOnly.of_web rfl).trans (ih _)

theorem commitAll_skipsOnly (s : State) : s.SkipsOnly s.commitAll := by
  have links (fuel : LinkId → Nat) (ns : List LinkId) (t : State) :
      t.SkipsOnly (ns.foldl (fun acc n => commitLink n (fuel n) acc) t) := by
    induction ns generalizing t with
    | nil => exact .of_web rfl
    | cons n ns ih => exact (commitLink_skipsOnly n (fuel n) t).trans (ih _)
  exact (links _ _ s).trans (.of_web (Settles.refl _).checkFloor.settlePages.web)

theorem loopUpdate_updated {s : State} (due : s.web.updated + 8533 ≤ s.time) : s.loopUpdate.web.updated = s.time := by
  have due : ¬s.time < s.web.updated + loopTau := Nat.not_lt.mpr due
  unfold loopUpdate
  rw [if_neg due]
  extract_lets s0 err corrects s1
  obtain ⟨k, skips⟩ := (s1.updWeb fun w => { w with updated := s.time }).noteHigh.commitAll_skipsOnly
  rw [skips]
  exact noteHigh_read _ Web.updated fun _ _ _ => rfl

/-! ### Counts -/

theorem endPass_count (s : State) : s.endPass.web.count = s.web.count := by
  unfold endPass
  extract_lets s1 skipped s2
  have ended : s2.web = ((s1.countSkips skipped).noteEnded).web := (Settles.refl _).endPages.flush.web
  have noted (t : State) : t.noteEnded.web = t.web := by
    unfold noteEnded
    split
    · split <;> rfl
    · rfl
  rw [noted] at ended
  have count : s2.web.count = s.web.count := by
    rw [ended]
    rfl
  rw [settlePages_web]
  exact count

theorem checkReversal_count (s : State) : s.checkReversal.web.count = s.web.count := by
  unfold checkReversal
  extract_lets w back s1 s2
  have declared : s2.web.count = s.web.count := by
    unfold s2
    rw [raise_web]
    rfl
  split
  · rfl
  · split
    · exact s2.endPass_count.trans declared
    · exact declared

/-- A count moves the encoder count by one, in the direction that it has (R257). -/
theorem oneCount_count (s : State) (fwd : Bool) :
    (s.oneCount fwd).web.count = if fwd then s.web.count + 1 else s.web.count - 1 := by
  have noted : s.noteHigh.web.count = s.web.count := noteHigh_read s Web.count fun _ _ _ => rfl
  have count (t : State) : t.noteHigh.settlePages.web.count = t.web.count := by
    rw [settlePages_web]
    exact noteHigh_read t Web.count fun _ _ _ => rfl
  unfold oneCount
  extract_lets s0 next boundary err s1 s2
  have moved : s2.web.count = if fwd then s.web.count + 1 else s.web.count - 1 := by
    rw [← noted]
    unfold s2
    split <;> rfl
  split
  · exact moved
  · exact moved
  · extract_lets s3 s4 s5
    have held : s4.web.count = s2.web.count := by
      unfold s4
      split <;> rfl
    have turned : s5.web.count = s4.web.count := by
      unfold s5
      split
      · rfl
      · exact s4.checkReversal_count
    rw [count, turned, held, moved]

/-- An edge of A while B is low, with A the first to rise, is a count forward (R257). -/
theorem encoderCount_forward {s : State} (sense : s.web.cfg.invert = false) (lowA : s.web.inA = false)
    (lowB : s.web.inB = false) : (s.encoderCount true false).web.count = s.web.count + 1 := by
  unfold encoderCount
  extract_lets w onA onB soon close edges s1
  have edge : (onA == onB) = false := by
    simp only [onA, onB, w, lowA, lowB]
    rfl
  have forward : (((quadrature true false - quadrature w.inA w.inB) % 4 == 1) != w.cfg.invert) = true := by
    simp only [w, lowA, lowB, sense]
    rfl
  rw [edge, forward]
  exact oneCount_count s1 true

/-! ### Lock, loss and coasting -/

theorem lockChange_locks {s : State} (acquire : s.web.st = .acquire) (run : 64 ≤ s.web.lockRun) :
    s.lockChange = s.setWeb .locked := by
  unfold lockChange
  rw [acquire]
  exact if_pos (.inl run)

theorem encoderLost_coasts {s : State} {k : Nat} (locked : s.web.st = .locked) (long : 16000 ≤ k) :
    (s.encoderLost (.failsafe k)).web.st = .coasting := by
  have holds : s.lossHolds (.failsafe k) = true := decide_eq_true long
  unfold encoderLost
  rw [holds, locked]
  exact (congrArg Web.st (raise_web ..)).trans (setWeb_st ..)

theorem encoderRebase_locks {s : State} (coasting : s.web.st = .coasting) (valid : 64 ≤ s.web.valid)
    (early : s.time < s.web.coastFrom + s.web.coastUs * 160000) : s.encoderRebase.web.st = .locked := by
  rw [show s.encoderRebase = _ from if_pos ⟨coasting, valid, early⟩]
  exact setWeb_st ..

/-- A loop that is LOST has halted the drain (R279). -/
theorem webLost_lost (s : State) : s.webLost.web.st = .lost ∧ s.webLost.seq.drain = .halted := by
  unfold webLost
  extract_lets before s1
  have lost : s1.web.st = .lost := setWeb_st ..
  refine ⟨?_, ?_⟩
  · rw [raise_web, haltNow_web]
    exact lost
  · rw [(raised_raise _ _).sessionOnly.seq]
    exact haltNow_drain _

/-! ### The index, marks and page boundaries -/

theorem indexEdge_noted {s : State} (on : s.web.st ≠ .off) : s.indexEdge.web.indexRef = some s.web.count := by
  unfold indexEdge
  rw [if_neg on]
  extract_lets s1
  split
  · rfl
  · extract_lets
    split <;> rfl

/-- A mark with MARK_CTRL enabled for rising edges, held for the filter's time, in no window and with no mark before it, is
accepted (R280, R281). -/
theorem markSeen_accepted {s : State} {held : Nat} (enable : s.ks.force.markCtrl.toNat / 2 ^ 31 % 2 = 1)
    (rising : s.ks.force.markCtrl.toNat / 2 ^ 30 % 2 = 0) (filter : held = s.ks.force.markCtrl.toNat % 2 ^ 14 * 16000)
    (anywhere : s.ks.force.markWin.extractLsb' 0 16 = 0) (first : s.web.markLast = none) :
    (s.markSeen true held).web.markPos = (s.web.motionAt (s.time - held)).posAt (s.time - held) := by
  unfold markSeen
  extract_lets c w crossed seen u lo len inside beyond s1 l
  have reach : s.markReach = held := by
    rw [filter, markReach, bits, pow_zero, Nat.div_one]
    rfl
  have seen_eq : seen = true := by
    have up : bits c 30 1 = 0 := rising
    simp only [seen, up, reach, beq_self_eq_true, Bool.and_self]
  have inside_eq : inside = true := by
    have none : len = 0 := by
      simp only [len, w, anywhere]
      rfl
    simp only [inside, none, beq_self_eq_true, Bool.true_or]
  have enabled : (bits c 31 1 == 0) = false := by
    rw [show bits c 31 1 = 1 from enable]
    rfl
  have beyond_eq : beyond = true := by
    simp only [beyond, first]
  rw [seen_eq, inside_eq, enabled, beyond_eq]
  exact congrArg Web.markPos (raise_web _ 67)

theorem pageBoundary_passed {s : State} {id : BitVec 16} {p : Page} (page : s.findPage id = some p) (active : p.active = true)
    (ahead : p.passed = false) (reached : p.start * 65536 ≤ s.travelNow p.reverse) :
    (s.pageBoundary id).web.lastStart = some p.start := by
  have reached : p.start * lineUnit ≤ s.travelNow p.reverse := reached
  have due : (p.active && !p.passed && decide (p.start * lineUnit ≤ s.travelNow p.reverse)) = true := by
    rw [active, ahead, decide_eq_true reached]
    rfl
  unfold pageBoundary
  rw [page]
  dsimp only
  rw [if_pos due, settlePages_web, raise_web]
  rfl

end State

end Sys2Proof.Machine
end

section
/-! SUPPORT. The rows of the web loop and of the links, taken together. -/

namespace Sys2Proof.Machine

/-! ### Rows of the links in one outcome for each -/

theorem decodeLineComplete_raw {s : State} {n : LinkId} {e : Fin 34} {p : Page} {u : Strip} (busy : s.links[n].fetch.busy = true)
    (engine : s.links[n].engine = some e) (serving : s.engines[e].st = .serving)
    (page : s.findPage s.links[n].fetch.page = some p) (strip : s.pageStrip p n = some u) (raw : u.raw = true)
    (read : ∀ b ∈ s.links[n].fetch.want, ∀ k, b.use ≠ .raw k) (missing : s.links[n].fetch.missing = [])
    (words : s.links[n].fetch.badWords = []) :
    ∃ t, exec (.decodeLineComplete n none) s = .next t ∧ t.links[n].fetch.busy = false := by
  have line := (State.decodeLine_busy busy engine serving page strip).trans (if_pos raw)
  have all_read : s.links[n].fetch.want.any Used.isRaw = false := List.any_eq_false.mpr fun b hb h =>
    (Used.isRaw_iff.mp h).elim (read b hb)
  exact ⟨_, exec_decodeLineComplete (line.trans (State.decodeRaw_whole p u _ e all_read missing words)),
    State.endLine_idle ..⟩

/-- The LINE frame of a line whose slot is complete and reads well moves SEQ on, whatever its payload (R234). -/
theorem lineFrame_complete {s : State} {n : LinkId} {p : Page} {i : Nat} {x : Slot} (next : s.nextFrame n = some (p, i))
    (clear : s.mayFrame n p i = true) (blank : p.links[n].blank = false) (slot : s.slotOf n p.id i = some x)
    (full : x.complete = true) :
    ∃ t, exec (.lineFrame n .good) s = .next t ∧ t.links[n].seq = s.links[n].seq + 1 := by
  obtain ⟨-, frames⟩ := lineFrames s n .good
  obtain ⟨-, -, -, slots⟩ := frames p i next
  obtain ⟨-, wide, poisoned, sound⟩ := slots clear blank x slot
  by_cases fits : s.links[n].board.maxWords < s.pageWords p.links[n]
  · obtain ⟨t, row, -, -, seq, -⟩ := wide full fits
    exact ⟨t, row, seq⟩
  cases poison : x.poison with
  | true =>
    obtain ⟨t, row, -, -, seq, -⟩ := poisoned full fits poison
    exact ⟨t, row, seq⟩
  | false =>
    obtain ⟨good, -⟩ := sound full fits poison
    obtain ⟨t, row, -, -, seq, -⟩ := good rfl
    exact ⟨t, row, seq⟩

/-- A reply to an ECHO of the device outside training is not awaited any more, whether or not the link carries (R245). -/
theorem echoReply_erases {s : State} {n : LinkId} {f : ReturnFrame} (good : goodReturn f 5 0 0 = true)
    (asked : f.seq ∈ s.links[n].awaited) (other : s.links[n].step ≠ .measure) (rt : Nat) :
    ∃ t, exec (.echoReply n f rt) s = .next t ∧ t.links[n].awaited = s.links[n].awaited.erase f.seq := by
  obtain ⟨-, -, -, answers⟩ := latencyTracks s n f rt
  obtain ⟨quiet, tracked⟩ := answers good asked other
  cases carries : s.carries n with
  | false => exact ⟨_, quiet carries, (s.replied_turns n f).read Link.awaited⟩
  | true =>
    obtain ⟨t, row, -, awaited, -⟩ := tracked carries
    exact ⟨t, row, awaited⟩

/-- A STATUS frame outside training is kept, whether or not it brings the link DOWN (R247, R252). -/
theorem statusFrame_kept {s : State} {n : LinkId} {f : ReturnFrame} (good : goodReturn f 1 16 16 = true)
    (other : ¬s.inStep n .status) :
    ∃ t, exec (.statusFrame n f) s = .next t ∧ t.links[n].lastStatus = statusOf f := by
  obtain ⟨stays, loses, faults⟩ := statusFrame_tracked good other
  have kept := s.statusKept_turns n f
  cases carries : s.carries n with
  | false => exact ⟨_, stays (.inl carries), kept.read Link.lastStatus⟩
  | true =>
    have down (cause : Nat) := (kept.goDown (State.carries_up carries) cause).read Link.lastStatus
    cases lost : s.framesLost n f with
    | true => exact ⟨_, loses carries lost, down 4⟩
    | false =>
      cases fault : (statusOf f).getLsbD 81 with
      | true => exact ⟨_, faults carries lost fault, down 6⟩
      | false => exact ⟨_, stays (.inr ⟨lost, fault⟩), kept.read Link.lastStatus⟩

/-- Settles O59: a row of the web loop by what its function makes of the loop, a row of the links by the outcome that its clause
gives to it. -/
theorem webAndLinkRowsComplete : Obligations.WebAndLinkRowsComplete := by
  refine ⟨fun s on => ?web, fun s n => ?link⟩
  case web =>
    have core (f : State → State) : (Host.Outcome.next (s.inCore f) : Host.Outcome State Fault Refusal) = .next (f s) :=
      congrArg Host.Outcome.next (State.inCore_on on f)
    refine ⟨fun due => ⟨_, core _, State.loopUpdate_updated due⟩, fun a sense lowA lowB up => ⟨_, core _, ?count⟩,
      fun acquire run => ⟨_, core _, ?lock⟩, fun locked k long => ⟨_, core _, State.encoderLost_coasts locked long⟩,
      fun coasting valid early => ⟨_, core _, State.encoderRebase_locks coasting valid early⟩,
      fun coasting late => ⟨_, core _, ?lost⟩, fun on => ⟨_, core _, State.indexEdge_noted on⟩,
      ⟨_, core _, List.length_append⟩,
      fun held enable rising filter anywhere first =>
        ⟨_, core _, State.markSeen_accepted enable rising filter anywhere first⟩,
      fun id p page active ahead reached => ⟨_, core _, State.pageBoundary_passed page active ahead reached⟩⟩
    case count =>
      subst up
      exact State.encoderCount_forward sense lowA lowB
    case lock =>
      rw [State.lockChange_locks acquire run]
      exact State.setWeb_st ..
    case lost =>
      rw [show s.coastLimit = s.webLost from if_pos ⟨coasting, late⟩]
      exact s.webLost_lost
  case link =>
    obtain ⟨aligned, -, -, -, -, ⟨measures, -⟩, -, timesOut⟩ := trainingGoes s n
    obtain ⟨inbox, -, -, acked, -, messages⟩ := messagesEnd s n
    obtain ⟨-, -, -, -, -, falls⟩ := linksFall s n
    intro l
    refine ⟨fun e p u busy engine serving page strip raw read missing words =>
        decodeLineComplete_raw busy engine serving page strip raw read missing words,
      fun m first due carries => ?marker, fun m first => ?fires, fun p i next carries takes free => ?frames,
      fun carries many gap => ?echo, fun f => ⟨rfl, fun good asked other rt => echoReply_erases good asked other rt,
        fun good idle => statusFrame_kept good fun ⟨status, _⟩ => absurd (idle.symm.trans status) (by decide),
        fun good room => ?inbox, fun good m sending seq => ?ack, fun good ident ahead asked => ?ident,
        fun good test ahead => ?test⟩,
      fun train late => ?timeout, fun m sending => ⟨fun unsent late => ?gapTimeout, fun sent late => ?ackTimeout⟩,
      fun up => ?falls, fun k search ahead long => ?aligned, fun measure few due => ?measure⟩
    case marker =>
      obtain ⟨-, markers⟩ := markersLeave s n
      obtain ⟨-, leaves, -⟩ := markers m first
      obtain ⟨t, row, only, -⟩ := leaves due carries
      exact ⟨t, row, congrArg State.out only⟩
    case fires =>
      obtain ⟨-, lines⟩ := linesFire s n
      obtain ⟨t, row, -, gone, -⟩ := lines m first
      exact ⟨t, row, gone⟩
    case frames =>
      have clear : s.mayFrame n p i = true := by
        rw [State.mayFrame, carries, takes, decide_eq_true free]
        rfl
      refine ⟨fun ue blank => ?_, fun x blank slot full => lineFrame_complete next clear blank slot full,
        fun blank none late => ?_⟩
      · exact ⟨_, congrArg Host.Outcome.next (State.lineFrame_blank next ue clear blank),
          (s.sendLine_takes n p i 2 []).seq⟩
      · have due : (!s.carries n || s.lineComplete n p i || !s.deadline n p i) = false := by
          rw [State.lineComplete, carries, blank, none, late]
          rfl
        refine ⟨_, congrArg Host.Outcome.next (State.noDataFrame_some next), ?_⟩
        rw [due, takes, decide_eq_true free]
        exact s.countNoData_sendLine n p i 8 []
    case echo =>
      have due : s.trackDue n = true := by
        rw [State.trackDue, carries, decide_eq_true many, gap]
        rfl
      obtain ⟨k, turns, -, awaited⟩ := s.echoSent_turns n
      exact ⟨_, congrArg Host.Outcome.next ((s.echoTracking_eq n).trans (if_pos due)),
        (turns.read Link.awaited).trans awaited⟩
    case inbox =>
      obtain ⟨t, row, kept, -⟩ := inbox f good room
      exact ⟨t, row, kept⟩
    case ack =>
      obtain ⟨t, row, -, gone, -⟩ := acked f m good sending seq
      exact ⟨t, row, gone⟩
    case ident =>
      intro b rate buffers fewer words narrow
      obtain ⟨t, row, board, test, -⟩ := identFrame_sound good ⟨ident, ahead⟩ asked rate ⟨buffers, fewer, words, narrow⟩
      exact ⟨t, row, test, board⟩
    case test =>
      obtain ⟨t, row, -, counted, -⟩ := testFrame_counted good ⟨test, ahead⟩
      exact ⟨t, row, counted⟩
    case timeout =>
      obtain ⟨t, row, -, idle, -, -, untrained, -⟩ := timesOut train late
      exact ⟨t, row, idle, untrained⟩
    case gapTimeout =>
      obtain ⟨gap, -⟩ := messages m sending
      obtain ⟨t, row, -, gone, -⟩ := gap unsent late
      exact ⟨t, row, gone⟩
    case ackTimeout =>
      obtain ⟨-, -, ack, -⟩ := messages m sending
      obtain ⟨t, row, -, gone, -⟩ := ack sent late
      exact ⟨t, row, gone⟩
    case falls =>
      obtain ⟨silent, errors, timeout⟩ := falls up
      have down {x : Instr} {cause : Nat} (h : ∃ t, exec x s = .next t ∧ Clause.Down s t n cause) :
          ∃ t, exec x s = .next t ∧ t.links[n].st = .down := by
        obtain ⟨t, row, -, down, -⟩ := h
        exact ⟨t, row, down⟩
      exact ⟨fun k long => down (silent k long), fun k short => down (errors k short), fun late => down (timeout late)⟩
    case aligned =>
      obtain ⟨t, row, -, -, ident, -⟩ := aligned k ⟨search, ahead⟩ long
      exact ⟨t, row, ident⟩
    case measure =>
      obtain ⟨t, row, -, echoes, -⟩ := measures ⟨measure, few, due⟩
      exact ⟨t, row, echoes⟩

end Sys2Proof.Machine
end
